-- ==== Sys2Proof/Word.lean ====
section
/-! DEFINITION. The word types of the device (00_scope.md R4, 01_device_overview.md R12). -/

namespace Sys2Proof

/-- A register of a register block: 32 bits (R4). -/
abbrev Word := BitVec 32
/-- A byte of memory. -/
abbrev Byte := BitVec 8
/-- A 40-bit device address (R12). -/
abbrev Addr := BitVec 40
/-- A count of device time, in tu (R5, R26). -/
abbrev Time := BitVec 64

end Sys2Proof
end

