-- ==== Sys2Proof/Names.lean ====
section
/-! DEFINITION. The names the operands of commands use: parts, requesters and planes (01_device_overview.md R17),
flume channels (12_flume_engines.md), comparators (02_device_time.md R33), engines, and the issued bundles of a core. -/

namespace Sys2Proof

/-- The two parts of the manual (00_scope.md R2). -/
inductive Part | gh9600 | gh9672
  deriving DecidableEq, Repr

/-- A plane, or a point where planes meet (R17). -/
inductive Plane | data | control | management | meeting
  deriving DecidableEq, Repr

/-- A flume channel: of a ridge, of a hub, or a host flume (table of chapter 12). -/
inductive FlumeId
  | ridge (n : Fin 24) (c : Fin 16)
  | hub (h : Fin 4) (c : Fin 32)
  | host (q : Fin 16)
  deriving DecidableEq, Repr

/-- The engines that take commands of cpx (R115): codec, FFT/DFT and EQ engine of a ridge, turbo decoder and NBE
of a range. -/
inductive EngId
  | codec (n : Fin 24) | fft (n : Fin 24) | eq (n : Fin 24)
  | turbo (r : Fin 4) | nbe (r : Fin 4)
  deriving DecidableEq, Repr

/-- A PCIe function f: 0 PF0, 1 PF1, v + 2 VF v (R412). -/
abbrev Fn := Fin 17

/-- The requesters of R17. -/
inductive Requester
  | core (x : Fin 192)
  | flume (f : FlumeId)
  | engine (e : EngId)
  | bfa (r : Fin 4)
  | hub (h : Fin 4)
  | host (f : Fn)
  | bootRom | summitCtl | summitMgmt | cap
  deriving DecidableEq, Repr

/-- A comparator (R33), by the unit that holds it: general trigger g, flume channel, timed post i of dispatcher r,
sequencer h of BFA r, schedule s of hub h, DAC channel c, sluice comparator i. -/
inductive CmpId
  | gt (g : Fin 32)
  | flume (f : FlumeId)
  | tp (r : Fin 4) (i : Fin 16)
  | seq (r : Fin 4) (h : Fin 4)
  | sch (h : Fin 4) (s : Fin 16)
  | dac (c : Fin 8)
  | slc (i : Fin 32)
  deriving DecidableEq, Repr

/-- A unit that holds a copy of the count (R30). -/
inductive ReplicaId
  | tb | hif | hk | slc
  | ridge (n : Fin 24) | dpt (r : Fin 4) | bfa (r : Fin 4) | hub (h : Fin 4) | core (x : Fin 192)
  deriving DecidableEq, Repr

/-- A memory with a scrubber (10_memory_protection.md R248): the pool of a ridge, a reservoir stack. -/
inductive ScrubId | pool (n : Fin 24) | stack (i : Fin 2)
  deriving DecidableEq, Repr

/-- A cache with a CRC per line (R237): a core's instruction cache, an engine's coefficient cache. -/
inductive CacheId | core (x : Fin 192) | eng (e : EngId)
  deriving DecidableEq, Repr

/-- The S slot an instruction stands in (R56). -/
inductive SSlot | s0 | s1
  deriving DecidableEq, Repr

/-- The issue of a bundle by core `x`, the named instruction in S slot `slot`; the words of the other slots. -/
structure IssueS where
  core : Fin 192
  slot : SSlot
  other : Word
  m : Word
  v : Word
  deriving DecidableEq, Repr

/-- The issue of a bundle by a core, the named instruction in the M slot. -/
structure IssueM where
  core : Fin 192
  s0 : Word
  s1 : Word
  v : Word
  deriving DecidableEq, Repr

/-- The issue of a bundle by a core, the named instruction in the V slot. -/
structure IssueV where
  core : Fin 192
  s0 : Word
  s1 : Word
  m : Word
  deriving DecidableEq, Repr

/-- The issue of a bundle with a nop in one of its slots. -/
inductive IssueAny | s (b : IssueS) | m (b : IssueM) | v (b : IssueV)
  deriving DecidableEq, Repr

/-- An edge of PPS_IN: its kind, and the replica value of its first sample (02_device_time.md R25). -/
structure PpsEdge where
  falling : Bool
  first : BitVec 64
  deriving DecidableEq, Repr

/-- Where a message to an engine has come: to its port for the senders, or as the packet of a header to a range engine (11_leat_fabric.md R260). -/
structure EngMeet where
  eng : EngId
  packet : Option (BitVec 128)
  deriving DecidableEq, Repr

/-- A write of BFA_CTL with EN clear: the word, and, where the operation at the head was being worked on, the PRB groups it finishes
(08_beamforming_array.md R216). -/
structure BfaStop where
  word : Word
  groups : Option Nat
  deriving DecidableEq, Repr

/-- A PLL of a quad that loses lock: the CPRI or the Ethernet one, and whether its reference is absent (13_fronthaul_lanes.md R304). -/
structure PllLoss where
  cpri : Bool
  absent : Bool
  deriving DecidableEq, Repr

/-- Address operand of a load or store: the a register, the mode and imm14 (R59, R61). -/
structure AddrOp where
  an : BitVec 4
  mode : BitVec 3
  imm : BitVec 14
  deriving DecidableEq, Repr

/-- Element view of a vector access (R92, R96). -/
inductive View | b | h | w
  deriving DecidableEq, Repr

end Sys2Proof
end

