-- ==== Sys2Proof/Syntax.lean ====
section
/-! DEFINITION. The commands: one constructor for each row of the opcode table, with the row's operands. -/

namespace Sys2Proof

/-- A command of the block; each constructor names its row and the rule that states it. -/
inductive Instr
  /-- REGISTER_WRITE (R6) -/
  | registerWrite (req : Requester) (a : Addr) (v : Word)
  /-- LOCK_SET (R7) -/
  | lockSet (req : Requester) (a : Addr)
  /-- REFCLK_LOST (R24) -/
  | refclkLost
  /-- REFCLK_RESTORED (R24) -/
  | refclkRestored
  /-- TB_PLL_UNLOCK (R24) -/
  | tbPllUnlock
  /-- TB_PLL_LOCK (R24) -/
  | tbPllLock
  /-- PPS_EDGE_HELD (R25) -/
  | ppsEdgeHeld (edge : PpsEdge)
  /-- PPS_MISSING (R25) -/
  | ppsMissing
  /-- TB_CAP (R50) -/
  | tbCap (req : Requester)
  /-- TICK (R42) -/
  | tick
  /-- TICK_DIV_WRITE (R42) -/
  | tickDivWrite (req : Requester) (v : Word)
  /-- TICK_DIV_APPLY (R43) -/
  | tickDivApply
  /-- TREE_CHECK (R31) -/
  | treeCheck (r : ReplicaId)
  /-- COMPARATOR_ARM (R33) -/
  | comparatorArm (req : Requester) (c : CmpId) (v : Word)
  /-- COMPARATOR_DISARM (R33) -/
  | comparatorDisarm (req : Requester) (c : CmpId) (v : Word)
  /-- COMPARATOR_FIRE (R34) -/
  | comparatorFire (c : CmpId)
  /-- TB_RATE_WRITE (R38) -/
  | tbRateWrite (req : Requester) (v : Word)
  /-- SLEW_CARRY (R38) -/
  | slewCarry
  /-- STEP_GO (R39) -/
  | stepGo (req : Requester) (load : Bool)
  /-- STEP_LOAD_AT_PPS (R39) -/
  | stepLoadAtPps (req : Requester)
  /-- RECCLK_RESUME (R46) -/
  | recclkResume (n : Fin 2)
  /-- HOLDOVER_ENTRY (R48) -/
  | holdoverEntry (v0 v1 : BitVec 16)
  /-- HOLDOVER_WRITE (R377) -/
  | holdoverWrite (codes : Vector (BitVec 16) 8)
  /-- FULL_ENTRY (R379) -/
  | fullEntry
  /-- NOP (R60) -/
  | nop (b : IssueAny)
  /-- ADD (R60) -/
  | add (b : IssueS) (rd rs1 rs2 : BitVec 5)
  /-- SUB (R60) -/
  | sub (b : IssueS) (rd rs1 rs2 : BitVec 5)
  /-- AND (R60) -/
  | and (b : IssueS) (rd rs1 rs2 : BitVec 5)
  /-- OR (R60) -/
  | or (b : IssueS) (rd rs1 rs2 : BitVec 5)
  /-- XOR (R60) -/
  | xor (b : IssueS) (rd rs1 rs2 : BitVec 5)
  /-- SHL (R60) -/
  | shl (b : IssueS) (rd rs1 rs2 : BitVec 5)
  /-- SHR (R60) -/
  | shr (b : IssueS) (rd rs1 rs2 : BitVec 5)
  /-- SRA (R60) -/
  | sra (b : IssueS) (rd rs1 rs2 : BitVec 5)
  /-- CMPEQ (R60) -/
  | cmpeq (b : IssueS) (rd rs1 rs2 : BitVec 5)
  /-- CMPLT (R60) -/
  | cmplt (b : IssueS) (rd rs1 rs2 : BitVec 5)
  /-- CMPLTU (R60) -/
  | cmpltu (b : IssueS) (rd rs1 rs2 : BitVec 5)
  /-- MIN (R60) -/
  | minOp (b : IssueS) (rd rs1 rs2 : BitVec 5)
  /-- MAX (R60) -/
  | maxOp (b : IssueS) (rd rs1 rs2 : BitVec 5)
  /-- ADDS (R60) -/
  | adds (b : IssueS) (rd rs1 rs2 : BitVec 5)
  /-- SUBS (R60) -/
  | subs (b : IssueS) (rd rs1 rs2 : BitVec 5)
  /-- ABS (R60) -/
  | abs (b : IssueS) (rd rs1 : BitVec 5)
  /-- MUL (R60) -/
  | mul (b : IssueS) (rd rs1 rs2 : BitVec 5)
  /-- MULH (R60) -/
  | mulh (b : IssueS) (rd rs1 rs2 : BitVec 5)
  /-- MAC (R77) -/
  | mac (b : IssueS) (rd rs1 rs2 : BitVec 5)
  /-- MSU (R77) -/
  | msu (b : IssueS) (rd rs1 rs2 : BitVec 5)
  /-- EXT (R60) -/
  | ext (b : IssueS) (rd rs1 sh : BitVec 5)
  /-- EXT_S (R77) -/
  | extS (b : IssueS) (rd rs1 sh : BitVec 5)
  /-- EXP (R78) -/
  | exp (b : IssueS) (rd rs1 : BitVec 5)
  /-- EXPA (R78) -/
  | expa (b : IssueS) (rd rs1 : BitVec 5)
  /-- NORM (R78) -/
  | norm (b : IssueS) (rd rs1 : BitVec 5)
  /-- LDA (R60) -/
  | lda (b : IssueS) (rd rs1 : BitVec 5)
  /-- MOVDA (R60) -/
  | movda (b : IssueS) (rd rs1 : BitVec 5)
  /-- SETCB (R74) -/
  | setcb (b : IssueS) (rd rs1 : BitVec 5)
  /-- SETCL (R74) -/
  | setcl (b : IssueS) (rd rs1 : BitVec 5)
  /-- RDCB (R60) -/
  | rdcb (b : IssueS) (rd rs1 : BitVec 5)
  /-- RDCL (R60) -/
  | rdcl (b : IssueS) (rd rs1 : BitVec 5)
  /-- ADDI (R60) -/
  | addi (b : IssueS) (rd rs1 : BitVec 5) (imm : BitVec 16)
  /-- ANDI (R60) -/
  | andi (b : IssueS) (rd rs1 : BitVec 5) (imm : BitVec 16)
  /-- ORI (R60) -/
  | ori (b : IssueS) (rd rs1 : BitVec 5) (imm : BitVec 16)
  /-- XORI (R60) -/
  | xori (b : IssueS) (rd rs1 : BitVec 5) (imm : BitVec 16)
  /-- SHLI (R60) -/
  | shli (b : IssueS) (rd rs1 : BitVec 5) (imm : BitVec 16)
  /-- SHRI (R60) -/
  | shri (b : IssueS) (rd rs1 : BitVec 5) (imm : BitVec 16)
  /-- SRAI (R60) -/
  | srai (b : IssueS) (rd rs1 : BitVec 5) (imm : BitVec 16)
  /-- CMPEQI (R60) -/
  | cmpeqi (b : IssueS) (rd rs1 : BitVec 5) (imm : BitVec 16)
  /-- CMPLTI (R60) -/
  | cmplti (b : IssueS) (rd rs1 : BitVec 5) (imm : BitVec 16)
  /-- MOVI (R60) -/
  | movi (b : IssueS) (rd : BitVec 5) (imm : BitVec 16)
  /-- MOVHI (R60) -/
  | movhi (b : IssueS) (rd : BitVec 5) (imm : BitVec 16)
  /-- ADDA (R60) -/
  | adda (b : IssueS) (rd rs1 : BitVec 5) (imm : BitVec 16)
  /-- ADDC (R73) -/
  | addc (b : IssueS) (rd rs1 : BitVec 5) (imm : BitVec 16)
  /-- ADDAR (R60) -/
  | addar (b : IssueS) (rd rs1 rs2 : BitVec 5)
  /-- MOVIA (R60) -/
  | movia (b : IssueS) (rd : BitVec 5) (imm : BitVec 16)
  /-- MOVAD (R60) -/
  | movad (b : IssueS) (rd rs1 : BitVec 5)
  /-- BCC (R66) -/
  | bcc (b : IssueS) (cond : BitVec 4) (rs : BitVec 5) (annul : Bool) (off : BitVec 16)
  /-- CALL (R60) -/
  | call (b : IssueS) (off : BitVec 26)
  /-- JR (R60) -/
  | jr (b : IssueS) (rs1 : BitVec 5)
  /-- CALLR (R60) -/
  | callr (b : IssueS) (rs1 : BitVec 5)
  /-- RFE (R85) -/
  | rfe (b : IssueS)
  /-- LOOP (R69) -/
  | loop (b : IssueS) (level : BitVec 2) (src : Bool) (count : BitVec 10) (fin : BitVec 13)
  /-- REP (R72) -/
  | rep (b : IssueS) (src : Bool) (imm : BitVec 16)
  /-- TRAP (R84) -/
  | trap (b : IssueS) (imm : BitVec 16)
  /-- BREAK (R84) -/
  | brk (b : IssueS)
  /-- CSRR (R55) -/
  | csrr (b : IssueS) (rd : BitVec 5) (csr : BitVec 12)
  /-- CSRW (R54) -/
  | csrw (b : IssueS) (rs : BitVec 5) (csr : BitVec 12)
  /-- CSRRA (R53) -/
  | csrra (b : IssueS) (rd : BitVec 5) (csr : BitVec 12)
  /-- CSRWA (R54) -/
  | csrwa (b : IssueS) (rs : BitVec 5) (csr : BitVec 12)
  /-- LIT (R58) -/
  | lit (b : IssueS) (imm : BitVec 26)
  /-- LD_B (R61) -/
  | ldB (b : IssueM) (r : BitVec 5) (p : AddrOp)
  /-- LD_BU (R61) -/
  | ldBu (b : IssueM) (r : BitVec 5) (p : AddrOp)
  /-- LD_H (R61) -/
  | ldH (b : IssueM) (r : BitVec 5) (p : AddrOp)
  /-- LD_HU (R61) -/
  | ldHu (b : IssueM) (r : BitVec 5) (p : AddrOp)
  /-- LD_W (R61) -/
  | ldW (b : IssueM) (r : BitVec 5) (p : AddrOp)
  /-- LD_A (R61) -/
  | ldA (b : IssueM) (r : BitVec 5) (p : AddrOp)
  /-- LD_D (R61) -/
  | ldD (b : IssueM) (r : BitVec 5) (p : AddrOp)
  /-- ST_B (R61) -/
  | stB (b : IssueM) (r : BitVec 5) (p : AddrOp)
  /-- ST_H (R61) -/
  | stH (b : IssueM) (r : BitVec 5) (p : AddrOp)
  /-- ST_W (R61) -/
  | stW (b : IssueM) (r : BitVec 5) (p : AddrOp)
  /-- ST_A (R61) -/
  | stA (b : IssueM) (r : BitVec 5) (p : AddrOp)
  /-- ST_D (R61) -/
  | stD (b : IssueM) (r : BitVec 5) (p : AddrOp)
  /-- FENCE (R61) -/
  | fence (b : IssueM)
  /-- CPX (R116) -/
  | cpx (b : IssueM) (tag : BitVec 6) (an : BitVec 4) (flag : BitVec 5) (func : BitVec 8) (squashed : Bool)
  /-- VLD_S (R98) -/
  | vldS (b : IssueM) (r : BitVec 5) (p : AddrOp)
  /-- VST_S (R98) -/
  | vstS (b : IssueM) (r : BitVec 5) (p : AddrOp)
  /-- VLD_L (R97) -/
  | vldL (b : IssueM) (vw : View) (r : BitVec 5) (p : AddrOp)
  /-- VLD_LH (R96) -/
  | vldLh (b : IssueM) (vw : View) (r : BitVec 5) (p : AddrOp)
  /-- VLD_UH (R96) -/
  | vldUh (b : IssueM) (vw : View) (r : BitVec 5) (p : AddrOp)
  /-- VST_L (R99) -/
  | vstL (b : IssueM) (vw : View) (r : BitVec 5) (p : AddrOp)
  /-- VST_LH (R96) -/
  | vstLh (b : IssueM) (vw : View) (r : BitVec 5) (p : AddrOp)
  /-- VST_UH (R96) -/
  | vstUh (b : IssueM) (vw : View) (r : BitVec 5) (p : AddrOp)
  /-- VADD_S (R106) -/
  | vaddS (b : IssueV) (vd va vb : BitVec 5)
  /-- VSUB_S (R106) -/
  | vsubS (b : IssueV) (vd va vb : BitVec 5)
  /-- VADDS_S (R106) -/
  | vaddsS (b : IssueV) (vd va vb : BitVec 5)
  /-- VSUBS_S (R106) -/
  | vsubsS (b : IssueV) (vd va vb : BitVec 5)
  /-- VMULH_S (R106) -/
  | vmulhS (b : IssueV) (vd va vb : BitVec 5)
  /-- VSRA_S (R106) -/
  | vsraS (b : IssueV) (vd va vb : BitVec 5) (r : Bool) (imm6 : BitVec 6)
  /-- VSHL_S (R106) -/
  | vshlS (b : IssueV) (vd va vb : BitVec 5) (r : Bool) (imm6 : BitVec 6)
  /-- VMOVS (R106) -/
  | vmovs (b : IssueV) (vd va : BitVec 5) (imm6 : BitVec 6)
  /-- VINS (R106) -/
  | vins (b : IssueV) (vd va : BitVec 5) (imm6 : BitVec 6)
  /-- VBCST_S (R106) -/
  | vbcstS (b : IssueV) (vd va : BitVec 5)
  /-- VBEXP_S (R112) -/
  | vbexpS (b : IssueV) (vd va : BitVec 5)
  /-- VGETC (R106) -/
  | vgetc (b : IssueV) (vd va : BitVec 5) (imm6 : BitVec 6)
  /-- VPUTC (R106) -/
  | vputc (b : IssueV) (vd va : BitVec 5) (imm6 : BitVec 6)
  /-- VADD_H (R106) -/
  | vaddH (b : IssueV) (vd va vb : BitVec 5)
  /-- VSUB_H (R106) -/
  | vsubH (b : IssueV) (vd va vb : BitVec 5)
  /-- VADDS_H (R106) -/
  | vaddsH (b : IssueV) (vd va vb : BitVec 5)
  /-- VSUBS_H (R106) -/
  | vsubsH (b : IssueV) (vd va vb : BitVec 5)
  /-- VADD_W (R106) -/
  | vaddW (b : IssueV) (vd va vb : BitVec 5)
  /-- VSUB_W (R106) -/
  | vsubW (b : IssueV) (vd va vb : BitVec 5)
  /-- VMIN_H (R106) -/
  | vminH (b : IssueV) (vd va vb : BitVec 5)
  /-- VMAX_H (R106) -/
  | vmaxH (b : IssueV) (vd va vb : BitVec 5)
  /-- VAND (R106) -/
  | vand (b : IssueV) (vd va vb : BitVec 5)
  /-- VOR (R106) -/
  | vor (b : IssueV) (vd va vb : BitVec 5)
  /-- VXOR (R106) -/
  | vxor (b : IssueV) (vd va vb : BitVec 5)
  /-- VSRA_H (R107) -/
  | vsraH (b : IssueV) (vd va vb : BitVec 5) (r : Bool) (imm6 : BitVec 6)
  /-- VSHL_H (R107) -/
  | vshlH (b : IssueV) (vd va vb : BitVec 5) (r : Bool) (imm6 : BitVec 6)
  /-- VSRA_W (R107) -/
  | vsraW (b : IssueV) (vd va vb : BitVec 5) (r : Bool) (imm6 : BitVec 6)
  /-- VSHL_W (R107) -/
  | vshlW (b : IssueV) (vd va vb : BitVec 5) (r : Bool) (imm6 : BitVec 6)
  /-- VMULH_H (R106) -/
  | vmulhH (b : IssueV) (vd va vb : BitVec 5)
  /-- VMULW (R106) -/
  | vmulw (b : IssueV) (vd va vb : BitVec 5) (h : Bool)
  /-- VMAC (R108) -/
  | vmac (b : IssueV) (vd va vb : BitVec 5)
  /-- VMSU (R108) -/
  | vmsu (b : IssueV) (vd va vb : BitVec 5)
  /-- VCMAC (R109) -/
  | vcmac (b : IssueV) (vd va vb : BitVec 5) (h c : Bool)
  /-- VCMSU (R109) -/
  | vcmsu (b : IssueV) (vd va vb : BitVec 5) (h c : Bool)
  /-- VDOT8 (R108) -/
  | vdot8 (b : IssueV) (vd va vb : BitVec 5) (c : Bool)
  /-- VCLR (R106) -/
  | vclr (b : IssueV) (vd : BitVec 5)
  /-- VNARROW_H (R110) -/
  | vnarrowH (b : IssueV) (vd va vb : BitVec 5) (h sat r : Bool) (imm6 : BitVec 6)
  /-- VNARROW_W (R110) -/
  | vnarrowW (b : IssueV) (vd va vb : BitVec 5) (sat r : Bool) (imm6 : BitVec 6)
  /-- VPACK (R110) -/
  | vpack (b : IssueV) (vd va vb : BitVec 5) (h sat r : Bool) (imm6 : BitVec 6)
  /-- VBEXP_H (R112) -/
  | vbexpH (b : IssueV) (vd va : BitVec 5) (imm6 : BitVec 6)
  /-- VBEXP_W (R112) -/
  | vbexpW (b : IssueV) (vd va : BitVec 5) (imm6 : BitVec 6)
  /-- VBEXP_A (R112) -/
  | vbexpA (b : IssueV) (vd va : BitVec 5) (imm6 : BitVec 6)
  /-- VCONJ (R106) -/
  | vconj (b : IssueV) (vd va : BitVec 5)
  /-- VSWAP (R106) -/
  | vswap (b : IssueV) (vd va : BitVec 5)
  /-- VMOV (R106) -/
  | vmov (b : IssueV) (vd va : BitVec 5)
  /-- VBCST_H (R106) -/
  | vbcstH (b : IssueV) (vd va : BitVec 5)
  /-- VBCST_W (R106) -/
  | vbcstW (b : IssueV) (vd va : BitVec 5)
  /-- VACCRD (R111) -/
  | vaccrd (b : IssueV) (vd va : BitVec 5) (h : Bool)
  /-- VACCWR (R111) -/
  | vaccwr (b : IssueV) (vd va vb : BitVec 5)
  /-- CACHE_FILL (R237) -/
  | cacheFill (c : CacheId) (a : Addr)
  /-- HALT_REQUEST (R90) -/
  | haltRequest (x : Fin 192)
  /-- DEBUG_RESUME (R90) -/
  | debugResume (x : Fin 192)
  /-- KILL_REQUEST (R90) -/
  | killRequest (x : Fin 192)
  /-- SWITCH_REQUEST (R89) -/
  | switchRequest (x : Fin 192)
  /-- ATTN_REQUEST (R89) -/
  | attnRequest (x : Fin 192)
  /-- ENGINE_COMMAND (R117) -/
  | engineCommand (m : EngMeet)
  /-- CPX_ANSWER (R118) -/
  | cpxAnswer (x : Fin 192)
  /-- COMMIT (R121) -/
  | commit (m : EngMeet)
  /-- CANCEL (R122) -/
  | cancel (m : EngMeet)
  /-- COMMAND_COMPLETE (R124) -/
  | commandComplete (e : EngId)
  /-- ENGINE_IDLE_GATE (R125) -/
  | engineIdleGate (e : EngId)
  /-- CS_DATA_WRITE (R130) -/
  | csDataWrite (req : Requester) (r : Fin 4) (v : Word)
  /-- TCB_START (R134) -/
  | tcbStart (req : Requester) (r : Fin 4) (t : BitVec 10)
  /-- TCB_KILL (R148) -/
  | tcbKill (req : Requester) (r : Fin 4) (t : BitVec 10)
  /-- TCB_RESTART (R134) -/
  | tcbRestart (req : Requester) (r : Fin 4) (t : BitVec 10)
  /-- DPT_POST (R135) -/
  | dptPost (req : Requester) (r : Fin 4) (t : BitVec 10) (flag : BitVec 5)
  /-- THREAD_DISPATCH (R139) -/
  | threadDispatch (r : Fin 4) (upset : Option (BitVec 16 × BitVec 288))
  /-- PREEMPT (R140) -/
  | preempt (r : Fin 4) (upset : Option (BitVec 16 × BitVec 288))
  /-- SHADOW_PRELOAD (R141) -/
  | shadowPreload (r : Fin 4) (c : Fin 48) (upset : Option (BitVec 16 × BitVec 288))
  /-- OP_WAIT (R136) -/
  | opWait (x : Fin 192) (all : Bool)
  /-- OP_WAIT_UNTIL (R134) -/
  | opWaitUntil (x : Fin 192) (all : Bool)
  /-- OP_SLEEP_UNTIL (R134) -/
  | opSleepUntil (x : Fin 192)
  /-- OP_YIELD (R138) -/
  | opYield (x : Fin 192)
  /-- OP_EXIT (R134) -/
  | opExit (x : Fin 192)
  /-- OP_DONE (R146) -/
  | opDone (x : Fin 192) (op : Fin 5) (all : Bool)
  /-- SELF_DL_HI_WRITE (R146) -/
  | selfDlHiWrite (x : Fin 192) (v : Word)
  /-- SELF_LEVEL_WRITE (R138) -/
  | selfLevelWrite (x : Fin 192) (v : Word)
  /-- LOCK_ENTER (R149) -/
  | lockEnter (x : Fin 192) (l : BitVec 8)
  /-- LOCK_RELEASE (R150) -/
  | lockRelease (x : Fin 192) (l : BitVec 8) (n : BitVec 16)
  /-- HELD_RELEASE_PERFORM (R151) -/
  | heldReleasePerform (r : Fin 4) (l : BitVec 8)
  /-- DELAY_ENTRY_DUE (R144) -/
  | delayEntryDue (r : Fin 4)
  /-- DEADLINE_MISS (R146) -/
  | deadlineMiss (r : Fin 4) (t : BitVec 10)
  /-- THREAD_FAULT (R147) -/
  | threadFault (x : Fin 192)
  /-- CORE_EN_WRITE (R160) -/
  | coreEnWrite (req : Requester) (r : Fin 4) (hi : Bool) (v : Word)
  /-- LOCK_CFG_WRITE (R152) -/
  | lockCfgWrite (req : Requester) (r : Fin 4) (l : BitVec 8) (v : Word)
  /-- LOCK_SEQ_WRITE (R159) -/
  | lockSeqWrite (req : Requester) (r : Fin 4) (l : BitVec 8) (v : Word)
  /-- LDPC_ENC (R172) -/
  | ldpcEnc (n : Fin 24)
  /-- LDPC_DEC (R174) -/
  | ldpcDec (n : Fin 24)
  /-- TURBO_ENC (R172) -/
  | turboEnc (r : Fin 4)
  /-- TURBO_DEC (R174) -/
  | turboDec (r : Fin 4)
  /-- POLAR_ENC (R175) -/
  | polarEnc (n : Fin 24)
  /-- POLAR_DEC (R175) -/
  | polarDec (n : Fin 24)
  /-- CRC (R176) -/
  | crcOp (n : Fin 24)
  /-- OFDM_DEMOD (R179) -/
  | ofdmDemod (n : Fin 24)
  /-- OFDM_MOD (R179) -/
  | ofdmMod (n : Fin 24)
  /-- DFT (R179) -/
  | dftOp (n : Fin 24)
  /-- CHEST (R182) -/
  | chest (n : Fin 24)
  /-- EQUALISE (R187) -/
  | equalise (n : Fin 24)
  /-- ENGINE_DISABLE (R168) -/
  | engineDisable (req : Requester) (e : EngId) (started : Option Nat)
  /-- ENGINE_ENABLE (R168) -/
  | engineEnable (req : Requester) (e : EngId) (v : Word)
  /-- STREAM_WRITE (R193) -/
  | streamWrite (req : Requester) (r : Fin 4) (i : BitVec 8) (v : Word)
  /-- HELD_PAGE_WRITE (R196) -/
  | heldPageWrite (r : Fin 4)
  /-- UL_COMBINE (R202) -/
  | ulCombine (r : Fin 4)
  /-- DL_PRECODE (R202) -/
  | dlPrecode (r : Fin 4)
  /-- SRS_EST (R203) -/
  | srsEst (r : Fin 4)
  /-- COV_ACC (R205) -/
  | covAcc (r : Fin 4)
  /-- WEIGHT_SOLVE (R206) -/
  | weightSolve (r : Fin 4)
  /-- WCOPY (R207) -/
  | wcopy (r : Fin 4)
  /-- BFA_POST (R207) -/
  | bfaPost (r : Fin 4)
  /-- BFA_NOP (R199) -/
  | bfaNop (r : Fin 4)
  /-- BFA_OP_COMPLETE (R200) -/
  | bfaOpComplete (r : Fin 4)
  /-- SEQ_START (R210) -/
  | seqStart (req : Requester) (r : Fin 4) (h : Fin 4)
  /-- SEQ_STOP (R212) -/
  | seqStop (req : Requester) (r : Fin 4) (h : Fin 4)
  /-- IMM_OP (R213) -/
  | immOp (req : Requester) (r : Fin 4) (e : BitVec 9)
  /-- CELL_ACTIVATE (R208) -/
  | cellActivate (req : Requester) (r : Fin 4) (c : Fin 16)
  /-- FORCE_COLD_UL (R208) -/
  | forceColdUl (req : Requester) (r : Fin 4) (c : Fin 16)
  /-- FORCE_COLD_DL (R208) -/
  | forceColdDl (req : Requester) (r : Fin 4) (c : Fin 16)
  /-- CELL_CFG_WRITE (R208) -/
  | cellCfgWrite (req : Requester) (r : Fin 4) (c : Fin 16) (w : Fin 3) (v : Word)
  /-- BFA_DISABLE (R216) -/
  | bfaDisable (req : Requester) (r : Fin 4) (v : BfaStop)
  /-- BFA_ENABLE (R216) -/
  | bfaEnable (req : Requester) (r : Fin 4) (v : Word)
  /-- BURST_RX (R224) -/
  | burstRx (r : Fin 4)
  /-- BURST_TX (R228) -/
  | burstTx (r : Fin 4)
  /-- RD (R260) -/
  | rdReq (hdr : BitVec 128)
  /-- WR (R260) -/
  | wrReq (hdr : BitVec 128)
  /-- RD_DATA (R260) -/
  | rdData (hdr : BitVec 128)
  /-- WR_ACK (R260) -/
  | wrAck (hdr : BitVec 128)
  /-- SCRUB_READ (R248) -/
  | scrubRead (m : ScrubId)
  /-- POOL_INIT (R245) -/
  | poolInit (req : Requester) (n : Fin 24) (banks : BitVec 16)
  /-- POOL_INIT_DONE (R245) -/
  | poolInitDone (n : Fin 24) (b : Fin 16)
  /-- POISON_WRITE (R245) -/
  | poisonWrite (req : Requester) (n : Option (Fin 24)) (hi : Byte)
  /-- RSV_INIT_DONE (R245) -/
  | rsvInitDone (i : Fin 2)
  /-- STACK_WAKE (R251) -/
  | stackWake (i : Fin 2)
  /-- FLIP_ARM (R253) -/
  | flipArm (req : Requester) (n : Option (Fin 24)) (v : Word)
  /-- FLIP_DISARM (R253) -/
  | flipDisarm (req : Requester) (n : Option (Fin 24)) (v : Word)
  /-- REQUEST_SEND (R266) -/
  | requestSend (req : Requester) (wr : Bool) (tid : BitVec 10) (a : Addr) (len : Fin 257) (data : List Byte) (m0 m1 : Byte)
  /-- RESPONSE_TIMEOUT (R266) -/
  | responseTimeout (init : Fin 38) (tid : BitVec 10)
  /-- ENDPOINT_FENCE (R269) -/
  | endpointFence (e : Fin 38)
  /-- FENCE_COMPLETE (R269) -/
  | fenceComplete (e : Fin 38)
  /-- ENDPOINT_REOPEN (R269) -/
  | endpointReopen (e : Fin 38)
  /-- GRANT_WRITE (R265) -/
  | grantWrite (req : Requester) (k : Fin 38 ⊕ Fin 64) (v : Word)
  /-- PLAN_VALIDATE (R270) -/
  | planValidate (req : Requester) (p : Fin 8) (ranges : BitVec 4)
  /-- PLAN_CHECK_END (R270) -/
  | planCheckEnd (p : Fin 7)
  /-- FLIP_REQUEST (R271) -/
  | flipRequest (r : Fin 4)
  /-- FLIP_SIGNAL (R271) -/
  | flipSignal
  /-- NI_FLIP_CONFIRM (R271) -/
  | niFlipConfirm (e : Fin 38)
  /-- FLIP_COMPLETE (R271) -/
  | flipComplete (pause : Word)
  /-- ROUTER_CLOSE (R273) -/
  | routerClose (n : Fin 36)
  /-- LINK_TRAINING_DONE (R273) -/
  | linkTrainingDone (n : Fin 36)
  /-- LINK_REPLAY (R275) -/
  | linkReplay (l : Fin 72) (failed : Bool)
  /-- DOORBELL (R282) -/
  | doorbell (req : Requester) (f : FlumeId) (count : BitVec 16)
  /-- DESCRIPTOR_FETCH (R282) -/
  | descriptorFetch (f : FlumeId)
  /-- DESCRIPTOR_RETURN (R297) -/
  | descriptorReturn (f : FlumeId)
  /-- BURST_START (R285) -/
  | burstStart (f : FlumeId)
  /-- BURST_ACK (R291) -/
  | burstAck (f : FlumeId)
  /-- WRITEBACK (R290) -/
  | writeback (f : FlumeId)
  /-- WRITEBACK_ACK (R290) -/
  | writebackAck (f : FlumeId)
  /-- FLUME_DISABLE (R293) -/
  | flumeDisable (req : Requester) (f : FlumeId) (v : Word)
  /-- FLUME_ENABLE (R293) -/
  | flumeEnable (req : Requester) (f : FlumeId) (v : Word)
  /-- FLUME_CFG_WRITE (R293) -/
  | flumeCfgWrite (req : Requester) (f : FlumeId) (k : Fin 5) (v : Word)
  /-- RATE_WRITE (R303) -/
  | rateWrite (req : Requester) (l : Fin 96) (v : Word)
  /-- FAMILY_WRITE (R303) -/
  | familyWrite (req : Requester) (q : Fin 24) (v : Word)
  /-- QUAD_PLL_UNLOCK (R304) -/
  | quadPllUnlock (q : Fin 24) (loss : PllLoss)
  /-- QUAD_PLL_RELOCK (R304) -/
  | quadPllRelock (q : Fin 24) (cpri : Bool)
  /-- SYMBOL_RECEIVE (R306) -/
  | symbolReceive (l : Fin 96) (bits : BitVec 10)
  /-- BLOCK_RECEIVE (R307) -/
  | blockReceive (l : Fin 96) (hdr : BitVec 2)
  /-- TXEQ_WRITE (R309) -/
  | txeqWrite (req : Requester) (l : Fin 96) (v : Word)
  /-- ADAPT_DONE (R310) -/
  | adaptDone (l : Fin 96) (val0 val1 : Word)
  /-- ADAPT_FAIL (R310) -/
  | adaptFail (l : Fin 96)
  /-- SIG_DET_FALL (R312) -/
  | sigDetFall (l : Fin 96)
  /-- SIG_DET_RISE (R312) -/
  | sigDetRise (l : Fin 96)
  /-- PRBS_LOCK (R314) -/
  | prbsLock (l : Fin 96)
  /-- PRBS_LOCK_LOST (R314) -/
  | prbsLockLost (l : Fin 96)
  /-- PRBS_CLEAR (R314) -/
  | prbsClear (req : Requester) (l : Fin 96) (v : Word)
  /-- LANE_COUNTER_CLEAR (R319) -/
  | laneCounterClear (req : Requester) (l : Fin 96)
  /-- LANE_PWR_REQ (R316) -/
  | lanePwrReq (req : Requester) (l : Fin 96) (state : BitVec 2)
  /-- LANE_PWR_TRANSITION_DONE (R317) -/
  | lanePwrTransitionDone (l : Fin 96)
  /-- USER_BIND_WRITE (R320) -/
  | userBindWrite (req : Requester) (h : Fin 4) (k : Fin 6) (i : BitVec 9) (v : Word)
  /-- FRAME_RECEIVE (R322) -/
  | frameReceive (h : Fin 4) (p : Fin 24) (frame : List Byte) (ts tend : Time)
  /-- SCHEDULE_ENABLE (R330) -/
  | scheduleEnable (req : Requester) (h : Fin 4) (i : Fin 16) (v : Word)
  /-- UPLANE_TRANSMIT (R330) -/
  | uplaneTransmit (h : Fin 4) (i : Fin 256)
  /-- RXQ_WINDOW_READ (R331) -/
  | rxqWindowRead (h : Fin 4) (k : Fin 16) (n : Fin 257)
  /-- TXQ_WINDOW_WRITE (R331) -/
  | txqWindowWrite (h : Fin 4) (k : Fin 16) (data : List Byte)
  /-- TX_RECORD_SEND (R332) -/
  | txRecordSend (h : Fin 4) (k : Fin 16)
  /-- CPRI_HYPERFRAME_RX (R334) -/
  | cpriHyperframeRx (h : Fin 4) (k : Fin 12) (start : Bool) (data : List Byte) (delay : Nat)
  /-- CPRI_HYPERFRAME_TX (R334) -/
  | cpriHyperframeTx (h : Fin 4) (k : Fin 12)
  /-- TRUNK_LANE_FRAME_RX (R337) -/
  | trunkLaneFrameRx (h : Fin 4) (j : Fin 24) (time : Nat) (overhead : List (BitVec 9))
  /-- TRUNK_FRAME_TX (R339) -/
  | trunkFrameTx (h : Fin 4) (g : Fin 24)
  /-- TRUNK_CELL_RX (R340) -/
  | trunkCellRx (h : Fin 4) (j : Fin 24) (cell : List (BitVec 9))
  /-- TRUNK_GROUP_EN_WRITE (R342) -/
  | trunkGroupEnWrite (req : Requester) (h : Fin 4) (g : Fin 24) (v : Word)
  /-- SLUICE_EVALUATE (R350) -/
  | sluiceEvaluate (i : Fin 32)
  /-- DOZE_ENTRY (R351) -/
  | dozeEntry (i : Fin 32)
  /-- PREPARE (R355) -/
  | prepare (d : Fin 62)
  /-- VOTE (R355) -/
  | vote (d : Fin 62) (voter : Fin 16)
  /-- VOTE_TIMEOUT (R355) -/
  | voteTimeout (d : Fin 62) (voter : Fin 16)
  /-- DOMAIN_ENTRY_COMPLETE (R357) -/
  | domainEntryComplete (d : Fin 62)
  /-- SLUICE_RETRY (R356) -/
  | sluiceRetry (d : Fin 62)
  /-- DEMAND_WAKE (R354) -/
  | demandWake (d : Fin 62)
  /-- DOMAIN_WAKE (R359) -/
  | domainWake (d : Fin 62)
  /-- DOMAIN_EXIT_COMPLETE (R359) -/
  | domainExitComplete (d : Fin 62)
  /-- BFA_CLEAR_DONE (R360) -/
  | bfaClearDone (r : Fin 4)
  /-- CONTEXT_STORE_CLEAR_DONE (R360) -/
  | contextStoreClearDone (r : Fin 4)
  /-- FORCE_WRITE (R349) -/
  | forceWrite (req : Requester) (d : Fin 62) (v : Word)
  /-- RANGE_PLL_LOCK (R361) -/
  | rangePllLock (r : Fin 4)
  /-- CLOCK_SEL_WRITE (R361) -/
  | clockSelWrite (req : Requester) (r : Fin 4) (v : Word)
  /-- CLOCK_SWITCH_DONE (R361) -/
  | clockSwitchDone (r : Fin 4)
  /-- RETENTION_BROWNOUT (R363) -/
  | retentionBrownout (n : Fin 24) (banks : BitVec 16)
  /-- THROTTLE_APPLY (R367) -/
  | throttleApply
  /-- THROTTLE_REMOVE (R367) -/
  | throttleRemove
  /-- STACK_IDLE_SLEEP (R366) -/
  | stackIdleSleep (i : Fin 2)
  /-- HUB_LIMIT_WRITE (R365) -/
  | hubLimitWrite (req : Requester) (h : Fin 4) (hi : Bool) (v : Word)
  /-- PORST_ASSERT (R445) -/
  | porstAssert
  /-- PORST_RELEASE (R370) -/
  | porstRelease (straps : BitVec 3) (flash cool : Bool)
  /-- SYSRST_ASSERT (R445) -/
  | sysrstAssert
  /-- SYSRST_RELEASE (R370) -/
  | sysrstRelease (flash : Bool)
  /-- SIGNATURE_CHECK (R380) -/
  | signatureCheck
  /-- SUMMIT_START (R382) -/
  | summitStart (listed : Bool) (mbx : BitVec 22) (h2s s2h : Fin 5)
  /-- BOOT_READY (R378) -/
  | bootReady (fail : Option Bool) (trim night : BitVec 4)
  /-- CAP_START (R384) -/
  | capStart
  /-- FUSE_REVOKE (R381) -/
  | fuseRevoke (req : Requester) (keys : BitVec 4)
  /-- BOOT_MODE_WRITE (R385) -/
  | bootModeWrite (req : Requester) (v : Word)
  /-- MODE_REACHED (R387) -/
  | modeReached
  /-- STANDBY_WAKE (R387) -/
  | standbyWake (m : Fin 3)
  /-- SUMMIT_WATCHDOG_EXPIRY (R394) -/
  | summitWatchdogExpiry
  /-- GET_STATUS (R424) -/
  | getStatus
  /-- SET_MODE (R387) -/
  | setMode
  /-- IMAGE_UPDATE (R388) -/
  | imageUpdate (listed readOk : Bool)
  /-- SLOT_INVALIDATE (R424) -/
  | slotInvalidate
  /-- LINK_XFER (R425) -/
  | linkXfer (status : Fin 6) (data : List Byte)
  /-- SENSOR_READ (R424) -/
  | sensorRead
  /-- LINK_TEST (R424) -/
  | linkTest
  /-- H2S_DOORBELL (R423) -/
  | h2sDoorbell (req : Requester) (prod : BitVec 16)
  /-- S2H_DOORBELL (R423) -/
  | s2hDoorbell (req : Requester) (prod : BitVec 16)
  /-- DAC_IN_WRITE (R396) -/
  | dacInWrite (req : Requester) (c : Fin 8) (code : BitVec 16)
  /-- DAC_STROBE (R396) -/
  | dacStrobe (req : Requester) (groups : BitVec 4)
  /-- DAC_LOAD_EDGE (R396) -/
  | dacLoadEdge
  /-- DAC_QUEUE_STEP (R397) -/
  | dacQueueStep (c : Fin 8)
  /-- DAC_QSTOP (R398) -/
  | dacQstop (req : Requester) (c : Fin 8)
  /-- DAC_QCFG_WRITE (R398) -/
  | dacQcfgWrite (req : Requester) (c : Fin 8) (period : Bool) (v : Word)
  /-- DEGLITCH_HOLD_END (R399) -/
  | deglitchHoldEnd (c : Fin 8)
  /-- DAC_RANGE_WRITE (R400) -/
  | dacRangeWrite (req : Requester) (c : Fin 8) (range : Bool)
  /-- RANGE_HOLD_END (R400) -/
  | rangeHoldEnd (c : Fin 8)
  /-- DAC_OUT_EN_WRITE (R392) -/
  | dacOutEnWrite (req : Requester) (c : Fin 8) (en : Bool)
  /-- DAC_FORCE_SAFE (R394) -/
  | dacForceSafe (req : Requester) (chans : BitVec 8)
  /-- DAC_RESUME (R395) -/
  | dacResume (req : Requester) (c : Fin 8)
  /-- VDDA_HK_BROWNOUT (R394) -/
  | vddaHkBrownout
  /-- TONE_FTW_WRITE (R401) -/
  | toneFtwWrite (req : Requester) (v : Word)
  /-- TONE_STEP (R401) -/
  | toneStep
  /-- ADC_CONVERSION (R405) -/
  | adcConversion (a : Fin 2) (code : BitVec 12)
  /-- ADC_URGENT (R405) -/
  | adcUrgent (req : Requester) (a : Fin 2) (input : BitVec 5)
  /-- ADC_REF_WRITE (R404) -/
  | adcRefWrite (req : Requester) (a : Fin 2) (v : Word)
  /-- REF_SETTLED (R404) -/
  | refSettled (a : Fin 2)
  /-- EVENT_DELIVERY (R411) -/
  | eventDelivery
  /-- ROUTE_WRITE (R412) -/
  | routeWrite (req : Requester) (i : BitVec 11) (v : Word)
  /-- SWEVT (R416) -/
  | swevt (req : Requester) (v : Word)
  /-- EVENT_COUNT_CLEAR (R426) -/
  | eventCountClear (req : Requester)
  /-- MSIX_UNMASK (R414) -/
  | msixUnmask (f : Fn) (v : BitVec 11)
  /-- HOST_MEMORY_READ (R420) -/
  | hostMemoryRead (f : Fn) (bar : Fin 6) (off : Addr) (n : Fin 4097)
  /-- HOST_MEMORY_WRITE (R420) -/
  | hostMemoryWrite (f : Fn) (bar : Fin 6) (off : Addr) (data : List Byte)
  /-- HOST_REQUEST_TIMEOUT (R420) -/
  | hostRequestTimeout (init : Fin 38) (tid : BitVec 10)
  /-- FLR (R422) -/
  | flr (f : Fn)
  /-- FLR_COMPLETE (R422) -/
  | flrComplete (f : Fn)
  /-- PCIE_PERST (R418) -/
  | pciePerst
  /-- PCIE_LINK_CHANGE (R417) -/
  | pcieLinkChange (up : Bool) (width : Fin 17) (speed : Fin 6)
  /-- MSIX_SIZE_WRITE (R421) -/
  | msixSizeWrite (req : Requester) (f : Fn) (v : Word)
  /-- SUPPLY_BROWNOUT (R434) -/
  | supplyBrownout
  /-- THERM_TRIP (R444) -/
  | thermTrip
  /-- CDR_LOCK_GAINED (R315) -/
  | cdrLockGained (l : Fin 96)
  /-- CDR_LOCK_LOST (R306) -/
  | cdrLockLost (l : Fin 96)
  /-- TB_PLL_RELOCK (R24) -/
  | tbPllRelock
  /-- SUPPLY_RECOVERY (R434) -/
  | supplyRecovery (straps : BitVec 3) (flash : Bool)
  /-- VDDA_HK_RECOVERY (R395) -/
  | vddaHkRecovery
  /-- PCIE_CONFIG_WRITE (R418) -/
  | pcieConfigWrite (f : Fn) (bme msixEn maskAll vfEn : Bool) (numVfs : BitVec 8)
  /-- PRBS_BIT_ERROR (R314) -/
  | prbsBitError (l : Fin 96)
  deriving DecidableEq, Repr

end Sys2Proof
end

