-- ==== Sys2Proof/Machine/Bits.lean ====
section
/-! DEFINITION. Bit fields, sign extension, saturation and byte order: the helpers every unit shares.
A field spanning bits m down to n is written m:n (00_scope.md R4). -/

namespace Sys2Proof.Machine

/-- Field hi:lo of a word, as a number (R4). -/
def fld {w : Nat} (v : BitVec w) (hi lo : Nat) : Nat := (v.toNat >>> lo) % 2 ^ (hi + 1 - lo)

/-- Bit i of a word (R4). -/
def bit {w : Nat} (v : BitVec w) (i : Nat) : Bool := v.toNat.testBit i

/-- The word with field hi:lo replaced by the low bits of x (R4). -/
def setFld {w : Nat} (v : BitVec w) (hi lo : Nat) (x : Nat) : BitVec w :=
  let m : BitVec w := BitVec.ofNat w ((2 ^ (hi + 1 - lo) - 1) <<< lo)
  (v &&& ~~~m) ||| (BitVec.ofNat w ((x % 2 ^ (hi + 1 - lo)) <<< lo))

/-- The word with bit i replaced by b (R4). -/
def setBit {w : Nat} (v : BitVec w) (i : Nat) (b : Bool) : BitVec w := setFld v i i b.toNat

/-- A number below 2^n read as a two's-complement value of n bits. -/
def sext (n : Nat) (v : Nat) : Int :=
  if 2 * (v % 2 ^ n) < 2 ^ n then Int.ofNat (v % 2 ^ n) else Int.ofNat (v % 2 ^ n) - Int.ofNat (2 ^ n)

/-- The two's-complement bits of an integer, in w bits. -/
def ofInt (w : Nat) (i : Int) : BitVec w := BitVec.ofInt w i

/-- The integer clamped to the signed range of n bits. -/
def satS (n : Nat) (i : Int) : Int :=
  if i < -(2 ^ (n - 1) : Int) then -(2 ^ (n - 1) : Int)
  else if (2 ^ (n - 1) : Int) - 1 < i then (2 ^ (n - 1) : Int) - 1 else i

/-- A counter of w bits that stops at its greatest value. -/
def satAdd {w : Nat} (c : BitVec w) (n : Nat) : BitVec w :=
  if c.toNat + n < 2 ^ w then BitVec.ofNat w (c.toNat + n) else BitVec.ofNat w (2 ^ w - 1)

/-- Bytes of a number, lowest first (R4: the lowest address holds the low bits). -/
def toBytes : Nat → Nat → List Byte
  | 0, _ => []
  | n + 1, v => BitVec.ofNat 8 v :: toBytes n (v / 256)

/-- The number a list of bytes spells, lowest byte first (R4). -/
def ofBytes : List Byte → Nat
  | [] => 0
  | b :: bs => b.toNat + 256 * ofBytes bs

/-- The least multiple of m that is not below x, as a count of steps of m from x. -/
def ceilDiv (x m : Nat) : Nat := (x + m - 1) / m

end Sys2Proof.Machine
end

