-- ==== Sys2Proof/Machine/Coding.lean ====
section
/-! DEFINITION. Line coding and check sums: the 8b/10b code of IEEE 802.3 clause 36 (13_fronthaul_lanes.md R305), the CRC-16 of
10_memory_protection.md R237, and the Ethernet frame check sequence. -/

namespace Sys2Proof.Machine

/-- 5b/6b codes for negative running disparity, D.0 to D.31, written abcdei (clause 36). -/
def code6 : List Nat :=
  [0b100111, 0b011101, 0b101101, 0b110001, 0b110101, 0b101001, 0b011001, 0b111000,
   0b111001, 0b100101, 0b010101, 0b110100, 0b001101, 0b101100, 0b011100, 0b010111,
   0b011011, 0b100011, 0b010011, 0b110010, 0b001011, 0b101010, 0b011010, 0b111010,
   0b110011, 0b100110, 0b010110, 0b110110, 0b001110, 0b101110, 0b011110, 0b101011]

/-- 3b/4b codes for negative running disparity, D.x.0 to D.x.7, written fghj (clause 36). -/
def code4 : List Nat := [0b1011, 0b1001, 0b0101, 0b1100, 0b1101, 0b1010, 0b0110, 0b1110]

/-- Ones of a number of n bits. -/
def ones (n v : Nat) : Nat := ((List.range n).filter v.testBit).length

/-- A sub-block for a running disparity: the code for RD−, complemented for RD+ where its ones and zeros differ or it is
one of the two balanced codes that alternate. Answers the code and the disparity after it. -/
def subBlock (n c : Nat) (alt rdPos : Bool) : Nat × Bool :=
  let bal := decide (2 * ones n c = n)
  (if rdPos && (!bal || alt) then 2 ^ n - 1 - c else c, if bal then rdPos else !rdPos)

/-- The ten-bit code abcdei fghj of a data byte, a in bit 9, and the disparity after it. -/
def encD (b : Nat) (rdPos : Bool) : Nat × Bool :=
  let x := b % 32
  let y := b / 32
  let s := subBlock 6 (code6.getD x 0) (x = 7) rdPos
  let a7 := y = 7 ∧ ((!s.2 ∧ (x = 17 ∨ x = 18 ∨ x = 20)) ∨ (s.2 ∧ (x = 11 ∨ x = 13 ∨ x = 14)))
  let f := subBlock 4 (if a7 then 0b0111 else code4.getD y 0) (y = 3) s.2
  (s.1 * 16 + f.1, f.2)

/-- Special codes for RD−: byte and ten bits (clause 36). -/
def kCodes : List (Nat × Nat) :=
  [(0x1C, 0b0011110100), (0x3C, 0b0011111001), (0x5C, 0b0011110101), (0x7C, 0b0011110011),
   (0x9C, 0b0011110010), (0xBC, 0b0011111010), (0xDC, 0b0011110110), (0xFC, 0b0011111000),
   (0xF7, 0b1110101000), (0xFB, 0b1101101000), (0xFD, 0b1011101000), (0xFE, 0b0111101000)]

/-- The ten-bit code of a special byte, and the disparity after it. -/
def encK (c : Nat) (rdPos : Bool) : Nat × Bool :=
  (if rdPos then 1023 - c else c, if ones 10 c = 5 then rdPos else !rdPos)

/-- A received symbol for a running disparity: K flag and byte, and the disparity after it. -/
def dec10At (sym : Nat) (rdPos : Bool) : Option ((Bool × Nat) × Bool) :=
  match (List.range 256).find? (fun b => (encD b rdPos).1 = sym) with
  | some b => some ((false, b), (encD b rdPos).2)
  | none => match kCodes.find? (fun k => (encK k.2 rdPos).1 = sym) with
    | some k => some ((true, k.1), (encK k.2 rdPos).2)
    | none => none

/-- A received symbol (R305): its byte where the code table has it; `bad`: invalid; `disp`: valid code of the wrong disparity;
the running disparity after it. -/
structure Received where
  sym : Option (Bool × Nat)
  bad : Bool
  disp : Bool
  rdPos : Bool
  deriving DecidableEq, Repr

/-- Decode of one symbol under the receiver's running disparity (R305). -/
def receive10 (sym : Nat) (rdPos : Bool) : Received :=
  match dec10At sym rdPos with
  | some (x, rd) => ⟨some x, false, false, rd⟩
  | none => match dec10At sym (!rdPos) with
    | some (x, rd) => ⟨some x, true, true, rd⟩
    | none => ⟨none, true, false, rdPos⟩

/-- The seven bits, first in bit 6, are a comma (R305). -/
def isComma (v : Nat) : Bool := v = 0b0011111 || v = 0b1100000

/-- One bit into a CRC-16 remainder: x^16 + x^12 + x^5 + 1 (R237). -/
def crc16Bit (c : Nat) (b : Bool) : Nat :=
  let t := (c / 32768) % 2 != b.toNat
  (c * 2 % 65536) ^^^ (if t then 0x1021 else 0)

/-- A byte into a CRC-16 remainder, most significant bit first (R237). -/
def crc16Byte (c : Nat) (b : Byte) : Nat :=
  [7, 6, 5, 4, 3, 2, 1, 0].foldl (fun c i => crc16Bit c (bit b i)) c

/-- CRC-16 of bytes from an initial value (R237: 0xFFFF). -/
def crc16From (init : Nat) (l : List Byte) : Nat := l.foldl crc16Byte init

/-- CRC-16 of bytes (R237). -/
def crc16 (l : List Byte) : Nat := crc16From 0xFFFF l

/-- A byte into the reflected CRC-32 of IEEE 802.3. -/
def crc32Byte (c : Nat) (b : Byte) : Nat :=
  (List.range 8).foldl (fun c _ => if c % 2 = 1 then (c / 2) ^^^ 0xEDB88320 else c / 2) (c ^^^ b.toNat)

/-- Frame check sequence of IEEE 802.3, as the number whose lowest byte is sent first (14_fronthaul_framing.md R321). -/
def fcs (l : List Byte) : Nat := (l.foldl crc32Byte 0xFFFFFFFF) ^^^ 0xFFFFFFFF

end Sys2Proof.Machine
end

