-- ==== Sys2Proof/Config.lean ====
section
/-! DEFINITION. What the spec leaves open and the machine goes on with: free values. Each is a constant without a body, so that
nothing can be proved of its value; a claim holds whatever it is. -/

namespace Sys2Proof.Config

/-- Words of the plan memories 0 to 6 after a reset (11_leat_fabric.md R270): by the count of free values, and address. -/
opaque planWord : Nat → Nat → Word

/-- Identifier by which TB_TREE_LASTERR names a replica (02_device_time.md R50): the numbering is not given. -/
opaque replicaIdent : Nat → BitVec 12

/-- Latency in UI from the receive ball to the aligned output, by rate and alignment position (13_fronthaul_lanes.md R308). -/
opaque rxLatency : Nat → Nat → BitVec 16

/-- A value that the spec does not state, where the machine goes on: by the count of free values drawn, and its place among
the values of one draw. -/
opaque freeNat : Nat → Nat → Nat

/-- A result whose arithmetic the spec gives only up to its rounding, scaling or algorithm: by the function's number, its
parameters, its operand bytes and the place of the value in the result. -/
opaque numeric : Nat → List Int → List Byte → Nat → Nat

/-! Tables of the standards that the spec cites and does not print, and details that it leaves to the engine. -/

/-- Shift of the base-graph entry at a row and column, by base graph and set index; none: no entry (TS 38.212 tables 5.3.2-2,
5.3.2-3; 07_ridge_engines.md R170). -/
opaque ldpcShift : Nat → Nat → Nat → Nat → Option Nat

/-- f1 and f2 of the turbo interleaver, by block size (TS 36.212 table 5.1.3-3; R170). -/
opaque qpp : Nat → Nat × Nat

/-- Polar reliability sequence, least reliable first (TS 38.212 table 5.3.1.2-1; R175). -/
opaque polarSeq : Nat → Nat

/-- Polar input interleaver (TS 38.212 table 5.3.1.1-1; R175). -/
opaque polarIl : Nat → Nat

/-- QM = 1 is π/2-BPSK, TS 38.211 clause 5.1.1, and not the BPSK of clause 5.1.2 (R172 names the clause of both). -/
opaque halfPiBpsk : Bool

/-- Weights of the 3-tap smoothing of CHEST (R181): of the pilot before, the pilot itself, the pilot after. -/
opaque smoothTap : Nat → Nat

/-- Of two pilot symbols at the same distance the later one counts as nearest (R181). -/
opaque nearestLater : Bool

/-- Accumulated frequency pulse of a burst, in units of 2^-32 of its end value: by BT × 100, samples per symbol, and the sample
counted from the symbol's start; the spec gives neither truncation nor delay of the Gaussian filter (09_narrowband_engines.md R222). -/
opaque gaussPulse : Nat → Nat → Int → Nat

end Sys2Proof.Config
end

