-- ==== Sys2Proof/Machine/TarnTypes.lean ====
section
/-! DEFINITION. What one Tarn core holds (03_tarn_scalar.md R51 to R53, 04_tarn_vector.md R91) and the decoded form of a bundle
(R56 to R61, R96, R105, R106). -/

namespace Sys2Proof.Machine

/-- Mnemonics of the S slots (R60); `illegal` stands for a word that R57 calls illegal. -/
inductive SMn
  | nop | add | sub | and | or | xor | shl | shr | sra | cmpeq | cmplt | cmpltu | min | max | adds | subs | abs
  | mul | mulh | mac | msu | ext | exts | exp | expa | norm | lda | movda | setcb | setcl | rdcb | rdcl
  | addi | andi | ori | xori | shli | shri | srai | cmpeqi | cmplti | movi | movhi | adda | addc | addar | movia | movad
  | bcc | call | jr | callr | rfe | loop | rep | trap | brk | csrr | csrw | csrra | csrwa | lit | illegal
  deriving DecidableEq, Repr

/-- A decoded S-slot instruction: the fields of its format (R59); fields a format lacks are 0. -/
structure SIns where
  mn : SMn := .nop
  rd : BitVec 5 := 0
  rs1 : BitVec 5 := 0
  rs2 : BitVec 5 := 0
  sh : BitVec 5 := 0
  /-- imm16, off16, off26, the upper immediate of lit, the count of loop and rep, or the CSR number -/
  imm : BitVec 26 := 0
  /-- end field of loop -/
  fin : BitVec 13 := 0
  /-- cond of a branch, level of loop -/
  cond : BitVec 4 := 0
  /-- annul bit of a branch, SRC of loop and rep -/
  flag : Bool := false
  deriving DecidableEq, Repr

/-- Mnemonics of the M slot (R61, R96). -/
inductive MMn
  | nop | ldb | ldbu | ldh | ldhu | ldw | lda | ldd | stb | sth | stw | sta | std | cpx | fence
  | vlds | vsts | vldl | vldlh | vlduh | vstl | vstlh | vstuh | illegal
  deriving DecidableEq, Repr

/-- A decoded M-slot instruction. -/
structure MIns where
  mn : MMn := .nop
  /-- rd or source -/
  r : BitVec 5 := 0
  an : BitVec 4 := 0
  mode : BitVec 3 := 0
  imm : BitVec 14 := 0
  /-- bytes of an element of a vector access (R96) -/
  ebytes : Nat := 1
  /-- fields of cpx (R114) -/
  tag : BitVec 6 := 0
  flag : BitVec 5 := 0
  func : BitVec 8 := 0
  deriving DecidableEq, Repr

/-- Mnemonics of the V slot (R106). -/
inductive VMn
  | nop | vadds_ | vsubs_ | vaddss | vsubss | vmulhs | vsras | vshls | vmovs | vins | vbcsts | vbexps | vgetc | vputc
  | vaddh | vsubh | vaddsh | vsubsh | vaddw | vsubw | vminh | vmaxh | vand | vor | vxor
  | vsrah | vsraw | vshlh | vshlw | vmulhh | vmulw | vmac | vmsu | vcmac | vcmsu | vdot8 | vclr
  | vnarrowh | vnarroww | vpack | vbexph | vbexpw | vbexpa | vconj | vswap | vmov | vbcsth | vbcstw | vaccrd | vaccwr
  | illegal
  deriving DecidableEq, Repr

/-- A decoded V-slot instruction (R105). -/
structure VIns where
  mn : VMn := .nop
  vd : BitVec 5 := 0
  va : BitVec 5 := 0
  vb : BitVec 5 := 0
  h : Bool := false
  s : Bool := false
  c : Bool := false
  r : Bool := false
  imm6 : BitVec 6 := 0
  deriving DecidableEq, Repr

/-- A decoded bundle (R56). -/
structure Bundle where
  s0 : SIns := {}
  s1 : SIns := {}
  m : MIns := {}
  v : VIns := {}
  deriving DecidableEq, Repr

/-- Where a control transfer stands (R66, R68): its next delay slot, and what follows the second. -/
structure Delay where
  /-- delay slot of the bundle now to issue, 1 or 2 -/
  slot : Nat
  taken : Bool
  target : BitVec 40
  /-- the slots have no effect -/
  annul : Bool
  /-- the transfer is an rfe: tc.estatus and tc.etarget as it found them (R85, R88) -/
  rfe : Option (Word × BitVec 40)
  deriving DecidableEq, Repr

/-- What S0 of a bundle has asked of program flow, once its long-vector access completes (R82, R102): a transfer's delay slots, a skip of
so many bundles by a loop, a repeat of the next bundle tc.rc times. -/
inductive After
  | delay (d : Delay)
  | skip (n : Nat)
  | rep
  deriving DecidableEq, Repr

/-- A long-vector access that failed in a later beat, as its first execution gave it (R102, R103): the bundle, the address and pointer
used, the register's update, whether the pointer was out of range, and what S0 asked of program flow. -/
structure Late where
  pc : BitVec 40
  addr : BitVec 40
  ptr : BitVec 40
  update : Option (BitVec 40)
  out : Bool
  after : Option After
  deriving DecidableEq, Repr

/-- The banked state of a core (R51, R91). Its reset value is the model's choice (assumption 3): R52 gives none. -/
structure Bank where
  d : Vector Word 32 := Vector.replicate 32 0
  acc : Vector (BitVec 40) 4 := Vector.replicate 4 0
  a : Vector (BitVec 40) 16 := Vector.replicate 16 0
  cb : Vector (BitVec 40) 8 := Vector.replicate 8 0
  cl : Vector (BitVec 24) 8 := Vector.replicate 8 0
  pc : BitVec 40 := 0
  status : Word := 1
  amode : BitVec 8 := 0
  ls : Vector (BitVec 40) 3 := Vector.replicate 3 0
  le : Vector (BitVec 40) 3 := Vector.replicate 3 0
  lc : Vector Word 3 := Vector.replicate 3 0
  rc : BitVec 16 := 0
  vxi : BitVec 7 := 0
  sv : Vector (BitVec 128) 16 := Vector.replicate 16 0
  lv : Vector (BitVec 1024) 8 := Vector.replicate 8 0
  vacc : Vector (BitVec 1536) 4 := Vector.replicate 4 0
  /-- the access that the bundle at tc.epc resumes; no frame holds it (assumption 22) -/
  late : Option Late := none
  deriving DecidableEq, Repr

/-- A register whose writes reach later bundles after a latency (R62, R95). -/
inductive TReg
  | d (i : Fin 32) | acc (i : Fin 4) | a (i : Fin 16) | sv (i : Fin 16) | lv (i : Fin 8) | vacc (i : Fin 4)
  deriving DecidableEq, Repr

/-- A write that later bundles do not all see yet (R62): the bits `mask` of `reg` become those of `val`. -/
structure Pend where
  reg : TReg
  mask : Nat
  val : Nat
  /-- latency L of the opcode map -/
  lat : Nat
  /-- latency to the next accumulate into the same register (R60, R106) -/
  accLat : Nat
  /-- bundles issued since -/
  age : Nat
  deriving DecidableEq, Repr

/-- A protection region (R53, R79). -/
structure Region where
  base : BitVec 40 := 0
  lim : BitVec 40 := 0x3F
  attr : BitVec 7 := 0
  deriving DecidableEq, Repr

/-- What the core does (R52, R86, R90). -/
inductive CoreRun
  | idle      -- fetches nothing until a thread is dispatched (R52)
  | running
  | halted    -- stopped by HALT (R90)
  | faulted   -- stopped by a double fault (R86)
  deriving DecidableEq, Repr

/-- A cpx that awaits its answer (R117). -/
structure CpxWait where
  bundle : Bundle
  /-- sent by a bundle that will not complete (R122) -/
  squashed : Bool
  annulled : Bool
  tag : BitVec 6
  flag : BitVec 5
  func : BitVec 8
  ptr : BitVec 40
  deriving DecidableEq, Repr

/-- One Tarn core (R51 to R53, R87 to R90). -/
structure Core where
  fg : Bank := {}
  sh : Bank := {}
  pend : List Pend := []
  ctl : Word := 2
  estatus : Word := 0
  cause : Word := 0
  epc : BitVec 40 := 0
  eaddr : BitVec 40 := 0
  etarget : BitVec 40 := 0
  vbase : BitVec 40 := 0
  timeHi : Word := 0
  cycle : BitVec 64 := 0
  cycleHi : Word := 0
  /-- regions as the CSRs hold them, as they were before the last bundle's writes and before those of the last two, which
  data accesses see, as fetches see them (R81), and as they stood at the control transfer in progress -/
  mpu : Vector Region 16 := Vector.replicate 16 {}
  mpuP1 : Vector Region 16 := Vector.replicate 16 {}
  mpuP2 : Vector Region 16 := Vector.replicate 16 {}
  mpuF : Vector Region 16 := Vector.replicate 16 {}
  mpuT : Vector Region 16 := Vector.replicate 16 {}
  run : CoreRun := .idle
  delay : Option Delay := none
  /-- the bundle at pc is being repeated by rep (R72) -/
  repOn : Bool := false
  /-- no request is taken until the bundle at tc.epc has completed (R88) -/
  rfeHold : Bool := false
  wait : Option CpxWait := none
  haltReq : Bool := false
  killReq : Bool := false
  switchReq : Bool := false
  attnReq : Bool := false
  /-- the thread in the foreground and in the shadow bank (DPT_COREc_STATE, R159) -/
  fgT : Option (BitVec 10) := none
  shT : Option (BitVec 10) := none
  /-- the region set staged with the shadow bank (R143) -/
  shSet : BitVec 4 := 15
  /-- DPT_SELF_REL_ARG and DPT_SELF_RESULT, kept per core (R157) -/
  relArg : Word := 0
  result : Word := 0
  /-- the foreground bank is to be discarded, not saved, when SWITCH is taken (EXIT, R134) -/
  discard : Bool := false
  deriving DecidableEq, Repr

end Sys2Proof.Machine
end

