-- ==== Sys2Proof/Machine/UnitTypes.lean ====
section
/-! DEFINITION. What the units of the device hold beside their registers: timebase, memory protection, fabric, flume channels,
engines, dispatchers, beamforming arrays and the host port. Registers themselves are in the register file of State. -/

namespace Sys2Proof.Machine

/-- The master counter (02_device_time.md R24 to R43). -/
structure Timebase where
  /-- TB_NOW (R26) -/
  now : Time := 0
  /-- fraction accumulator (R38) -/
  frac : BitVec 40 := 0
  /-- TB_SLEW_REM (R40) -/
  slew : Int := 0
  /-- the PLL has locked since PORST_N (R24) -/
  started : Bool := false
  /-- timebase cycles counted, which no step moves (R25, R249) -/
  cycles : Nat := 0
  /-- cycle of the last held edge or missing report, or in which TB_PPS_CFG.EN was set (R25) -/
  ppsRef : Nat := 0
  /-- cycle of the last step applied, and its amount (R39) -/
  stepAt : Nat := 0
  stepBy : Int := 0
  /-- the source lane of RECCLK0 and RECCLK1 lost CDR lock or left ACTIVE, and 1 ms has not passed since it came back (R46) -/
  recLost : BitVec 2 := 0
  /-- value of a LOAD_AT_PPS that waits for its edge (R39, R41) -/
  waitLoad : Option Time := none
  /-- TB_TICK_DIV written and not yet in effect (R43), the frame in which it was written, and the value in effect -/
  divNew : Option (BitVec 17) := none
  divFrame : Int := 0
  div : BitVec 17 := 0x1000
  deriving DecidableEq, Repr

/-- What an armed injection mask matches (10_memory_protection.md R252, R253). -/
structure FlipSel where
  target : Nat
  addrEn : Bool
  unit : Nat
  addr : Nat
  deriving DecidableEq, Repr

/-- A line of a cache (10_memory_protection.md R233, R237): its owner (8n + k a core, 1000 + engine an engine), its number, the 64 bytes and the
CRC stored with them. -/
structure CacheLine where
  owner : Nat
  line : Nat
  data : List Byte
  crc : Nat
  deriving DecidableEq, Repr

/-- The check state of the memories (10_memory_protection.md R234 to R252). -/
structure Protection where
  /-- per tile byte, which of its two check groups fails (R234): bit 0 even, bit 1 odd -/
  tileSyn : List (Nat × BitVec 2) := []
  /-- per codeword, the 36 stored bytes XOR the codeword that was encoded, position 0 in bits 7:0 (R238) -/
  cwErr : List (Nat × BitVec 288) := []
  /-- per codeword, the poison state where it differs from that of its region (R242) -/
  poison : List (Nat × Bool) := []
  /-- pool banks, by 16n + b, whose codewords are not poisoned as a whole (R244, R245) -/
  clean : List Nat := []
  /-- lines that the caches hold, oldest fill first (R237) -/
  lines : List CacheLine := []
  /-- cache lines that could not be had from their source, by owner and line: the owner's next access to one fails (R237) -/
  fetchErr : List (Nat × Nat) := []
  /-- armed masks: of ridge n by n, of the reservoir by 24 (R252) -/
  flips : List (Nat × FlipSel) := []
  /-- timebase cycle at which the lap of a memory began, by pool n or 24 + stack (R249) -/
  lapStart : List (Nat × Nat) := []
  /-- time a lap had taken when its memory's clock stopped, by the same numbers -/
  lapHeld : List (Nat × Nat) := []
  /-- cycle since which a stack holds requests (R251) -/
  holdSince : List (Nat × Nat) := []
  deriving DecidableEq, Repr

/-- A write its unit has posted that waits where its target holds accesses (10_memory_protection.md R245, R251). -/
structure Posted where
  req : Requester
  addr : Nat
  data : List Byte
  deriving DecidableEq, Repr

/-- A flume descriptor (12_flume_engines.md R279, R280). -/
structure Desc where
  src : Nat
  count : Nat
  dst : Nat
  ctl : Word
  start : Time
  deriving DecidableEq, Repr

/-- A write burst in flight (R285): bytes, how its write ended: 0 written, else the STATUS of R290, and the endpoint it was sent to; none
within the channel's own node. -/
structure Burst where
  bytes : Nat
  err : Nat
  dest : Option Nat := none
  /-- its reads have been made, its write waits to be sent: address and bytes -/
  wait : Option (Nat × List Byte) := none
  deriving DecidableEq, Repr

/-- A flume channel beside its registers (R282 to R297). -/
structure Chan where
  /-- descriptor bytes of a fetch in flight; none inside: the fetch failed (R292) -/
  fetch : Option (Option (List Byte)) := none
  desc : Option Desc := none
  bursts : List Burst := []
  /-- source bytes read for the bursts that follow (R285) -/
  funnel : List Byte := []
  /-- endpoint to which a descriptor fetch or a write-back is in flight -/
  ringDest : Option Nat := none
  /-- bytes whose bursts were started, and bytes moved (R290) -/
  started : Nat := 0
  moved : Nat := 0
  /-- STATUS the descriptor will end with (R290) -/
  status : Nat := 0
  late : Bool := false
  /-- endpoint whose refusal paused the channel (R294) -/
  fenced : Option Nat := none
  /-- the write-back was sent, and whether it failed (R290, R292) -/
  wb : Option Bool := none
  /-- EN was cleared, or an FLR stopped the channel (R293, R295) -/
  stopping : Bool := false
  /-- bytes moved by all descriptors -/
  total : Nat := 0
  deriving DecidableEq, Repr

/-- A command of an engine's queue (05_command_queue.md R114, R120). -/
structure EngCmd where
  core : Fin 192
  tag : BitVec 6
  tcb : BitVec 10
  gen : BitVec 4
  ptr : Nat
  flag : BitVec 5
  func : BitVec 8
  committed : Bool
  deriving DecidableEq, Repr

/-- How an executed command ended (R124): STATUS, DETAIL. -/
structure EngResult where
  status : Nat
  detail : Nat
  deriving DecidableEq, Repr

/-- A write of a command that COMMIT has not reached (05_command_queue.md R120): operand number, address, bytes with their bit masks. -/
structure Staged where
  op : Nat
  addr : Nat
  data : List (Byte × Byte)
  /-- unit of the command's work that it belongs to (07_ridge_engines.md R168) -/
  unit : Nat := 0
  /-- it is a CAPTURED_OVER record (09_narrowband_engines.md R231) -/
  cap : Bool := false
  deriving DecidableEq, Repr

/-- An engine beside its registers (05, 07_ridge_engines.md R162, R168). -/
structure Engine where
  /-- accepted and neither completed nor removed, oldest first; a range engine's six queues are told apart by core -/
  queue : List EngCmd := []
  /-- which command runs: its core and tag -/
  running : Option (Fin 192 × BitVec 6) := none
  /-- staged writes, in the order made: what the 4 KiB buffer holds (R120) -/
  staged : List Staged := []
  /-- writes of a command that paused with its buffer full: made after the buffer's, once COMMIT has come (R120) -/
  later : List Staged := []
  /-- the executed command's end -/
  result : Option EngResult := none
  /-- the clock is gated (R125) -/
  gated : Bool := false
  /-- next queue to serve of a range engine (R162) -/
  turn : Nat := 0
  /-- CAPTURED_OVER records written and detections ignored by the executed command (R224, R231) -/
  caught : Nat := 0
  ignored : Nat := 0
  /-- busy cycles (R190) -/
  busy : Nat := 0
  deriving DecidableEq, Repr

/-- COMMIT or CANCEL on its way to an engine (R121 to R123). -/
structure EngMsg where
  eng : EngId
  core : Fin 192
  tag : BitVec 6
  cancel : Bool
  deriving DecidableEq, Repr

/-- A command on its way to an engine's front end (R117). -/
structure EngSent where
  eng : EngId
  cmd : EngCmd
  squashed : Bool
  deriving DecidableEq, Repr

/-- Where a fabric transaction stands (11_leat_fabric.md R266, R267). -/
inductive TxnSt
  | waiting   -- no credit or response slot yet, or injection paused
  | held      -- its endpoint sleeps or is being fenced (R267)
  | sent      -- on its way to the target
  | answered  -- the response is on its way back
  deriving DecidableEq, Repr

/-- What a transaction carries (R260): an access to memory or registers, a command for a range engine, or a COMMIT or CANCEL for one. -/
inductive Carry
  | access
  | cmd (e : EngId) (c : EngCmd)
  | ctl (m : EngMsg)
  deriving DecidableEq, Repr

/-- A transaction of an initiator NI (R259, R266). -/
structure Txn where
  req : Requester
  init : Nat
  dest : Nat
  tid : Nat
  /-- TYPE of the packet header -/
  ty : Nat
  addr : Nat
  len : Nat
  data : List Byte
  maskFirst : Byte
  maskLast : Byte
  /-- EPOCH stamped on the request, and on the response -/
  epoch : Bool
  respEpoch : Bool
  /-- route that the request took as it was sent, and the response: none by dimension order, else source routing with this ORDER -/
  via : Option Bool := none
  respVia : Option Bool := none
  carry : Carry := .access
  st : TxnSt
  /-- the request has reached its target, which holds it (R245, R251) -/
  there : Bool := false
  /-- completed by timeout, response still out -/
  late : Bool
  /-- a packet of it was dropped as malformed (R260) -/
  lost : Bool
  resp : List Byte
  err : Bool
  deriving DecidableEq, Repr

/-- A reroute in progress (R271). -/
structure Flip where
  ranges : BitVec 4
  /-- the plan of source routing; none: dimension-order routing -/
  plan : Option Nat
  signalled : Bool
  /-- endpoints whose NIs have confirmed -/
  confirmed : List Nat
  deriving DecidableEq, Repr

/-- The fabric (chapter 11). -/
structure Fabric where
  txns : List Txn := []
  flip : Option Flip := none
  /-- reopen requests that wait for a fence to end (R269) -/
  reopen : List Nat := []
  /-- endpoints that have been asked to wake by the first reservation held for them since they were OPEN (R267) -/
  woken : List Nat := []
  /-- FLUME release actions of dispatchers, held for channels whose endpoints wake on demand (06_dispatcher.md R153, R267) -/
  rings : List FlumeId := []
  /-- routers that are closed, by node (R273); range 3 of a GH9672 besides -/
  closed : List Nat := []
  /-- routers that train their links (R273) -/
  training : List Nat := []
  /-- consecutive failed replays of a link (R275) -/
  fails : List (Nat × Nat) := []
  deriving DecidableEq, Repr

/-- A release that waits for its turn (06_dispatcher.md R150): lock, sequence number, DPT_SELF_REL_ARG. -/
structure Hold where
  lock : BitVec 8
  seq : BitVec 16
  arg : Word
  deriving DecidableEq, Repr

/-- A dispatcher beside its registers and context store (06_dispatcher.md). -/
structure Dispatcher where
  /-- READY threads in the order they became READY (R138) -/
  ready : List (BitVec 10) := []
  /-- delay list: wake tick and thread, in order (R144) -/
  delay : List (Word × BitVec 10) := []
  holds : List Hold := []
  /-- performed order of a lock whose R stands on a hold entry is decided by holds; skip markers that wait for a
  free entry (R154) -/
  skips : List (BitVec 8 × BitVec 16) := []
  /-- tick delivered, and whether entries due at it are still in the list (R144) -/
  tick : Word := 0
  /-- DPT_SELF_WAKE and DPT_SELF_CONSUMED per thread (R157) -/
  wake : List (Nat × Word) := []
  consumed : List (Nat × Word) := []
  /-- READY threads that wait for the ridge of a chosen core to reach RUN: thread and core (R139) -/
  wakePending : List (Nat × Nat) := []
  /-- cores that have been idle since a thread of wakePending chose its core: thread and core; they do not become idle (R139) -/
  wakeIdle : List (Nat × Nat) := []
  deriving DecidableEq, Repr

/-- An operation of a BFA (08_beamforming_array.md R199, R211): the entry as copied at its fire. -/
structure BfaOp where
  entry : List Byte
  index : Nat
  channel : Nat
  imm : Bool
  late : Bool
  /-- slot number S before SLOT_OFS is added (R210, R213) -/
  slot : Nat
  /-- a WEIGHT_SOLVE that has waited for its target set (R209) -/
  waited : Bool := false
  deriving DecidableEq, Repr

/-- A page of the antenna buffer (R195). -/
structure Page where
  tag : BitVec 20 := 0
  valid : BitVec 275 := 0
  deriving DecidableEq, Repr

/-- The operation the array runs (R200, R209). -/
structure BfaRun where
  op : BfaOp
  status : Nat
  detail : Nat
  flags : Nat
  start : Word
  /-- PRB groups of the operation (R216) -/
  groups : Nat
  /-- pages it reads, held against hub writes (R196) -/
  pages : List Nat
  /-- the weight set it has resolved (R209) -/
  set : Option Nat := none
  deriving DecidableEq, Repr

/-- A hub write of one PRB (R195, R196): stream, symbol number, PRB, 12 IQ16 samples as bytes; close time of its window. -/
structure PageWrite where
  stream : Nat
  sym : Nat
  prb : Nat
  data : List Byte
  close : Option Time
  sched : Nat
  deriving DecidableEq, Repr

/-- A beamforming array beside its registers and memories (chapter 8). -/
structure Bfa where
  queue : List BfaOp := []
  run : Option BfaRun := none
  pages : List (Nat × Page) := []
  held : List PageWrite := []
  /-- BASE of each sequencer channel (R210) -/
  base : List (Nat × Time) := []
  /-- pass p of each channel, of which BFA_SEQh_PASS shows 32 bits (R210) -/
  pass : List (Nat × Nat) := []
  /-- records of the status ring that software has not freed (R214) -/
  ringHeld : Nat := 0
  /-- array cycles taken, for BFA_STAT_BUSY (R217) -/
  busy : Nat := 0
  deriving DecidableEq, Repr

/-- A downlink symbol a BFA has handed to its hub for a stream (R202): per PRB the exponent and 24 mantissas, at width MW. -/
structure DlSym where
  stream : Nat
  sym : Nat
  comp : Bool
  mw : Nat
  prbs : List (Nat × List Int)
  deriving DecidableEq, Repr

/-- A CPRI link beside its registers (14_fronthaul_framing.md R334): consecutive hyperframes with and without K28.5 at the start,
and the control words last sent. -/
structure CpriLink where
  good : Nat := 0
  miss : Nat := 0
  ctl : List Byte := []
  deriving DecidableEq, Repr

/-- A lane of a trunk group beside its registers (R336 to R338). -/
structure TrunkLane where
  fn : Nat := 0
  /-- symbol time at which the FAW of that frame arrived -/
  arrive : Nat := 0
  /-- its last marker frame carried the group's GROUP_ID -/
  idOk : Bool := false
  /-- its skew is beyond the limit -/
  skewed : Bool := false
  /-- frames since an overhead passed its CRC -/
  stale : Nat := 4
  /-- RX_OK and TX_ACT of the last overhead that passed -/
  rxOk : Nat := 0
  txAct : Nat := 0
  deriving DecidableEq, Repr

/-- A block of a tributary being received (R340): its bytes, and the SEQ of the next cell. -/
structure TribRx where
  started : Bool := false
  data : List Byte := []
  next : Nat := 0
  /-- when its FIRST cell arrived -/
  ts : Nat := 0
  deriving DecidableEq, Repr

/-- A hub's framing beside its registers (chapter 14). -/
structure Hub where
  /-- records of the receive queues, oldest first: queue and bytes (R331) -/
  rxq : List (Nat × List Byte) := []
  /-- bytes of a queue's head record that the hub's flumes have read -/
  rxPos : List (Nat × Nat) := []
  /-- records of the transmit queues, and bytes of records not yet whole -/
  txq : List (Nat × List Byte) := []
  txPart : List (Nat × List Byte) := []
  /-- SEQ_ID of the next message sent, by 2 · entry + plane, and of the next expected, by entry (R323) -/
  seqTx : List (Nat × Nat) := []
  seqRx : List (Nat × Nat) := []
  /-- downlink symbols that wait for their schedule -/
  dl : List DlSym := []
  /-- air time of the symbol for which a schedule last fired (R330) -/
  fired : List (Nat × Nat) := []
  /-- when events 1, 3 and 4 were last raised (R343) -/
  limited : List (Nat × Nat) := []
  cpri : List (Nat × CpriLink) := []
  lanes : List (Nat × TrunkLane) := []
  tribRx : List (Nat × TribRx) := []
  /-- cells of a tributary ready to send, and its next SEQ (R340) -/
  tribTx : List (Nat × List (List Byte)) := []
  tribSeq : List (Nat × Nat) := []
  /-- frame number next sent by a group, and the spill cells of its last frame -/
  groupFn : List (Nat × Nat) := []
  spills : List (Nat × Nat) := []
  deriving DecidableEq, Repr

/-- The PCIe functions (18_events_host_management.md R414 to R422). -/
structure Hif where
  /-- MSI-X table: words of function f's entry v at (f · 2048 + v) · 4 + w -/
  table : List (Nat × Word) := []
  /-- pending bits, by f · 2048 + v -/
  pba : List (Nat × Bool) := []
  /-- PROD and CONS of host queues, by q and 64 + q (R419) -/
  queues : List (Nat × Word) := []
  numVfs : Nat := 0
  deriving DecidableEq, Repr

/-- Symbol alignment of an 8b/10b receiver (13_fronthaul_lanes.md R306). -/
inductive Align | unaligned | candidate | aligned
  deriving DecidableEq, Repr

/-- A fronthaul lane beside its registers (chapter 13). -/
structure Lane where
  /-- the ten bits received before the next ones, first received in bit 0 -/
  win : BitVec 10 := 0
  al : Align := .unaligned
  /-- P, n, e of R306, and consecutive valid symbols -/
  pos : Nat := 0
  n : Nat := 0
  e : Nat := 0
  good : Nat := 0
  /-- receive and transmit running disparity are positive (R305) -/
  rdPos : Bool := false
  txPos : Bool := false
  /-- the symbol delivered last to the framing while aligned: K flag and byte, none for a code that is not in the table; and its error flag
  (R305, R306) -/
  got : Option (Option (Bool × Nat) × Bool) := none
  /-- the last 31 bits of the PRBS generator, the newest in bit 0 (R313); its start is the model's choice (assumption 127) -/
  prbs : BitVec 31 := BitVec.allOnes 31
  /-- sync headers counted and invalid among them (R307) -/
  hdrs : Nat := 0
  hdrBad : Nat := 0
  /-- power state a transition goes to (R315, R317) -/
  trans : Option Nat := none
  /-- initial adaptation after OFF is not complete (R317) -/
  adapting : Bool := false
  /-- stored equaliser values (R311) -/
  stored : Word × Word := (0, 0)
  deriving DecidableEq, Repr

/-- A DAC channel beside its registers (17_housekeeping_converters.md R391 to R402). -/
structure Dac where
  /-- the code the converter core moves to during a deglitch hold, and the update that waits for its end (R399) -/
  core : Option Nat := none
  next : Option Nat := none
  /-- the range a change goes to, and whether its own hold has begun (R400); the code driven at its end where not IN (R394) -/
  range : Option Bool := none
  rangeHold : Bool := false
  rangeCode : Option Nat := none
  /-- code last played by the queue -/
  played : Nat := 0
  /-- consecutive read-back comparisons that failed (R402) -/
  fails : Nat := 0
  /-- timebase cycle of the output's last change or hold -/
  changed : Nat := 0
  deriving DecidableEq, Repr

/-- An ADC beside its registers (R403 to R407). -/
structure Adc where
  /-- the input being converted, and whether it is the urgent one -/
  cur : Option (Nat × Bool) := none
  /-- input of the scan converted last -/
  last : Option Nat := none
  urgent : Option Nat := none
  /-- inputs whose last result lay outside their limits -/
  outside : List Nat := []
  /-- codes of the temperature inputs that count for the over-temperature signal -/
  temps : List (Nat × Nat) := []
  deriving DecidableEq, Repr

/-- The housekeeping block beside its registers (chapter 17). ADC0 converts from reset on. -/
structure Hk where
  dacs : Vector Dac 8 := Vector.replicate 8 {}
  adc0 : Adc := { cur := some (8, false) }
  adc1 : Adc := {}
  /-- phase of the tone source (R401) -/
  phase : Word := 0
  deriving DecidableEq, Repr

/-- Start-up and Summit beside their registers (16_startup_images_modes.md). -/
structure Boot where
  /-- the slot being booted, slots rejected so far, and whether the ROM waits for the CAP (R371, R376, R384) -/
  slot : Option Nat := none
  tried : List Nat := []
  wait : Bool := false
  /-- key index of the running image (R381) -/
  key : Option Nat := none
  /-- ranges of CONFIG's trim set and night set (R385) -/
  trim : BitVec 4 := 0
  night : BitVec 4 := 1
  /-- mode an UPDATE came from, and mode to go to from SYNC-ACQUIRE after STANDBY (R387) -/
  back : Nat := 4
  final : Nat := 4
  /-- lane limits of hub 0 before STANDBY (R385) -/
  limits : Option (Word × Word) := none
  /-- an uncorrectable error was found in the Summit region (R387) -/
  summitErr : Bool := false
  deriving DecidableEq, Repr

/-- A transaction of the sluice controller (15_sluices_power.md R355 to R358): domain, state being entered, whether the state was
chosen automatically, whether it is committed, and the votes so far: voter and reason, 0 an ACCEPT. -/
structure SlcTxn where
  dom : Nat
  target : Nat
  auto : Bool
  commit : Bool := false
  votes : List (Nat × Nat) := []
  deriving DecidableEq, Repr

/-- The sluice controller beside its registers (chapter 15). -/
structure Slc where
  txns : List SlcTxn := []
  /-- domains whose transaction was aborted and is tried again after SLC_RETRY (R356) -/
  retry : List Nat := []
  /-- state chosen automatically, by domain (R350, R351, R353) -/
  choice : List (Nat × Nat) := []
  /-- SLC_DOMd_CFG words written during a transaction of the domain (R358) -/
  held : List (Nat × Word) := []
  /-- domains whose exit has been asked for, and those asked after COMMIT (R354, R358) -/
  wakeAct : List Nat := []
  lateWakes : List Nat := []
  /-- domains on their way to RUN, and the state they leave (R359) -/
  up : List (Nat × Nat) := []
  /-- BFA and RINF domains whose memories are being cleared (R360) -/
  clearing : List Nat := []
  /-- latched RETAIN bits and RET_LOST latches, by ridge (R362, R363) -/
  retained : List (Nat × Nat) := []
  retLost : List (Nat × Nat) := []
  /-- time of a ridge's next work, by ridge (R350) -/
  due : List (Nat × Time) := []
  /-- ranges whose clock is being switched to the PLL (R361) -/
  switching : List Nat := []
  /-- comparators the controller uses (R369) -/
  used : List Nat := []
  deriving DecidableEq, Repr

/-- How the last register or memory access of a command ended (R246, R247). -/
inductive Access
  | none
  | ok (data : List Byte)
  | busError
  | held        -- waits for its target (R251, R267)
  | unsupported -- a host request no function claims (R420)
  deriving DecidableEq, Repr

end Sys2Proof.Machine
end

