-- ==== Sys2Proof/Machine/State.lean ====
section
/-! DEFINITION. The state of the block, its reset, and the reasons a command can stop. -/

namespace Sys2Proof.Machine

/-- Reasons a command stops with a fault: there are none. Every command has an outcome in this device, a bus error, an error
record, an exception of a core or an event among them, and the device goes on. -/
inductive Fault
  deriving DecidableEq, Repr

/-- Reasons a command is refused. -/
inductive Refusal
  /-- Raised by an arm of exec whose command has no meaning yet. Safe. -/
  | notModelled (mnemonic : String)
  deriving DecidableEq, Repr

/-- What holds the device in reset: a reset ball low (19_package_electrical.md R435, R445), a supply out of range (R434), or a
thermal trip (R444). -/
inductive ResetCause | porst | sysrst | supply | therm
  deriving DecidableEq, Repr

/-- What leaves the device, oldest first. -/
inductive OutMsg
  /-- an MSI-X message of function f, vector v: address and data of its table entry (18 R414) -/
  | msix (f v : Nat) (addr : Time) (data : Word)
  /-- a PCIe memory write of function f (18 R420) -/
  | hostWrite (f : Nat) (addr : Nat) (data : List Byte)
  /-- a completion for a host request (18 R420) -/
  | completion (data : List Byte)
  | completerAbort | unsupportedRequest
  /-- a frame of port p of hub h (14) -/
  | frame (hub port : Nat) (bytes : List Byte)
  /-- code groups on lane `lane` of a hub, the bit sent first in bit 0: of a CPRI hyperframe or a trunk lane frame, or received and sent back
  (13 R305, R319; 14 R334, R336) -/
  | symbols (hub lane : Nat) (codes : List (BitVec 10))
  /-- bits of the PRBS generator on lane `lane` of a hub, in place of the framing's data (13 R313) -/
  | prbs (hub lane : Nat) (bits : List Bool)
  /-- an event reached a line of the control complex (18 R411) -/
  | irq (line : Nat)
  deriving DecidableEq, Repr

/-- The answer of an engine front end on its way to a core (05 R117, R118): the core, and the refusal code or none. -/
structure CpxReply where
  core : Fin 192
  eng : Option EngId
  refuse : Option Nat
  deriving DecidableEq, Repr

/-- The state: every register, memory, queue, mode and pin the spec gives the block, and the commands that wait. -/
structure State where
  part : Part := .gh9600
  held : Option ResetCause := none
  thermTrip : Bool := false
  /-- commands that wait, first in, first out -/
  pending : List Instr := []
  /-- the register file, by device address; an unlisted register holds its reset value -/
  regs : List (Nat × Word) := []
  /-- bytes of the map and of the memories that have no address in it -/
  mem : List Host.Cell := []
  /-- words of the four context stores, by r · 2^21 + byte offset (06 R128) -/
  ctx : List (Nat × Word) := []
  prot : Protection := {}
  /-- posted writes that their targets hold, oldest first (10 R245, R251) -/
  posted : List Posted := []
  tb : Timebase := {}
  /-- armed targets of comparators, by block base (02 R33) -/
  targets : List (Nat × Time) := []
  /-- what a replica differs from the master by (02 R30) -/
  replicas : List (Nat × Int) := []
  cores : Vector Core 192 := Vector.replicate 192 {}
  engines : Vector Engine 80 := Vector.replicate 80 {}
  engSent : List EngSent := []
  engMsgs : List EngMsg := []
  replies : List CpxReply := []
  dpts : Vector Dispatcher 4 := Vector.replicate 4 {}
  chans : List (Nat × Chan) := []
  /-- channel served last, by 2 · flume engine + PRIO (12 R289) -/
  flumeTurn : List (Nat × Nat) := []
  fabric : Fabric := {}
  bfas : Vector Bfa 4 := Vector.replicate 4 {}
  lanes : Vector Lane 96 := Vector.replicate 96 {}
  /-- lane reference inputs that are absent: 2 · hub for LANEREF_E, and 1 more for LANEREF_C (13 R304) -/
  refLost : List Nat := []
  hubs : Vector Hub 4 := Vector.replicate 4 {}
  hif : Hif := {}
  slc : Slc := {}
  hk : Hk := {}
  boot : Boot := {}
  /-- raised and not yet delivered: source and route at the raise (18 R411, R413) -/
  events : List (Nat × Word) := []
  /-- wake requests on their way to the sluice controller, by domain (15 R354) -/
  wakes : List Nat := []
  out : List OutMsg := []
  acc : Access := .none
  /-- the model's own name of what a reset left in the plan memories (11 R270, assumption 5) -/
  planGen : Nat := 0
  /-- the model's own counter of free values (assumption 5) -/
  freeCtr : Nat := 0
  deriving DecidableEq, Repr

/-- The machine right after reset: every field at the value its declaration gives. -/
def State.reset : State := {}

end Sys2Proof.Machine
end

