-- ==== Sys2Proof/Machine/Addr.lean ====
section
/-! DEFINITION. The 40-bit device map (01_device_overview.md R10 to R15), which units a part has (00_scope.md R2, R3), the fabric endpoints
(11_leat_fabric.md R258) and the planes (R17, R19). -/

namespace Sys2Proof.Machine

/-- A 64 KiB register block (R13, R14). A hub has four; the range-engine block holds TDEC_ and NBE_. -/
inductive Block
  | slc | tb | evf | leat | boot | mbx | hk | rsv | hif
  | dpt (r : Nat) | bfa (r : Nat) | reng (r : Nat) | hub (h j : Nat)
  | flm (n : Nat) | mem (n : Nat) | fec (n : Nat) | fft (n : Nat) | eq (n : Nat) | cq (n : Nat) | cqc (n k : Nat)
  deriving DecidableEq, Repr

/-- What an address of the map reaches (R12, R13). -/
inductive Target
  | reservoir
  | tile (x : Nat)
  | pool (n : Nat)
  | block (b : Block) (off : Nat)
  | hostWindow
  | unassigned
  deriving DecidableEq, Repr

/-- Base of ridge n's window (R12). -/
def ridgeBase (n : Nat) : Nat := 0x1000000000 + n * 0x1000000

/-- Base of a register block (R13, R14). -/
def Block.base : Block → Nat
  | .slc => 0x2000000000
  | .tb => 0x2000010000
  | .evf => 0x2000020000
  | .leat => 0x2000030000
  | .boot => 0x2000040000
  | .mbx => 0x2000050000
  | .hk => 0x2000060000
  | .rsv => 0x2000070000
  | .hif => 0x2000080000
  | .dpt r => 0x2000100000 + r * 0x10000
  | .bfa r => 0x2000200000 + r * 0x10000
  | .reng r => 0x2000300000 + r * 0x10000
  | .hub h j => 0x2000400000 + h * 0x40000 + j * 0x10000
  | .flm n => ridgeBase n + 0xC00000
  | .mem n => ridgeBase n + 0xC20000
  | .fec n => ridgeBase n + 0xC40000
  | .fft n => ridgeBase n + 0xC50000
  | .eq n => ridgeBase n + 0xC60000
  | .cq n => ridgeBase n + 0xC70000
  | .cqc n k => ridgeBase n + 0xC80000 + k * 0x10000

/-- Address of the register at an offset of a block. -/
def Block.at (b : Block) (off : Nat) : Nat := b.base + off

/-- The device register block a 64 KiB slot number belongs to, counted from 0x20_0000_0000 (R14). -/
def deviceSlot (s : Nat) : Option Block :=
  if s = 0 then some .slc else if s = 1 then some .tb else if s = 2 then some .evf else if s = 3 then some .leat
  else if s = 4 then some .boot else if s = 5 then some .mbx else if s = 6 then some .hk
  else if s = 7 then some .rsv else if s = 8 then some .hif
  else if 0x10 ≤ s ∧ s < 0x14 then some (.dpt (s - 0x10))
  else if 0x20 ≤ s ∧ s < 0x24 then some (.bfa (s - 0x20))
  else if 0x30 ≤ s ∧ s < 0x34 then some (.reng (s - 0x30))
  else if 0x40 ≤ s ∧ s < 0x50 then some (.hub ((s - 0x40) / 4) ((s - 0x40) % 4))
  else none

/-- The register block at a 64 KiB slot of ridge n's register region (R13). -/
def ridgeSlot (n s : Nat) : Option Block :=
  if s = 0 then some (.flm n) else if s = 2 then some (.mem n) else if s = 4 then some (.fec n)
  else if s = 5 then some (.fft n) else if s = 6 then some (.eq n) else if s = 7 then some (.cq n)
  else if 8 ≤ s ∧ s < 16 then some (.cqc n (s - 8))
  else none

/-- What an address reaches, before the part is looked at (R12, R13, R15). -/
def targetOf (a : Nat) : Target :=
  if a < 0x800000000 then .reservoir
  else if a < 0x1000000000 then .unassigned
  else if a < 0x1018000000 then
    let n := (a - 0x1000000000) / 0x1000000
    let o := a % 0x1000000
    if o < 0x400000 then .tile (8 * n + o / 0x80000)
    else if o < 0xC00000 then .pool n
    else match ridgeSlot n ((o - 0xC00000) / 0x10000) with
      | some b => .block b (o % 0x10000)
      | none => .unassigned
  else if a < 0x2000000000 then .unassigned
  else if a < 0x2000500000 then
    match deviceSlot ((a - 0x2000000000) / 0x10000) with
      | some b => .block b (a % 0x10000)
      | none => .unassigned
  else if 0x3000000000 ≤ a ∧ a < 0x4000000000 then .hostWindow
  else .unassigned

/-- The range a target lies in, for units that R3 fuses off. -/
def Block.range : Block → Option Nat
  | .dpt r => some r | .bfa r => some r | .reng r => some r | .hub h _ => some h
  | .flm n => some (n / 6) | .mem n => some (n / 6) | .fec n => some (n / 6) | .fft n => some (n / 6)
  | .eq n => some (n / 6) | .cq n => some (n / 6) | .cqc n _ => some (n / 6)
  | _ => none

/-- The range a target lies in (R3). -/
def Target.range : Target → Option Nat
  | .tile x => some (x / 48)
  | .pool n => some (n / 6)
  | .block b _ => b.range
  | _ => none

end Sys2Proof.Machine

namespace Sys2Proof
open Machine

/-- The part has the range (R2, R3). -/
def Part.hasRange (p : Part) (r : Nat) : Bool :=
  match p with
  | .gh9600 => decide (r < 4)
  | .gh9672 => decide (r < 3)

end Sys2Proof

namespace Sys2Proof.Machine

/-- What an address reaches on a part: unassigned and fused-off targets are one case, a bus error (R3, R15). -/
def decodeAddr (p : Part) (a : Nat) : Target :=
  match (targetOf a).range with
  | some r => if Part.hasRange p r then targetOf a else .unassigned
  | none => targetOf a

/-- Node 6y + x of ridge n (R10). -/
def ridgeNode (n : Nat) : Nat :=
  let r := n / 6
  let k := n % 6
  let x := (r % 2) * 3 + k % 3
  let y := (r / 2) * 3 + (if k < 3 then 0 else 2)
  6 * y + x

/-- Node of the middle row of range r: 0 hub, 1 BFA, 2 HBM port (R10). -/
def midNode (r i : Nat) : Nat := 6 * ((r / 2) * 3 + 1) + (r % 2) * 3 + i

/-- Endpoint of the control complex and of the HIF (R258). -/
def epControl : Nat := 36

/-- Endpoint of the HIF (R258). -/
def epHif : Nat := 37

/-- Range of an endpoint, 0 for the two second endpoints, which lie in range 0 (R10, R258). -/
def epRange (e : Nat) : Nat :=
  if 36 ≤ e then 0 else (if 3 ≤ e % 6 then 1 else 0) + (if 3 ≤ e / 6 then 2 else 0)

/-- Node an endpoint stands at (R258). -/
def epNode (e : Nat) : Nat := if e = 36 then 6 else if e = 37 then 7 else e

/-- Ridge whose node is e, if any (R10). -/
def ridgeOfNode (e : Nat) : Option Nat :=
  let x := e % 6
  let y := e / 6
  let r := epRange e
  if 36 ≤ e then none
  else if y % 3 = 1 then none
  else some (6 * r + (if y % 3 = 0 then x % 3 else 3 + x % 3))

end Sys2Proof.Machine

namespace Sys2Proof
open Machine

/-- Endpoint an engine, flume or other requester sends from (R17, R258). -/
def Requester.endpoint : Requester → Nat
  | .core x => ridgeNode (x.val / 8)
  | .flume (.ridge n _) => ridgeNode n.val
  | .flume (.hub h _) => midNode h.val 0
  | .flume (.host _) => epHif
  | .engine (.codec n) => ridgeNode n.val
  | .engine (.fft n) => ridgeNode n.val
  | .engine (.eq n) => ridgeNode n.val
  | .engine (.turbo r) => midNode r.val 2
  | .engine (.nbe r) => midNode r.val 2
  | .bfa r => midNode r.val 1
  | .hub h => midNode h.val 0
  | .host _ => epHif
  | .bootRom => epControl
  | .summitCtl => epControl
  | .summitMgmt => epControl
  | .cap => epControl

/-- Plane of a requester (R17). -/
def Requester.plane : Requester → Plane
  | .bootRom => .control
  | .summitCtl => .control
  | .summitMgmt => .management
  | .cap => .management
  | .host f => if f.val = 0 then .management else .data
  | _ => .data

end Sys2Proof

namespace Sys2Proof.Machine

/-- Plane of a register block (R17). -/
def Block.plane : Block → Plane
  | .slc => .meeting | .evf => .meeting | .rsv => .meeting
  | .tb => .management | .hk => .management | .mbx => .management
  | .leat => .control | .boot => .control | .hif => .control
  | _ => .data

/-- The plane rule for a write (R19): own plane; the control plane also the data plane's blocks; the meeting points
from the control and management planes, with the exceptions their chapters make (R256, R369, R416). -/
def planeMayWrite (p : Plane) (b : Block) : Bool :=
  match b.plane, p with
  | .data, .data => true
  | .data, .control => true
  | .control, .control => true
  | .management, .management => true
  | .meeting, .control => true
  | .meeting, .management => true
  | _, _ => false

end Sys2Proof.Machine

namespace Sys2Proof
open Machine

/-- Base of a flume channel's registers (12_flume_engines.md R299). -/
def FlumeId.base : FlumeId → Nat
  | .ridge n c => (Block.flm n.val).base + 0x1000 + c.val * 0x100
  | .hub h c => (Block.hub h.val 1).base + 0x8000 + 0x1000 + c.val * 0x100
  | .host q => Block.hif.base + 0x8000 + 0x1000 + q.val * 0x100

/-- Base of a flume engine's common registers (R299). -/
def FlumeId.common : FlumeId → Nat
  | .ridge n _ => (Block.flm n.val).base
  | .hub h _ => (Block.hub h.val 1).base + 0x8000
  | .host _ => Block.hif.base + 0x8000

/-- Number of a channel in the store of channels. -/
def FlumeId.index : FlumeId → Nat
  | .ridge n c => 16 * n.val + c.val
  | .hub h c => 384 + 32 * h.val + c.val
  | .host q => 512 + q.val

/-- Base of a comparator's block (R33 and the chapters of the units). -/
def CmpId.base : CmpId → Nat
  | .gt g => Block.tb.base + 0x100 + g.val * 0x20
  | .flume f => f.base + 0x40
  | .tp r i => (Block.dpt r.val).base + 0x6000 + i.val * 0x40
  | .seq r h => (Block.bfa r.val).base + 0x800 + h.val * 0x40
  | .sch h s => (Block.hub h.val 1).base + 0x400 + s.val * 0x20
  | .dac c => Block.hk.base + 0x2000 + c.val * 0x20
  | .slc i => Block.slc.base + 0x1000 + i.val * 0x20

/-- Place of an engine among the 80 engines. -/
def EngId.index : EngId → Nat
  | .codec n => 3 * n.val
  | .fft n => 3 * n.val + 1
  | .eq n => 3 * n.val + 2
  | .turbo r => 72 + 2 * r.val
  | .nbe r => 73 + 2 * r.val

theorem EngId.index_lt (e : EngId) : e.index < 80 := by
  cases e <;> simp only [EngId.index] <;> omega

/-- Base of an engine's registers (07_ridge_engines.md R190, 09_narrowband_engines.md R232). -/
def EngId.base : EngId → Nat
  | .codec n => (Block.fec n.val).base
  | .fft n => (Block.fft n.val).base
  | .eq n => (Block.eq n.val).base
  | .turbo r => (Block.reng r.val).base
  | .nbe r => (Block.reng r.val).base + 0x8000

/-- Range of an engine. -/
def EngId.range : EngId → Nat
  | .codec n => n.val / 6
  | .fft n => n.val / 6
  | .eq n => n.val / 6
  | .turbo r => r.val
  | .nbe r => r.val

/-- The replica a comparator watches (R30). -/
def CmpId.replica : CmpId → ReplicaId
  | .gt _ => .tb
  | .flume (.ridge n _) => .ridge n
  | .flume (.hub h _) => .hub h
  | .flume (.host _) => .hif
  | .tp r _ => .dpt r
  | .seq r _ => .bfa r
  | .sch h _ => .hub h
  | .dac _ => .hk
  | .slc _ => .slc

/-- Place of a replica in the store of replica offsets. -/
def ReplicaId.index : ReplicaId → Nat
  | .tb => 0 | .hif => 1 | .hk => 2 | .slc => 3
  | .ridge n => 8 + n.val | .dpt r => 32 + r.val | .bfa r => 36 + r.val | .hub h => 40 + h.val
  | .core x => 64 + x.val

end Sys2Proof
end

