-- ==== Sys2Proof/Machine/Regs.lean ====
section
/-! DEFINITION. The registers of the register blocks: offsets, reset values and access types (00_scope.md R6, R8), from the register
summaries and field tables of the chapters. -/

namespace Sys2Proof.Machine

/-- One line of a register summary: the offset of its first instance, one or two strides with their counts, the reset
value, and which bits a plain write changes, by access type (R6). `rd` holds the bits a read returns. -/
structure RegRow where
  off : Nat
  stride : Nat := 4
  count : Nat := 1
  stride2 : Nat := 4
  count2 : Nat := 1
  reset : Nat := 0
  rd : Nat := 0xFFFFFFFF
  rw : Nat := 0
  w1c : Nat := 0
  w1s : Nat := 0
  rwl : Nat := 0
  deriving DecidableEq, Repr

/-- The line has an instance at offset o. -/
def RegRow.hits (r : RegRow) (o : Nat) : Bool :=
  decide (r.off ≤ o) &&
    (let d := o - r.off
     let i := if r.count2 = 1 then 0 else d / r.stride2
     let e := if r.count2 = 1 then d else d % r.stride2
     decide (i < r.count2) && decide (e % r.stride = 0) && decide (e / r.stride < r.count))

/-- The first line with an instance at offset o. -/
def rowAt (rows : List RegRow) (o : Nat) : Option RegRow := rows.find? (fun r => r.hits o)

/-- Lines of count comparator blocks from base, stride apart (02_device_time.md R33). -/
def cmpRows (base stride count : Nat) : List RegRow :=
  [ { off := base, stride := stride, count := count, rw := 0xFFFFFFFF },
    { off := base + 4, stride := stride, count := count, rw := 0xFFFFFFFF },
    { off := base + 8, stride := stride, count := count, rw := 0xFFFFFFFF },
    { off := base + 12, stride := stride, count := count, rw := 0xC },
    { off := base + 16, stride := stride, count := count, w1c := 0xE },
    { off := base + 20, stride := stride, count := count } ]

/-- TB_ (02_device_time.md R50). -/
def tbRows : List RegRow :=
  [ { off := 0x00, reset := 0x00020100 },
    { off := 0x04, w1c := 0xF00 },
    { off := 0x08, reset := 2, rw := 3 },
    { off := 0x10 }, { off := 0x14 },
    { off := 0x18, rd := 0 },
    { off := 0x20 }, { off := 0x24 },
    { off := 0x28, rw := 0xFFFFFFFF }, { off := 0x2C, rw := 0xFFFF },
    { off := 0x30, rw := 0xFFFFFFFF }, { off := 0x34, rw := 0xFFFFFFFF },
    { off := 0x40, rw := 0xFFFFFFFF }, { off := 0x44 }, { off := 0x48 },
    { off := 0x50, rw := 0xFFFFFFFF }, { off := 0x54, rw := 0xFFFFFFFF },
    { off := 0x58, rd := 0 }, { off := 0x5C },
    { off := 0x60 }, { off := 0x64 },
    { off := 0x68, reset := 0x40, rw := 0xFFFF },
    { off := 0x6C },
    { off := 0x70, reset := 0x1000, rw := 0x1FFFF },
    { off := 0x74 },
    { off := 0x80, reset := 3, rw := 0xF },
    { off := 0x90, stride := 0x10, count := 3, rw := 0xF },
    { off := 0x84, stride := 0x10, count := 4, rw := 0xFFFFFFFF },
    { off := 0x88, stride := 0x10, count := 4 }, { off := 0x8C, stride := 0x10, count := 4 },
    { off := 0xC0, count := 2, reset := 0x200, rw := 0x7FF },
    { off := 0xD0 }, { off := 0xD4 },
    { off := 0xE0, count := 8 } ] ++ cmpRows 0x100 0x20 32

/-- CQ_ common block (05_command_queue.md R127, 07_ridge_engines.md R161). -/
def cqRows : List RegRow :=
  [ { off := 0x00, reset := 0x00010100 }, { off := 0x04, w1s := 1 },
    { off := 0x10, reset := 0x00022222 }, { off := 0x14, reset := 0x00000222 }, { off := 0x18, reset := 0x00000022 },
    { off := 0x20, count := 2, rwl := 0xFFFFFFFF } ]

/-- CQ_ block of a core (R127). -/
def cqcRows : List RegRow :=
  [ { off := 0x00, reset := 0x00010100 }, { off := 0x08, count := 2 },
    { off := 0x10, count := 2, w1c := 0xFFFFFFFF }, { off := 0x18, count := 2, w1s := 0xFFFFFFFF },
    { off := 0x20, count := 4 } ]

/-- DPT_ (06_dispatcher.md R157, R159). -/
def dptRows : List RegRow :=
  [ { off := 0x00, reset := 0x00010100 }, { off := 0x04, reset := 2, rw := 7 }, { off := 0x08, w1s := 1 },
    { off := 0x10, rw := 0xFFFFFFFF }, { off := 0x14, rw := 0xFFFF },
    { off := 0x20, rw := 0x1FFFFC }, { off := 0x24 },
    { off := 0x28, rd := 0 }, { off := 0x2C }, { off := 0x30, rd := 0 },
    { off := 0x40, count := 4 }, { off := 0x50, w1c := 0xF }, { off := 0x54, count := 2 },
    { off := 0x60, count := 12 }, { off := 0xA0, count := 7 },
    { off := 0x1000, stride := 0x20, count := 240, rwl := 0xFFFFFFC0 },
    { off := 0x1004, stride := 0x20, count := 240, rwl := 0xFF },
    { off := 0x1008, stride := 0x20, count := 240, reset := 0x3F, rwl := 0xFFFFFFC0 },
    { off := 0x100C, stride := 0x20, count := 240, rwl := 0xFF },
    { off := 0x1010, stride := 0x20, count := 240, rwl := 0x7F },
    { off := 0x4000, stride := 0x10, count := 256, reset := 0x400, rw := 0x81FFFFFF },
    { off := 0x4004, stride := 0x10, count := 256 }, { off := 0x4008, stride := 0x10, count := 256 },
    { off := 0x6020, stride := 0x40, count := 16, rw := 0x7FFF },
    { off := 0x7000, count := 15 },
    { off := 0x8000, stride := 0x10, count := 48 } ] ++ cmpRows 0x6000 0x40 16

/-- Registers every engine has (07_ridge_engines.md R190); `ctl` holds the writable bits of x_CTL. -/
def engineRows (base ctl : Nat) : List RegRow :=
  [ { off := base, reset := 0x00010100 }, { off := base + 4, rw := ctl }, { off := base + 8, reset := 8 },
    { off := base + 0xC, w1c := 7 }, { off := base + 0x10 }, { off := base + 0x20, count := 5 } ]

/-- TDEC_ and NBE_ (R190, 09_narrowband_engines.md R232). -/
def rengRows : List RegRow :=
  engineRows 0 7 ++ engineRows 0x8000 0xF ++
  [ { off := 0x8034, count := 3 },
    { off := 0x8400, stride := 0x10, count := 128, rw := 0xFFFF1F },
    { off := 0x8404, stride := 0x10, count := 128, reset := 0xC80, rw := 0x3FFF },
    { off := 0x8408, stride := 0x10, count := 128, rw := 0xFFFFFFFF } ]

/-- BFA_ (08_beamforming_array.md R219). -/
def bfaRows : List RegRow :=
  [ { off := 0x00, reset := 0x00010100 }, { off := 0x04, rw := 3 }, { off := 0x08, reset := 8 },
    { off := 0x0C, w1c := 3 }, { off := 0x10, rd := 0 }, { off := 0x14, rw := 0x7FFF },
    { off := 0x20, rw := 0xFFFFFFF0 }, { off := 0x24, rw := 0xFF }, { off := 0x28, rw := 0xFFFF }, { off := 0x2C },
    { off := 0x30, rw := 0xFFFF }, { off := 0x40, count := 6 },
    { off := 0x100, stride := 0x10, count := 16, rw := 0xFFFFF },
    { off := 0x104, stride := 0x10, count := 16, rw := 0xFFFFFFFF },
    { off := 0x108, stride := 0x10, count := 16, rw := 0x3F3F },
    { off := 0x10C, stride := 0x10, count := 16, reset := 3 },
    { off := 0x400, stride := 0x10, count := 64, rw := 0x3FFFF },
    { off := 0x404, stride := 0x10, count := 64, rw := 0x1FFFF },
    { off := 0x408, stride := 0x10, count := 64, rw := 0x1FF01FF },
    { off := 0x820, stride := 0x40, count := 4, rd := 0 },
    { off := 0x824, stride := 0x40, count := 4, rw := 0x1FF01FF },
    { off := 0x828, stride := 0x40, count := 4, reset := 0x78000, rw := 0xFFFFFFFF },
    { off := 0x82C, stride := 0x40, count := 4, rw := 0x7FFF },
    { off := 0x830, stride := 0x40, count := 4, w1c := 2 },
    { off := 0x834, stride := 0x40, count := 4 },
    { off := 0x1000, count := 256, rw := 0xFFFFFF },
    { off := 0x8000, count := 8192, rw := 0xFFFFFFFF } ] ++ cmpRows 0x800 0x40 4

/-- MEM_ (10_memory_protection.md R255). -/
def memRows : List RegRow :=
  [ { off := 0x00, reset := 0x00010100 }, { off := 0x04, reset := 0x4007, rw := 0xFF0F },
    { off := 0x08, w1c := 0x73F }, { off := 0x10, count := 2 }, { off := 0x20 }, { off := 0x24, rw := 0xFFFFFFFF },
    { off := 0x28, count := 6 }, { off := 0x40, count := 8 }, { off := 0x60, count := 8 }, { off := 0x80, count := 3 },
    { off := 0x90, count := 2 }, { off := 0x98, rw := 0xFFFFFFFF }, { off := 0x9C }, { off := 0xA0, w1c := 0xFFFF },
    { off := 0xA4, rd := 0 }, { off := 0xA8 }, { off := 0xB0, rw := 0xFFFFFFFF }, { off := 0xB4, rd := 0 },
    { off := 0x100, rw := 0x7F0, rd := 0x7F4 }, { off := 0x104, rw := 0xFFFFFFFF }, { off := 0x108, rw := 0xFF },
    { off := 0x110, count := 8, rw := 0xFFFFFFFF }, { off := 0x130, count := 2, rw := 0xFFFFFFFF } ]

/-- RSV_ (10_memory_protection.md R256). -/
def rsvRows : List RegRow :=
  [ { off := 0x00, reset := 0x00010100 },
    { off := 0x100, stride := 0x100, count := 2, reset := 0x1007, rw := 0xFF0F },
    { off := 0x104, stride := 0x100, count := 2 },
    { off := 0x108, stride := 0x100, count := 2, w1c := 0x703 },
    { off := 0x110, stride := 0x100, count := 2 },
    { off := 0x114, stride := 0x100, count := 2, rw := 0xFFFFFFFF },
    { off := 0x118, count := 2, stride2 := 0x100, count2 := 2 },
    { off := 0x120, count := 8, stride2 := 0x100, count2 := 2 },
    { off := 0x140, count := 2, stride2 := 0x100, count2 := 2, rw := 0xFFFFFFFF },
    { off := 0x148, stride := 0x100, count := 2 },
    { off := 0x150, count := 2, stride2 := 0x100, count2 := 2 },
    { off := 0x300, rw := 0xFFFFFFFF }, { off := 0x304, rd := 0 },
    { off := 0x400, rw := 0x80, rd := 0x84 }, { off := 0x404, rw := 0xFFFFFFFF }, { off := 0x408, rw := 0xFF },
    { off := 0x410, count := 8, rw := 0xFFFFFFFF }, { off := 0x430, rw := 0xFFFFFFFF },
    { off := 0x600, count := 3, stride2 := 0x10, count2 := 4 } ]

/-- Slots and reset grant of an endpoint (11_leat_fabric.md R265), in the layout of LEAT_EPe_GRANT. -/
def grantReset (e : Nat) : Nat :=
  if e = 36 then 80 * 0x10000 + 2
  else if e = 37 then 160 * 0x10000 + 4
  else if (e / 6) % 3 = 1 then
    (if e % 3 = 0 then 160 * 0x10000 + 4 else if e % 3 = 1 then 192 * 0x10000 + 3 else 640 * 0x10000 + 16)
  else 160 * 0x10000 + 4

/-- Lines of LEAT_EPe_GRANT (R265, R277). -/
def grantRows : List RegRow :=
  (List.range 38).map fun e => { off := 0x200 + 4 * e, reset := grantReset e, rwl := 0xFF }

/-- LEAT_ (11_leat_fabric.md R277). Plan memories 0 to 6 hold free values at reset (R270). -/
def leatRows : List RegRow :=
  [ { off := 0x00, reset := 0x00010100 }, { off := 0x04, reset := 4, rw := 0xF }, { off := 0x08, reset := 0xF0 },
    { off := 0x0C, w1c := 0x3F }, { off := 0x10, w1s := 1 }, { off := 0x14, reset := 0x14, rw := 0x1F },
    { off := 0x18, reset := 0x100, rw := 0xFFFF }, { off := 0x20, count := 3 }, { off := 0x30, count := 2 },
    { off := 0x3C }, { off := 0x100, count := 38 } ] ++ grantRows ++
  [ { off := 0x300, reset := 0x80400706, rwl := 0x80FF3F3F }, { off := 0x304, reset := 0x80400A09, rwl := 0x80FF3F3F },
    { off := 0x308, reset := 0x80401918, rwl := 0x80FF3F3F }, { off := 0x30C, reset := 0x80401C1B, rwl := 0x80FF3F3F },
    { off := 0x310, count := 60, rwl := 0x80FF3F3F },
    { off := 0x400, count := 7, rwl := 0xF }, { off := 0x41C, reset := 0x80000107 },
    { off := 0x500, count := 72 },
    { off := 0x8000, count := 0xE00, rwl := 0xFFFFFFFF }, { off := 0xB800, count := 0x200 } ]

/-- FLM_ at offset base of its block, of n channels (12_flume_engines.md R299). -/
def flmRows (base n : Nat) : List RegRow :=
  [ { off := base, reset := 0x00010100 }, { off := base + 4, reset := n }, { off := base + 0x10, w1c := 0xFFFF },
    { off := base + 0x14, w1s := 0xFFFF }, { off := base + 0x20, count := 2 },
    { off := base + 0x1000, stride := 0x100, count := n, reset := 0xA, rw := 0x3F031F },
    { off := base + 0x1004, stride := 0x100, count := n, reset := 0x200 },
    { off := base + 0x1008, stride := 0x100, count := n, w1c := 0x1F },
    { off := base + 0x1010, stride := 0x100, count := n, rw := 0xFFFFFFE0 },
    { off := base + 0x1014, stride := 0x100, count := n, rw := 0xFF },
    { off := base + 0x1018, count := 2, stride2 := 0x100, count2 := n, rw := 0xFFFF },
    { off := base + 0x1020, stride := 0x100, count := n, rd := 0 },
    { off := base + 0x1024, stride := 0x100, count := n, rw := 0xFFFF },
    { off := base + 0x1028, count := 4, stride2 := 0x100, count2 := n } ] ++ cmpRows (base + 0x1040) 0x100 n

/-- EVF_ (18_events_host_management.md R426). -/
def evfRows : List RegRow :=
  [ { off := 0x00, reset := 0x00010100 }, { off := 0x08, w1c := 1 }, { off := 0x0C }, { off := 0x10, count := 2, rd := 0 },
    { off := 0x20, count := 2 }, { off := 0x2000, count := 2048, rw := 0x7FFFF }, { off := 0x4000, count := 2048 } ]

/-- HIF_ (18_events_host_management.md R427) and the host flumes' FLM_. -/
def hifRows : List RegRow :=
  [ { off := 0x00, reset := 0x00010100 }, { off := 0x04 }, { off := 0x08, w1c := 7 }, { off := 0x0C, w1s := 1 },
    { off := 0x10, reset := 0xF, rwl := 0xF }, { off := 0x18, count := 2 },
    { off := 0x100, reset := 0x40, rwl := 0xFFF }, { off := 0x120, reset := 0x400, rwl := 0xFFF },
    { off := 0x140, stride := 0x20, count := 15, reset := 0x40, rwl := 0xFFF },
    { off := 0x104, stride := 0x20, count := 17, rw := 0xFFFFFFF },
    { off := 0x108, stride := 0x20, count := 17, rw := 0x7FFF },
    { off := 0x10C, stride := 0x20, count := 17, rw := 0x3F },
    { off := 0x110, stride := 0x20, count := 17 },
    { off := 0x400, count := 16, reset := 1, rw := 0x1F }, { off := 0x500, count := 64, reset := 1, rw := 0x11F } ] ++
  flmRows 0x8000 16

/-- LN_ (13_fronthaul_lanes.md R319). -/
def lnRows : List RegRow :=
  [ { off := 0x00, reset := 0x00010100 },
    { off := 0x100, stride := 0x10, count := 6, rw := 1, w1c := 0x100 }, { off := 0x104, stride := 0x10, count := 6 },
    { off := 0x1000, stride := 0x100, count := 24, rw := 0xFF },
    { off := 0x1004, stride := 0x100, count := 24, reset := 0x30003, rw := 3 },
    { off := 0x1008, stride := 0x100, count := 24 },
    { off := 0x100C, stride := 0x100, count := 24, w1c := 0x7F },
    { off := 0x1010, stride := 0x100, count := 24, reset := 0x83000, rw := 0x1F3F0F },
    { off := 0x1014, stride := 0x100, count := 24, rw := 3 },
    { off := 0x1018, stride := 0x100, count := 24, rw := 0x3F3F0F },
    { off := 0x101C, stride := 0x100, count := 24, rw := 0x3F3F3F },
    { off := 0x1020, stride := 0x100, count := 24, reset := 0x403, rw := 0xF0F },
    { off := 0x1024, count := 3, stride2 := 0x100, count2 := 24 },
    { off := 0x1030, stride := 0x100, count := 24, rw := 0x73 },
    { off := 0x1034, stride := 0x100, count := 24, w1c := 2 },
    { off := 0x1038, stride := 0x100, count := 24 },
    { off := 0x103C, stride := 0x100, count := 24, reset := 0xF, rw := 0xF },
    { off := 0x1040, stride := 0x100, count := 24, rd := 0 } ]

/-- FHH_ and the hub's FLM_ (14_fronthaul_framing.md R344, 12_flume_engines.md R299). -/
def fhhRows : List RegRow :=
  [ { off := 0x00, reset := 0x00010100 }, { off := 0x04, reset := 0xDEF0, rw := 0xFFF1 }, { off := 0x08, w1c := 3 },
    { off := 0x0C, reset := 0x800, rw := 0xFFFF }, { off := 0x10, reset := 0x1FFF, rw := 0x1FFF }, { off := 0x20 },
    { off := 0x100, stride := 0x20, count := 16, rw := 7 },
    { off := 0x104, count := 4, stride2 := 0x20, count2 := 16, rw := 0xFFFFFF },
    { off := 0x800, stride := 0x10, count := 16, rw := 0x71 },
    { off := 0x804, count := 2, stride2 := 0x10, count2 := 16 },
    { off := 0xC00, stride := 0x10, count := 16, rw := 0x71 },
    { off := 0xC04, count := 2, stride2 := 0x10, count2 := 16 } ] ++ cmpRows 0x400 0x20 16 ++ flmRows 0x8000 32

/-- ETH_ and ECP_ (R344). -/
def ethRows : List RegRow :=
  [ { off := 0x00, stride := 0x100, count := 24, rw := 0x3F }, { off := 0x04, stride := 0x100, count := 24 },
    { off := 0x08, stride := 8, count := 2, stride2 := 0x100, count2 := 24, rw := 0xFFFFFFFF },
    { off := 0x0C, stride := 8, count := 2, stride2 := 0x100, count2 := 24, rw := 0xFFFF },
    { off := 0x18, stride := 0x100, count := 24, rw := 0xFFFF },
    { off := 0x1C, count := 4, stride2 := 0x100, count2 := 24, rw := 0xFFFFFFFF },
    { off := 0x2C, stride := 0x100, count := 24, reset := 0x111, rw := 0x1FF },
    { off := 0x40, count := 10, stride2 := 0x100, count2 := 24 },
    { off := 0x8000, reset := 0x00010100 }, { off := 0x8004, rw := 1 }, { off := 0x8008, reset := 0xFFFF, rw := 0xFFFF },
    { off := 0x800C, w1c := 0xF }, { off := 0x8010, count := 4 },
    { off := 0x9000, stride := 8, count := 384, rw := 0xFFFFFF },
    { off := 0x9004, stride := 8, count := 384, rw := 0xFFFFF } ]

/-- CPRI_ and TRK_ (R344). -/
def cpriRows : List RegRow :=
  [ { off := 0x00, reset := 0x00010100 },
    { off := 0x100, stride := 0x40, count := 12, rw := 0xF3F }, { off := 0x104, stride := 0x40, count := 12 },
    { off := 0x108, stride := 0x40, count := 12, reset := 0x200, rw := 0xFFFF07 },
    { off := 0x10C, count := 2, stride2 := 0x40, count2 := 12 },
    { off := 0x1000, stride := 0x10, count := 64, rw := 0x3FFFFFFF },
    { off := 0x8000, reset := 0x00010100 }, { off := 0x8004 }, { off := 0x8008, w1c := 3 },
    { off := 0x8100, stride := 0x20, count := 24, rw := 0x1F07F },
    { off := 0x8104, stride := 0x20, count := 24, rw := 0xFFFFFF },
    { off := 0x8108, count := 5, stride2 := 0x20, count2 := 24 },
    { off := 0x8400, count := 4, stride2 := 0x10, count2 := 24 },
    { off := 0x9000, count := 255, rw := 0x1FFFF } ]

/-- SLC_ (15_sluices_power.md R369). -/
def slcRows : List RegRow :=
  [ { off := 0x00, reset := 0x00010100 }, { off := 0x04, rw := 0xF }, { off := 0x08 }, { off := 0x0C, w1c := 0xF },
    { off := 0x10, reset := 0x7AE, rw := 0xFFFFF }, { off := 0x14, reset := 0x2666, rw := 0xFFFFF }, { off := 0x18 },
    { off := 0x1C, reset := 1, rw := 3 }, { off := 0x20, count := 4 },
    { off := 0x100, stride := 8, count := 62, reset := 7, rw := 0x77 },
    { off := 0x1C4, stride := 8, count := 24, reset := 0x44 },
    { off := 0x104, stride := 8, count := 62 },
    { off := 0x400, count := 24, rw := 0xFFFF }, { off := 0x480, stride := 0x10, count := 4, reset := 4, rw := 3 },
    { off := 0x500, stride := 8, count := 4, rw := 0xFFFFFFFF }, { off := 0x504, stride := 8, count := 4, rw := 0xFFFF },
    { off := 0x600, count := 2, rw := 0x80FFFFFF } ] ++ cmpRows 0x1000 0x20 32

/-- BOOT_ and FUSE_ (16_startup_images_modes.md R381, R390). Fuses and straps hold the model's choice (assumption 3). -/
def bootRows : List RegRow :=
  [ { off := 0x00, reset := 0x00010100 }, { off := 0x04 }, { off := 0x08, reset := 1 }, { off := 0x10, reset := 1 },
    { off := 0x14, count := 3 }, { off := 0x20, reset := 1, rw := 0x1FF }, { off := 0x24, count := 2 },
    { off := 0x8000 }, { off := 0x8004, w1s := 0xF }, { off := 0x8008, count := 2 },
    { off := 0x8100, count := 8, stride2 := 0x20, count2 := 4 } ]

/-- MBX_ (R390). -/
def mbxRows : List RegRow :=
  [ { off := 0x00, reset := 0x00010100 }, { off := 0x04 }, { off := 0x08, rw := 0xFFFFFFC0 }, { off := 0x0C, rw := 0xFF },
    { off := 0x10, rd := 0 }, { off := 0x14, rd := 0 }, { off := 0x18, count := 2 } ]

/-- HKD_ and HKA_ (17_housekeeping_converters.md R409, R410). -/
def hkRows : List RegRow :=
  [ { off := 0x00, reset := 0x00010100 }, { off := 0x04, reset := 3, rw := 3 }, { off := 0x08 }, { off := 0x0C, w1c := 0x1F },
    { off := 0x10, rd := 0 }, { off := 0x14, rw := 0xF }, { off := 0x18, w1s := 1 }, { off := 0x1C, rd := 0 },
    { off := 0x20, rw := 0xFFFFFFFF }, { off := 0x24, rw := 0xFFFF },
    { off := 0x100, stride := 0x40, count := 8, reset := 0x20, rw := 0x1FF },
    { off := 0x104, stride := 0x40, count := 8, w1c := 0x700 },
    { off := 0x108, stride := 0x40, count := 8, rw := 0xFFFF }, { off := 0x10C, stride := 0x40, count := 8 },
    { off := 0x110, stride := 0x40, count := 8, reset := 0xFFFF0000, rwl := 0xFFFFFFFF },
    { off := 0x114, stride := 0x40, count := 8 },
    { off := 0x118, stride := 0x40, count := 8, reset := 0x3F00, rw := 0x3F3F3F },
    { off := 0x11C, stride := 0x40, count := 8, reset := 0x100, rw := 0xFFFFF },
    { off := 0x120, stride := 0x40, count := 8, rd := 0 },
    { off := 0x124, stride := 0x40, count := 8, reset := 0x3010, rw := 0xFFFF },
    { off := 0x1000, count := 64, stride2 := 0x100, count2 := 8, rw := 0x1FFFF },
    { off := 0x8000, reset := 0x00010100 }, { off := 0x8010, reset := 0x500A90, rw := 0xFF0FFF }, { off := 0x8014 },
    { off := 0x8100, reset := 3, rw := 0xF }, { off := 0x8200, rw := 0xF }, { off := 0x8104, stride := 0x100, count := 2 },
    { off := 0x8108, reset := 0x1FFFFF00, rw := 0xFFFFFFFF }, { off := 0x8208, rw := 0xFFFFFFFF },
    { off := 0x810C, stride := 0x100, count := 2, rd := 0 }, { off := 0x8110, stride := 0x100, count := 2 },
    { off := 0x8114, count := 2, stride2 := 0x100, count2 := 2, rw := 0xFFFFFFFF },
    { off := 0x8120, stride := 0x100, count := 2, w1c := 3 },
    { off := 0x9000, count := 32, stride2 := 0x100, count2 := 2 },
    { off := 0xA000, count := 32, stride2 := 0x100, count2 := 2, reset := 0x0FFF0000, rw := 0x8FFF0FFF } ] ++
  cmpRows 0x2000 0x20 8

/-- The registers of a block. -/
def rowsOf : Block → List RegRow
  | .slc => slcRows
  | .tb => tbRows
  | .evf => evfRows
  | .leat => leatRows
  | .boot => bootRows
  | .mbx => mbxRows
  | .hk => hkRows
  | .rsv => rsvRows
  | .hif => hifRows
  | .dpt _ => dptRows
  | .bfa _ => bfaRows
  | .reng _ => rengRows
  | .hub _ j => if j = 0 then lnRows else if j = 1 then fhhRows else if j = 2 then ethRows else cpriRows
  | .flm _ => flmRows 0 16
  | .mem _ => memRows
  | .fec _ => engineRows 0 7
  | .fft _ => engineRows 0 7
  | .eq _ => engineRows 0 7
  | .cq _ => cqRows
  | .cqc _ _ => cqcRows

/-- Offset of a block's LOCK register, where it has one (R7). -/
def lockOff : Block → Option Nat
  | .leat => some 0x10
  | .dpt _ => some 0x8
  | .cq _ => some 0x4
  | .hif => some 0xC
  | .hk => some 0x18
  | _ => none

/-- Reset values that differ with the part: FUSE_SEC, BOOT_CHIP (R381, R390), the domains of range 3 (15_sluices_power.md R348), the
endpoints of range 3 and LEAT_STATUS (11_leat_fabric.md R277). -/
def partReset (p : Part) (b : Block) (o : Nat) : Option Nat :=
  match p, b with
  | .gh9600, _ => none
  | .gh9672, .boot => if o = 0x8 then some 0x11 else if o = 0x8000 then some 0x100 else none
  | .gh9672, .slc =>
    if 0x104 ≤ o ∧ o < 0x2F4 ∧ o % 8 = 4 then
      let d := (o - 0x104) / 8
      if (18 ≤ d ∧ d < 24) ∨ (42 ≤ d ∧ d < 48) ∨ d = 51 ∨ d = 55 ∨ d = 59 then some 0xC4 else none
    else none
  | .gh9672, .leat =>
    if o = 0x8 then some 0x771
    else if 0x100 ≤ o ∧ o < 0x190 ∧ o % 4 = 0 ∧ epRange ((o - 0x100) / 4) = 3 then some 3
    else none
  | .gh9672, _ => none

/-- What a register holds at reset: its line's value; offsets no register occupies hold 0 (R8). -/
def regReset (p : Part) (a : Nat) : Word :=
  match targetOf a with
  | .block b o =>
    match partReset p b o with
    | some w => BitVec.ofNat 32 w
    | none =>
      match rowAt (rowsOf b) o with
      | some r => BitVec.ofNat 32 r.reset
      | none => 0
  | _ => 0

end Sys2Proof.Machine
end

