-- ==== Sys2Proof/Machine/Sparse.lean ====
section
/-! DEFINITION. A store of values by number in one canonical form: keys strictly rising, no entry equal to the
value an unlisted key reads as. Memory, the register file and every large table of the device are held so. -/

namespace Sys2Proof.Machine

/-- The value at key k; an unlisted key reads as dflt k. -/
def sget {α : Type} (dflt : Nat → α) : List (Nat × α) → Nat → α
  | [], k => dflt k
  | (j, v) :: r, k => if j = k then v else sget dflt r k

/-- The list without key k. -/
def serase {α : Type} (k : Nat) : List (Nat × α) → List (Nat × α)
  | [] => []
  | (j, v) :: r => if j = k then serase k r else (j, v) :: serase k r

/-- The list with (k, v) put before the first greater key. -/
def sinsert {α : Type} (k : Nat) (v : α) : List (Nat × α) → List (Nat × α)
  | [] => [(k, v)]
  | (j, u) :: r => if k < j then (k, v) :: (j, u) :: r else (j, u) :: sinsert k v r

/-- The store with v at key k; the value an unlisted key reads as removes the entry. -/
def sset {α : Type} [DecidableEq α] (dflt : Nat → α) (l : List (Nat × α)) (k : Nat) (v : α) : List (Nat × α) :=
  if v = dflt k then serase k l else sinsert k v (serase k l)

/-- Every listed key is above b, keys rise, and no entry holds what an unlisted key reads as. -/
def swfFrom {α : Type} [DecidableEq α] (dflt : Nat → α) : Nat → List (Nat × α) → Bool
  | _, [] => true
  | b, (j, v) :: r => decide (b ≤ j) && !decide (v = dflt j) && swfFrom dflt (j + 1) r

/-- The canonical form of a store. -/
def swf {α : Type} [DecidableEq α] (dflt : Nat → α) (l : List (Nat × α)) : Bool := swfFrom dflt 0 l

end Sys2Proof.Machine
end

