-- ==== Sys2Proof/Machine/Ops.lean ====
section
/-! DEFINITION. The named operations every unit shares: registers, events, messages, replicas, comparators, domains, the plane
rule, memory bytes and free values. -/

namespace Sys2Proof.Machine

/-- What a command answers. -/
abbrev Out := Host.Outcome State Fault Refusal

/-- The command acts unless a reset ball is held low (19_package_electrical.md R445). -/
def run (s : State) (f : State → State) : Out := .next (if s.held = none then f s else s)

/-- The command acts where its condition holds and no reset ball is low; it leaves the state as it is elsewhere
(assumption 1). -/
def act (s : State) (c : Prop) [Decidable c] (f : State → State) : Out :=
  .next (if s.held = none ∧ c then f s else s)

/-- The state after `f` where `c` holds. -/
def doIf (c : Prop) [Decidable c] (f : State → State) (s : State) : State := if c then f s else s

/-! Registers -/

/-- The address is one of the memories of plans 0 to 6 (11_leat_fabric.md R270, R277). -/
def isPlanMem (a : Nat) : Bool := decide (Block.leat.base + 0x8000 ≤ a ∧ a < Block.leat.base + 0xB800)

/-- What an unlisted register holds: its reset value; the memories of plans 0 to 6 hold what the last reset left there,
a free value (R270). -/
def State.regDflt (s : State) (a : Nat) : Word :=
  if isPlanMem a then Config.planWord s.planGen a else regReset s.part a

/-- Value of the register at a device address. -/
def State.reg (s : State) (a : Nat) : Word := sget s.regDflt s.regs a

/-- The state with the register at a device address set. -/
def State.setReg (s : State) (a : Nat) (v : Word) : State :=
  { s with regs := sset s.regDflt s.regs a v }

/-- A bit of a register. -/
def State.regBit (s : State) (a i : Nat) : Bool := bit (s.reg a) i

/-- A field of a register. -/
def State.regFld (s : State) (a hi lo : Nat) : Nat := fld (s.reg a) hi lo

/-- The state with a field of a register set. -/
def State.setRegFld (s : State) (a hi lo x : Nat) : State := s.setReg a (setFld (s.reg a) hi lo x)

/-- The state with a bit of a register set. -/
def State.setRegBit (s : State) (a i : Nat) (b : Bool) : State := s.setReg a (setBit (s.reg a) i b)

/-- A register of two words, low word first. -/
def State.reg64 (s : State) (a : Nat) : Nat := (s.reg a).toNat + 2 ^ 32 * (s.reg (a + 4)).toNat

/-- The state with a register of two words set. -/
def State.setReg64 (s : State) (a : Nat) (v : Nat) : State :=
  (s.setReg a (BitVec.ofNat 32 v)).setReg (a + 4) (BitVec.ofNat 32 (v / 2 ^ 32))

/-- A counter that wraps goes up by n. -/
def State.countUp (s : State) (a : Nat) (n : Nat := 1) : State := s.setReg a (s.reg a + BitVec.ofNat 32 n)

/-- A counter that saturates goes up by n. -/
def State.countSat (s : State) (a : Nat) (n : Nat := 1) : State := s.setReg a (satAdd (s.reg a) n)

/-- Every register at a block's offsets lo to below hi holds its reset value again. -/
def State.resetRegs (s : State) (lo hi : Nat) : State :=
  { s with regs := s.regs.filter (fun e => decide (e.1 < lo ∨ hi ≤ e.1)) }

/-! Lists of the state -/

/-- The element at i of a list kept in a table with a default. -/
def upd {α : Type} [DecidableEq α] (dflt : Nat → α) (l : List (Nat × α)) (k : Nat) (f : α → α) : List (Nat × α) :=
  sset dflt l k (f (sget dflt l k))

/-! Events (18_events_host_management.md R411) -/

/-- Address of the route entry of source i. -/
def routeAddr (i : Nat) : Nat := Block.evf.base + 0x2000 + 4 * i

/-- Address of the counter of source i. -/
def countAddr (i : Nat) : Nat := Block.evf.base + 0x4000 + 4 * i

/-- Source i raises its event: its counter goes up and the raise waits for delivery under the route entry as it
stands (R411, R413). -/
def State.raise (s : State) (i : Nat) : State :=
  let s := s.countUp (countAddr i)
  { s with events := s.events ++ [(i, s.reg (routeAddr i))] }

/-- The event is raised where the condition holds. -/
def State.raiseIf (s : State) (c : Bool) (i : Nat) : State := if c then s.raise i else s

/-- A message leaves the device. -/
def State.emit (s : State) (m : OutMsg) : State := { s with out := s.out ++ [m] }

/-! Free values -/

/-- The next free value is drawn: the model's own counter goes up (assumption 5). -/
def State.draw (s : State) : State := { s with freeCtr := s.freeCtr + 1 }

/-! Device time (02_device_time.md) -/

/-- Value of a replica (R30). -/
def State.replica (s : State) (r : ReplicaId) : Time :=
  s.tb.now + BitVec.ofInt 64 (sget (fun _ => 0) s.replicas r.index)

/-- Every replica shows the master count plus its own difference; this sets the difference. -/
def State.setReplica (s : State) (r : ReplicaId) (d : Int) : State :=
  { s with replicas := sset (fun _ => 0) s.replicas r.index d }

/-- TB_FRAME_OFS (R28). -/
def State.frameOfs (s : State) : Nat := s.reg64 (Block.tb.base + 0x30)

/-- The operating mode, BOOT_MODE.MODE (16_startup_images_modes.md R385). -/
def State.mode (s : State) : Nat := s.regFld (Block.boot.base + 0x20) 3 0

/-- The mode a change in progress goes to, BOOT_MODE.TARGET, else MODE (R387). -/
def State.modeTarget (s : State) : Nat :=
  if s.regBit (Block.boot.base + 0x20) 8 then s.regFld (Block.boot.base + 0x20) 7 4 else s.mode

/-- SYNC-ACQUIRE, MAINTENANCE and FACTORY permit steps (R39). -/
def modeSteps (m : Nat) : Bool := m = 2 || m = 3 || m = 11

/-- The current mode permits steps; during a change both modes must (R387). -/
def State.stepMode (s : State) : Bool := modeSteps s.mode && modeSteps s.modeTarget

/-- The COMPAT_GH24 configuration bit (16_startup_images_modes.md R371). -/
def State.compat (s : State) : Bool := s.regBit (Block.boot.base + 4) 0

/-! Domains (15_sluices_power.md R345, R346) -/

/-- Address of SLC_DOMd_STATE. -/
def domState (d : Nat) : Nat := Block.slc.base + 0x104 + 8 * d

/-- SLC_DOMd_STATE.STATE: 0 RUN, 1 DOZE, 2 SLEEP, 3 DEEP, 4 OFF. -/
def State.dom (s : State) (d : Nat) : Nat := s.regFld (domState d) 2 0

/-- The range is one the part has. -/
def State.hasRange (s : State) (r : Nat) : Bool := s.part.hasRange r

/-- Ridge n is present and runs. -/
def State.ridgeOn (s : State) (n : Nat) : Bool := s.hasRange (n / 6) && decide (s.dom n = 0)

/-- The infrastructure of range r is present and runs; in DEEP it runs on FIO (R346). -/
def State.rinfOn (s : State) (r : Nat) : Bool := s.hasRange r && decide (s.dom (52 + r) = 0 ∨ s.dom (52 + r) = 3)

/-- The range fabric of range r is present and runs: its routers, the command front ends, the hub's framing. -/
def State.rfabOn (s : State) (r : Nat) : Bool := s.hasRange r && decide (s.dom (48 + r) = 0)

/-- BFA r is present and runs. -/
def State.bfaOn (s : State) (r : Nat) : Bool := s.hasRange r && decide (s.dom (56 + r) = 0)

/-- BFA r runs and its memories are not being cleared after it was switched on (R360). -/
def State.bfaReady (s : State) (r : Nat) : Bool := s.bfaOn r && decide (56 + r ∉ s.slc.clearing)

/-- A voter has accepted an open transaction of domain d: it starts no new work for it (R355). -/
def State.voted (s : State) (d voter : Nat) : Bool :=
  s.slc.txns.any fun t => decide (t.dom = d) && decide ((voter, 0) ∈ t.votes)

/-- A flume channel's engine is clocked. -/
def State.flumeOn (s : State) : FlumeId → Bool
  | .ridge n _ => s.ridgeOn n.val
  | .hub h _ => s.rfabOn h.val
  | .host _ => true

/-- An engine is clocked and present. -/
def State.engineOn (s : State) : EngId → Bool
  | .codec n => s.ridgeOn n.val
  | .fft n => s.ridgeOn n.val
  | .eq n => s.ridgeOn n.val
  | .turbo r => s.rinfOn r.val
  | .nbe r => s.rinfOn r.val

/-- The unit of a comparator is clocked, so that the comparator is evaluated (R352). -/
def State.cmpOn (s : State) : CmpId → Bool
  | .gt _ => true
  | .flume f => s.flumeOn f
  | .tp r _ => s.rinfOn r.val
  | .seq r _ => s.bfaOn r.val
  | .sch h _ => s.rfabOn h.val
  | .dac _ => true
  | .slc _ => true

/-! Comparators (02_device_time.md R33 to R36) -/

/-- STATUS.ARMED of a comparator. -/
def State.armed (s : State) (c : CmpId) : Bool := s.regBit (c.base + 0x10) 0

/-- The armed target of a comparator. -/
def State.target (s : State) (base : Nat) : Time := sget (fun _ => 0) s.targets base

/-- A comparator armed on a target. -/
def State.armAt (s : State) (base : Nat) (t : Time) : State :=
  let s := { s with targets := sset (fun _ => 0) s.targets base t }
  s.setReg (base + 0x10) (setFld (setBit (s.reg (base + 0x10)) 0 true) 15 8 0)

/-- A comparator disarmed without firing. -/
def State.disarm (s : State) (base : Nat) : State := s.setRegBit (base + 0x10) 0 false

/-- A write to CTL holds an ARM that is refused: PERIODIC is set with it and PERIOD is below 256 (R35). -/
def State.cmpRefuses (s : State) (base : Nat) (v : Word) : Bool :=
  bit v 0 && bit v 2 && decide ((s.reg (base + 8)).toNat < 256)

/-- A write to CTL: PERIODIC and EVT_EN are stored; DISARM, then ARM (R33, R35, R36). A refused ARM sets ERR and leaves the comparator as it
was, but for a DISARM in the same write (assumption 70). -/
def State.cmpCtl (s : State) (base : Nat) (v : Word) : State :=
  let t := if bit v 1 then s.disarm base else s
  if s.cmpRefuses base v then t.setRegBit (base + 0x10) 3 true
  else
    let t := t.setRegFld (base + 0xC) 3 2 (fld v 3 2)
    if bit v 0 then t.armAt base (BitVec.ofNat 64 (t.reg64 base)) else t

/-- The replica has reached the armed target (R34). -/
def State.cmpDue (s : State) (c : CmpId) : Bool :=
  s.armed c && decide ((s.target c.base).toNat ≤ (s.replica c.replica).toNat)

/-- The fire would be late: V − T is 2 or more (R34). -/
def State.cmpLate (s : State) (c : CmpId) : Bool :=
  decide ((s.target c.base).toNat + 2 ≤ (s.replica c.replica).toNat)

/-- What every fire does, before its unit's action: STATUS, FIRED_AT, the lateness count and event 1642, and the re-arm of
R35 (R34, R35, R49). -/
def State.cmpFire (s : State) (c : CmpId) : State :=
  let b := c.base
  let v := (s.replica c.replica).toNat
  let t := (s.target b).toNat
  let late := s.cmpLate c
  let s := s.setRegBit (b + 0x10) 1 true
  let s := s.setReg (b + 0x14) (BitVec.ofNat 32 v)
  let s := if late then ((s.setRegBit (b + 0x10) 2 true).countSat (Block.tb.base + 0x6C)).raise 1642 else s
  let p := (s.reg (b + 8)).toNat
  if s.regBit (b + 0xC) 2 then
    if p < 256 then (s.setRegBit (b + 0x10) 3 true).disarm b
    else
      let skip := if t + p ≤ v then (v - (t + p)) / p + 1 else 0
      let s := { s with targets := sset (fun _ => 0) s.targets b (BitVec.ofNat 64 (t + p + skip * p)) }
      s.setRegFld (b + 0x10) 15 8 (min 255 (s.regFld (b + 0x10) 15 8 + skip))
  else s.disarm b

/-- CTL.EVT_EN of a comparator. -/
def State.cmpEvt (s : State) (c : CmpId) : Bool := s.regBit (c.base + 0xC) 3

/-! The plane rule (01_device_overview.md R19) -/

/-- A write refused to the requester's plane: the address and endpoint are recorded and event 2000 is raised (R19,
18_events_host_management.md R426). -/
def State.violation (s : State) (req : Requester) (a : Nat) : State :=
  let s := s.setReg (Block.evf.base + 0x20) (BitVec.ofNat 32 a)
  let s := s.setReg (Block.evf.base + 0x24) (BitVec.ofNat 32 (a / 2 ^ 32 % 256 + 256 * req.endpoint))
  { s.raise 2000 with acc := .busError }

/-- The access ended as a bus error (R15, 10_memory_protection.md R246). -/
def State.busError (s : State) : State := { s with acc := .busError }

/-! Memory bytes. Beside the map's addresses, memory holds spaces without addresses, above 2^40. -/

/-- What an unlisted byte of memory reads as (assumption 4). -/
def memDefault (_ : Nat) : Byte := 0

/-- A byte of memory. -/
def State.byte (s : State) (a : Nat) : Byte := sget memDefault s.mem a

/-- Memory with a byte written. -/
def State.setByte (s : State) (a : Nat) (b : Byte) : State := { s with mem := sset memDefault s.mem a b }

/-- Bytes of memory from an address. -/
def State.bytes (s : State) (a n : Nat) : List Byte := (List.range n).map (fun i => s.byte (a + i))

/-- Memory with bytes written from an address. -/
def State.setBytes (s : State) : Nat → List Byte → State
  | _, [] => s
  | a, b :: bs => (s.setByte a b).setBytes (a + 1) bs

/-- A little-endian number of n bytes of memory. -/
def State.leAt (s : State) (a n : Nat) : Nat := ofBytes (s.bytes a n)

/-- Memory with a little-endian number of n bytes written. -/
def State.setLe (s : State) (a n v : Nat) : State := s.setBytes a (toBytes n v)

/-- Base of a memory that has no address in the map. -/
def spaceBase (k : Nat) : Nat := (k + 1) * 2 ^ 40

/-- Antenna-buffer pages of BFA r (08_beamforming_array.md R194). -/
def spacePages (r : Nat) : Nat := spaceBase r

/-- Weight memory of BFA r (R206). -/
def spaceWeights (r : Nat) : Nat := spaceBase (4 + r)

/-- The context store of dispatcher r, as the codewords of its memory are numbered (06_dispatcher.md R129); its words are in State.ctx. -/
def spaceCtx (r : Nat) : Nat := spaceBase (9 + r)

/-- The boot flash (16_startup_images_modes.md R372). -/
def spaceFlash : Nat := spaceBase 8

/-- PCIe memory as the device's own requests see it (18_events_host_management.md R420). -/
def spaceHost : Nat := spaceBase 1024

/-! Units of the state's vectors -/

/-- The state with core x changed. -/
def State.modCore (s : State) (x : Fin 192) (f : Core → Core) : State := { s with cores := s.cores.set x (f s.cores[x]) }

/-- The engine. -/
def State.eng (s : State) (e : EngId) : Engine := s.engines[e.index]'(e.index_lt)

/-- The state with an engine changed. -/
def State.modEng (s : State) (e : EngId) (f : Engine → Engine) : State :=
  { s with engines := s.engines.set e.index (f (s.engines[e.index]'(e.index_lt))) e.index_lt }

/-- The state with dispatcher r changed. -/
def State.modDpt (s : State) (r : Fin 4) (f : Dispatcher → Dispatcher) : State := { s with dpts := s.dpts.set r (f s.dpts[r]) }

/-- The state with BFA r changed. -/
def State.modBfa (s : State) (r : Fin 4) (f : Bfa → Bfa) : State := { s with bfas := s.bfas.set r (f s.bfas[r]) }

/-- The state with hub h changed. -/
def State.modHub (s : State) (h : Fin 4) (f : Hub → Hub) : State := { s with hubs := s.hubs.set h (f s.hubs[h]) }

/-- A free value of a draw. -/
def State.free (s : State) (i : Nat) : Nat := Config.freeNat s.freeCtr i

/-- The channel of a flume. -/
def State.chan (s : State) (f : FlumeId) : Chan := sget (fun _ => {}) s.chans f.index

/-- The state with a flume channel changed. -/
def State.modChan (s : State) (f : FlumeId) (g : Chan → Chan) : State :=
  { s with chans := upd (fun _ => {}) s.chans f.index g }

/-- A number as an index of one of n units. -/
def unitOf (n i : Nat) (h : 0 < n) : Fin n := ⟨i % n, Nat.mod_lt i h⟩

/-- Range of a core. -/
def coreRange (x : Fin 192) : Fin 4 := ⟨x.val / 48, by omega⟩

/-- Ridge of a core. -/
def coreRidge (x : Fin 192) : Fin 24 := ⟨x.val / 8, by omega⟩

/-- Range of a ridge. -/
def ridgeRange (n : Fin 24) : Fin 4 := ⟨n.val / 6, by omega⟩

end Sys2Proof.Machine
end

