-- ==== Sys2Proof/Machine/Bank.lean ====
section
/-! DEFINITION. The banked registers of a core as words and frames: writes in flight, the bank exchange, and the scalar and
vector frames of the context store (03_tarn_scalar.md R62, R89; 06_dispatcher.md R128, R132, R133). -/

namespace Sys2Proof.Machine

/-- The register's bits under a mask replaced. -/
def maskPut {w : Nat} (old : BitVec w) (mask val : Nat) : BitVec w :=
  (old &&& ~~~(BitVec.ofNat w mask)) ||| (BitVec.ofNat w val &&& BitVec.ofNat w mask)

/-- A write in flight lands in the bank (R62). -/
def Bank.put (b : Bank) (p : Pend) : Bank :=
  match p.reg with
  | .d i => { b with d := b.d.set i (maskPut b.d[i] p.mask p.val) }
  | .acc i => { b with acc := b.acc.set i (maskPut b.acc[i] p.mask p.val) }
  | .a i => { b with a := b.a.set i (maskPut b.a[i] p.mask p.val) }
  | .sv i => { b with sv := b.sv.set i (maskPut b.sv[i] p.mask p.val) }
  | .lv i => { b with lv := b.lv.set i (maskPut b.lv[i] p.mask p.val) }
  | .vacc i => { b with vacc := b.vacc.set i (maskPut b.vacc[i] p.mask p.val) }

/-- Bundles in flight complete: every write in flight lands, oldest first (R88). -/
def Core.drain (c : Core) : Core := { c with fg := c.pend.foldl Bank.put c.fg, pend := [] }

/-- The foreground and shadow banks exchange roles (R89). -/
def Core.exchange (c : Core) : Core :=
  let c := c.drain
  { c with fg := c.sh, sh := c.fg, delay := none, repOn := false, rfeHold := false, wait := none }

/-- An address of a bundle: bits 3:0 are 0 (R51). -/
def bundleAddr (a : Addr) : Addr := a &&& ~~~0xF

/-- tc.status as it reads: COMPAT mirrors the strap. -/
def statusView (compat : Bool) (st : Word) : Word := setBit (st &&& 0x7FF) 3 compat

/-! The context store -/

/-- What an unlisted word of a context store holds: 0, but 63 in RUN_CORE of a TCB that no dispatch has written (06_dispatcher.md
R131, 15_sluices_power.md R360; log entry 116). -/
def ctxDflt (k : Nat) : Word := if k % 2 ^ 21 < 0x20000 ∧ k % 0x80 = 44 then 0x3F0000 else 0

/-- Word of the context store of dispatcher r at a byte offset (R128). -/
def State.ctxW (s : State) (r off : Nat) : Word := sget ctxDflt s.ctx (r * 2 ^ 21 + off)

/-- The context store with a word set. -/
def State.setCtxW (s : State) (r off : Nat) (v : Word) : State :=
  { s with ctx := sset ctxDflt s.ctx (r * 2 ^ 21 + off) v }

/-- A number of n words of the context store, lowest word first. -/
def State.ctxN (s : State) (r off : Nat) : Nat → Nat
  | 0 => 0
  | n + 1 => (s.ctxW r off).toNat + 2 ^ 32 * s.ctxN r (off + 4) n

/-- The context store with a number of n words set. -/
def State.setCtxN (s : State) (r off : Nat) (v : Nat) : Nat → State
  | 0 => s
  | n + 1 => (s.setCtxW r off (BitVec.ofNat 32 v)).setCtxN r (off + 4) (v / 2 ^ 32) n

/-- Offset of the scalar frame of a TCB, and of a vector frame (R128). -/
def scalarOff (t : Nat) : Nat := 0x20000 + t * 0x200

/-- Offset of vector frame f (R128). -/
def vectorOff (f : Nat) : Nat := 0xA0000 + f * 0x800

/-- The bank as its frames hold it (R132); without a vector frame the vector registers are 0 (R133). -/
def State.loadFrames (s : State) (r t : Nat) (vf : Option Nat) : Bank :=
  let o := scalarOff t
  let q (off : Nat) : Nat := s.ctxN r (o + off) 2
  let w (off : Nat) : Word := s.ctxW r (o + off)
  let b : Bank := {
    d := Vector.ofFn fun i => w (4 * i.val)
    acc := Vector.ofFn fun i => BitVec.ofNat 40 (q (0x80 + 8 * i.val))
    a := Vector.ofFn fun i => BitVec.ofNat 40 (q (0xA0 + 8 * i.val))
    cb := Vector.ofFn fun i => BitVec.ofNat 40 (q (0x120 + 8 * i.val))
    cl := Vector.ofFn fun i => (w (0x160 + 4 * i.val)).setWidth 24
    pc := bundleAddr (BitVec.ofNat 40 (q 0x180))
    status := w 0x188
    amode := (w 0x18C).setWidth 8
    ls := Vector.ofFn fun i => BitVec.ofNat 40 (q (0x190 + 8 * i.val))
    le := Vector.ofFn fun i => BitVec.ofNat 40 (q (0x1A8 + 8 * i.val))
    lc := Vector.ofFn fun i => w (0x1C0 + 4 * i.val)
    rc := (w 0x1CC).setWidth 16
    vxi := (w 0x1D0).setWidth 7 }
  match vf with
  | none => b
  | some f =>
    let o := vectorOff f
    { b with
      sv := Vector.ofFn fun i => BitVec.ofNat 128 (s.ctxN r (o + 16 * i.val) 4)
      lv := Vector.ofFn fun i => BitVec.ofNat 1024 (s.ctxN r (o + 0x100 + 128 * i.val) 32)
      vacc := Vector.ofFn fun i => BitVec.ofNat 1536 (s.ctxN r (o + 0x500 + 192 * i.val) 48) }

/-- Entries of a register vector saved to the context store, w words each. -/
def State.saveVec {n : Nat} (s : State) (r off w : Nat) (v : Vector Nat n) : State :=
  (List.range n).foldl (fun t i => t.setCtxN r (off + 4 * w * i) (v.toList.getD i 0) w) s

/-- The bank written to its frames (R132); without a vector frame the vector registers are not saved (R133). -/
def State.saveFrames (s : State) (r t : Nat) (vf : Option Nat) (b : Bank) : State :=
  let o := scalarOff t
  let s := s.saveVec r o 1 (b.d.map BitVec.toNat)
  let s := s.saveVec r (o + 0x80) 2 (b.acc.map (fun x => (x.signExtend 64).toNat))
  let s := s.saveVec r (o + 0xA0) 2 (b.a.map BitVec.toNat)
  let s := s.saveVec r (o + 0x120) 2 (b.cb.map BitVec.toNat)
  let s := s.saveVec r (o + 0x160) 1 (b.cl.map BitVec.toNat)
  let s := s.setCtxN r (o + 0x180) b.pc.toNat 2
  let s := s.setCtxW r (o + 0x188) (statusView s.compat b.status)
  let s := s.setCtxW r (o + 0x18C) (b.amode.setWidth 32)
  let s := s.saveVec r (o + 0x190) 2 (b.ls.map BitVec.toNat)
  let s := s.saveVec r (o + 0x1A8) 2 (b.le.map BitVec.toNat)
  let s := s.saveVec r (o + 0x1C0) 1 (b.lc.map BitVec.toNat)
  let s := s.setCtxW r (o + 0x1CC) (b.rc.setWidth 32)
  let s := s.setCtxW r (o + 0x1D0) (b.vxi.setWidth 32)
  match vf with
  | none => s
  | some f =>
    let o := vectorOff f
    let s := s.saveVec r o 4 (b.sv.map BitVec.toNat)
    let s := s.saveVec r (o + 0x100) 32 (b.lv.map BitVec.toNat)
    s.saveVec r (o + 0x500) 48 (b.vacc.map BitVec.toNat)

end Sys2Proof.Machine
end

