-- ==== Sys2Proof/Machine/Signals.lean ====
section
/-! DEFINITION. Signals that units send one another: flag posts to threads (06_dispatcher.md R134 to R137), doorbells of flume
channels (12_flume_engines.md R282, R283), host queues (18_events_host_management.md R419) and wake requests. -/

namespace Sys2Proof.Machine

/-! Lists of numbers -/

/-- A list without an element. -/
def without (l : List Nat) (k : Nat) : List Nat := l.filter fun m => decide (m ≠ k)

/-- A list with an element. -/
def withIn (l : List Nat) (k : Nat) : List Nat := if k ∈ l then l else l ++ [k]

/-! Thread control blocks (R131) -/

/-- Address of a DPT_ register of dispatcher r. -/
def dptA (r : Fin 4) (off : Nat) : Nat := (Block.dpt r.val).base + off

/-- Word of a TCB. -/
def State.tcb (s : State) (r : Fin 4) (t off : Nat) : Word := s.ctxW r.val (t * 0x80 + off)

/-- The state with a word of a TCB set. -/
def State.setTcb (s : State) (r : Fin 4) (t off : Nat) (v : Word) : State := s.setCtxW r.val (t * 0x80 + off) v

/-- CFG.STATE: 0 DORMANT, 1 READY, 2 RUNNING, 3 WAITING, 4 DELAYED, 5 FAULTED. -/
def State.tState (s : State) (r : Fin 4) (t : Nat) : Nat := fld (s.tcb r t 0) 2 0

/-- The TCB with a field of a word set. -/
def State.setTcbFld (s : State) (r : Fin 4) (t off hi lo x : Nat) : State :=
  s.setTcb r t off (setFld (s.tcb r t off) hi lo x)

/-- The TCB in a state. -/
def State.setTState (s : State) (r : Fin 4) (t x : Nat) : State := s.setTcbFld r t 0 2 0 x

/-- The vector frame a TCB names (R131). -/
def State.tVframe (s : State) (r : Fin 4) (t : Nat) : Option Nat :=
  let f := fld (s.tcb r t 20) 25 16
  if f < 704 then some f else none

/-- Number of the event i of dispatcher r (R158). -/
def dptEvent (r : Fin 4) (i : Nat) : Nat := 1536 + 16 * r.val + i

/-- The device core numbered c within range r. -/
def coreOf (r : Fin 4) (c : Nat) : Option (Fin 192) :=
  if h : c < 48 then some ⟨48 * r.val + c, by omega⟩ else none

/-- The core of the range whose foreground bank holds a thread. -/
def State.fgCore (s : State) (r : Fin 4) (t : Nat) : Option (Fin 192) :=
  (List.finRange 192).find? fun x =>
    decide (coreRange x = r) && decide (s.cores[x].fgT = some (BitVec.ofNat 10 t))

/-- The core of the range whose shadow bank holds a thread. -/
def State.shCore (s : State) (r : Fin 4) (t : Nat) : Option (Fin 192) :=
  (List.finRange 192).find? fun x =>
    decide (coreRange x = r) && decide (s.cores[x].shT = some (BitVec.ofNat 10 t))

/-- The cause of a thread's last wake, DPT_SELF_WAKE (R157). -/
def State.setWake (s : State) (r : Fin 4) (t : Nat) (v : Word) : State :=
  s.modDpt r fun d => { d with wake := sset (fun _ => 0) d.wake t v }

/-- The thread leaves every list of its dispatcher (R148). -/
def State.dropLists (s : State) (r : Fin 4) (t : Nat) : State :=
  let k := BitVec.ofNat 10 t
  s.modDpt r fun d => { d with
    ready := d.ready.filter (fun x => decide (x ≠ k))
    delay := d.delay.filter (fun x => decide (x.2 ≠ k))
    wakePending := d.wakePending.filter (fun x => decide (x.1 ≠ t))
    wakeIdle := d.wakeIdle.filter (fun x => decide (x.1 ≠ t)) }

/-- The thread becomes READY, last among its equals (R134, R138). -/
def State.makeReady (s : State) (r : Fin 4) (t : Nat) : State :=
  let s := s.dropLists r t
  let s := s.setTState r t 1
  let s := s.setTcbFld r t 0 4 3 0
  s.modDpt r fun d => { d with ready := d.ready ++ [BitVec.ofNat 10 t] }

/-- A wait with the thread's mask and mode is satisfied by the flags (R136). -/
def waitMet (flags mask : Word) (all : Bool) : Bool :=
  mask ≠ 0 && (if all then decide (flags &&& mask = mask) else decide (flags &&& mask ≠ 0))

/-- A satisfied wait of a thread with CONSUME clears the flags it waited for and records them (R136). -/
def State.consume (s : State) (r : Fin 4) (t : Nat) : State :=
  if bit (s.tcb r t 0) 7 then
    let f := s.tcb r t 4
    let m := s.tcb r t 8
    let s := s.setTcb r t 4 (f &&& ~~~m)
    s.modDpt r fun d => { d with consumed := sset (fun _ => 0) d.consumed t (f &&& m) }
  else s

/-- A post dropped: counted, and its event raised where DROP_EVT is 1 (R135). -/
def State.dropPost (s : State) (r : Fin 4) : State :=
  let s := s.countUp (dptA r 0xB0)
  s.raiseIf (s.regBit (dptA r 4) 2) (dptEvent r 9)

/-- A post of a flag to a TCB, of a command completion with its generation (R135 to R137): the flag is set, a wait it
satisfies makes the thread READY, a new flag of AMASK sends ATTN to the core of a RUNNING thread. -/
def State.post (s : State) (r : Fin 4) (t flag : Nat) (gen : Option Nat) : State :=
  let st := s.tState r t
  if st = 0 ∨ (gen.isSome ∧ gen ≠ some (fld (s.tcb r t 44) 27 24)) then s.dropPost r
  else
    let old := s.tcb r t 4
    let new := setBit old flag true
    let s := s.setTcb r t 4 new
    if st = 3 ∧ waitMet new (s.tcb r t 8) (bit (s.tcb r t 0) 6) then
      ((s.consume r t).makeReady r t).setWake r t 0
    else if st = 2 ∧ bit old flag = false ∧ bit (s.tcb r t 12) flag then
      match s.fgCore r t with
      | some x => s.modCore x fun c => { c with attnReq := true }
      | none => s
    else s

/-- A post that reaches a dispatcher; one without power takes none (R345, R347). -/
def State.postFlag (s : State) (r : Fin 4) (t flag : Nat) (gen : Option Nat) : State :=
  if s.rinfOn r.val then s.post r t flag gen else s

/-! Flume doorbells (12_flume_engines.md R282, R283) -/

/-- FLM_CHSTAT.STATE of a channel. -/
def State.chState (s : State) (f : FlumeId) : Nat := s.regFld (f.base + 4) 3 0

/-- The channel in a state. -/
def State.setChState (s : State) (f : FlumeId) (x : Nat) : State := s.setRegFld (f.base + 4) 3 0 x

/-- The gate lets the channel fetch (R283). -/
def State.gateOpen (s : State) (f : FlumeId) : Bool := !s.regBit f.base 2 || s.regFld (f.base + 0x24) 15 0 ≠ 0

/-- The channel goes on to its next descriptor: FETCH, or GATE_WAIT (R297). -/
def State.toFetch (s : State) (f : FlumeId) : State := s.setChState f (if s.gateOpen f then 3 else 2)

/-- A write of COUNT to FLM_DB, or the FLUME action of a lock with COUNT 1 (R282, R283, R297). -/
def State.doorbell (s : State) (f : FlumeId) (count : Nat) : State :=
  let s :=
    if s.regBit f.base 2 then
      let g := s.regFld (f.base + 0x24) 15 0 + count
      let s := s.setRegFld (f.base + 0x24) 15 0 (min 65535 g)
      if 65535 < g then s.setRegBit (f.base + 8) 2 true else s
    else s
  let s := s.setRegBit (f.base + 4) 4 true
  if s.chState f = 1 then s.toFetch f
  else if s.chState f = 2 ∧ s.gateOpen f then s.setChState f 3
  else s

/-- A doorbell that reaches a channel; one without power takes none. -/
def State.ring (s : State) (f : FlumeId) (count : Nat) : State := if s.flumeOn f then s.doorbell f count else s

/-! Host queues (18_events_host_management.md R419, R422) -/

/-- Address of a HIF_ register. -/
def hifA (off : Nat) : Nat := Block.hif.base + off

/-- HIF_FNf_STATUS.FLR_BUSY. -/
def State.flrBusy (s : State) (f : Nat) : Bool := s.regBit (hifA (0x110 + 0x20 * f)) 3

/-- PROD of host queue q, and its CONS. -/
def State.hqProd (s : State) (q : Nat) : Word := sget (fun _ => 0) s.hif.queues q

/-- CONS of host queue q. -/
def State.hqCons (s : State) (q : Nat) : Word := sget (fun _ => 0) s.hif.queues (64 + q)

/-- The state with an entry of the host queues' store set. -/
def State.setHq (s : State) (k : Nat) (v : Word) : State :=
  { s with hif := { s.hif with queues := sset (fun _ => 0) s.hif.queues k v } }

/-- A HOSTQ signal: PROD goes up and the group's event is raised; a disabled queue, or one of a function in FLR, discards
it and sets HQ_DROP (R419, R422, R427). -/
def State.hostq (s : State) (q : Nat) : State :=
  let cfg := s.reg (hifA (0x500 + 4 * q))
  if bit cfg 8 = false ∨ s.flrBusy (fld cfg 4 0) then s.setRegBit (hifA 8) 2 true
  else (s.setHq q (s.hqProd q + 1)).raise (1936 + q / 4)

/-! Hub events (14_fronthaul_framing.md R343) -/

/-- Address of a register of block j of hub h: 0 LN_, 1 FHH_, 2 ETH_ and ECP_, 3 CPRI_ and TRK_. -/
def hubA (h : Fin 4) (j off : Nat) : Nat := (Block.hub h.val j).base + off

/-- Event i of a hub, while its enable bit is 1; events 1, 3 and 4 at most once per 983,040 tu. -/
def State.hubEvent (s : State) (h : Fin 4) (i : Nat) : State :=
  if s.regBit (hubA h 1 0x10) i = false then s
  else if i = 1 ∨ i = 3 ∨ i = 4 then
    let now := (s.replica (.hub h)).toNat
    match s.hubs[h].limited.find? (fun p => p.1 = i) with
    | some p => if now < p.2 + 983040 then s else
        (s.modHub h fun b => { b with limited := sset (fun _ => 0) b.limited i now }).raise (1280 + 32 * h.val + i)
    | none => (s.modHub h fun b => { b with limited := sset (fun _ => 0) b.limited i now }).raise (1280 + 32 * h.val + i)
  else s.raise (1280 + 32 * h.val + i)

/-! Wake requests (15_sluices_power.md R354) -/

/-- A wake request for a domain goes to the sluice controller. -/
def State.wakeReq (s : State) (d : Nat) : State := if d ∈ s.wakes then s else { s with wakes := s.wakes ++ [d] }

end Sys2Proof.Machine
end

