-- ==== Sys2Proof/Machine/Leat.lean ====
section
/-! DEFINITION. The Leat fabric (11_leat_fabric.md): routing modes and plans, grants, endpoint states, flips, routers and links. The
transactions of initiators are in Machine/Fabric.lean. -/

namespace Sys2Proof.Machine

/-- Address of a LEAT_ register. -/
def leatA (off : Nat) : Nat := Block.leat.base + off

/-- An error event of R276 marked *, raised while ERR_EVT_EN is 1. -/
def State.leatErrEvent (s : State) (i : Nat) : State := s.raiseIf (s.regBit (leatA 4) 2) i

/-- LEAT_LAST_ERR (R277). -/
def State.leatLast (s : State) (e ty cause : Nat) : State :=
  s.setReg (leatA 0x3C) (BitVec.ofNat 32 (e + 2 ^ 8 * (ty % 16) + 2 ^ 12 * cause))

/-! Endpoint states (R267) -/

/-- Address of LEAT_EPe_STATE. -/
def epA (e : Nat) : Nat := leatA (0x100 + 4 * e)

/-- LEAT_EPe_STATE.STATE: 0 OPEN, 1 FENCING, 2 ASLEEP, 3 OFF. -/
def State.epState (s : State) (e : Nat) : Nat := s.regFld (epA e) 1 0

/-- The flume channel with a number. -/
def flumeOf (i : Nat) : Option FlumeId :=
  if h : i < 384 then some (.ridge ⟨i / 16, by omega⟩ ⟨i % 16, by omega⟩)
  else if h : i < 512 then some (.hub ⟨(i - 384) / 32, by omega⟩ ⟨(i - 384) % 32, by omega⟩)
  else if h : i < 528 then some (.host ⟨i - 512, by omega⟩)
  else none

/-- Write bursts, fetches and write-backs of flume channels in the network: initiator endpoint and destination endpoint
(12_flume_engines.md R285). -/
def State.burstsOut (s : State) : List (Nat × Nat) :=
  s.chans.flatMap fun c => match flumeOf c.1 with
    | some f => (c.2.bursts.filterMap (·.dest) ++ c.2.ringDest.toList).map fun e => ((Requester.flume f).endpoint, e)
    | none => []

/-- Requests in the network: initiator endpoint and destination endpoint of each that is sent and has not returned its credit. -/
def State.inNetwork (s : State) : List (Nat × Nat) :=
  (s.fabric.txns.filter fun t => decide (t.st = .sent ∨ t.st = .answered)).map (fun t => (t.init, t.dest)) ++ s.burstsOut

/-- Requests sent to an endpoint and unanswered (R277). -/
def State.outstanding (s : State) (e : Nat) : Nat := (s.inNetwork.filter fun p => decide (p.2 = e)).length

/-- The domain a wake request for an endpoint names (R267, 15_sluices_power.md R346). -/
def epDomain (e : Nat) : Nat :=
  match ridgeOfNode e with
  | some n => n
  | none => if e < 36 ∧ e % 3 = 1 then 56 + epRange e else 48 + epRange e

/-! Grants (R265) -/

/-- The override in force for an initiator and destination: the lowest-numbered valid one that names the pair. -/
def State.override (s : State) (i d : Nat) : Option Nat :=
  (List.range 64).findSome? fun k =>
    let v := s.reg (leatA (0x300 + 4 * k))
    if bit v 31 ∧ fld v 5 0 = i ∧ fld v 13 8 = d then some (fld v 23 16) else none

/-- Credits granted to an initiator for a destination. -/
def State.credits (s : State) (i d : Nat) : Nat := (s.override i d).getD (s.regFld (leatA (0x200 + 4 * d)) 7 0)

/-- Credits granted for a destination by its 37 initiators. -/
def State.creditSum (s : State) (d : Nat) : Nat :=
  (((List.range 38).filter (fun i => decide (i ≠ d))).map (fun i => s.credits i d)).foldl (· + ·) 0

/-- No destination has more credits granted than slots. -/
def State.grantsOk (s : State) : Bool :=
  (List.range 38).all fun d => decide (s.creditSum d ≤ s.regFld (leatA (0x200 + 4 * d)) 25 16)

/-- A write to a grant or override register; a configuration that grants too much is refused (R265). -/
def State.grantWrite (s : State) (a : Nat) (v : Word) (mask : Word) : State :=
  let t := s.setReg a ((s.reg a &&& ~~~mask) ||| (v &&& mask))
  if t.grantsOk then t else (s.setRegBit (leatA 0xC) 2 true).raise 1801

/-! Plans (R262 to R264, R270) -/

/-- Coordinates passed on the way from p to q along one dimension, p apart: straight on a mesh (R262), or the shorter way round the ring and
at a distance of 3 in the + direction (R261). -/
def axis (ring : Bool) (p q : Nat) : List Nat :=
  let up := if ring then decide ((q + 6 - p) % 6 ≤ 3) else decide (p ≤ q)
  let n := if up then (q + 6 - p) % 6 else (p + 6 - q) % 6
  (List.range n).map fun i => if up then (p + 1 + i) % 6 else (p + 5 - i) % 6

/-- Nodes of the path from one node to another: in X, then in Y, or with `yx` in Y, then in X (R261, R262). -/
def nodePath (ring yx : Bool) (a b : Nat) : List Nat :=
  let xs := axis ring (a % 6) (b % 6)
  let ys := axis ring (a / 6) (b / 6)
  a :: if yx then ys.map (fun y => 6 * y + a % 6) ++ xs.map (fun x => 6 * (b / 6) + x)
    else xs.map (fun x => 6 * (a / 6) + x) ++ ys.map (fun y => 6 * y + b % 6)

/-- Nodes of a path of source routing (R262). -/
def meshPath (yx : Bool) (a b : Nat) : List Nat := nodePath false yx a b

/-- Nodes of the path of a packet: `none` by dimension order, else source routing with this ORDER (R261, R262). -/
def routePath (via : Option Bool) (a b : Nat) : List Nat := nodePath via.isNone (via.getD false) a b

/-- VC, after each hop along a ring, of a packet that entered it on VC0: VC1 from the dateline on (R261). -/
def ringVcs : Nat → Bool → List Nat → List Bool
  | _, _, [] => []
  | p, v, q :: l =>
    let w := v || decide (p + q = 5 ∧ (p = 0 ∨ q = 0))
    w :: ringVcs q w l

/-- VC of a packet within its class after each hop of its path (R261, R262). -/
def routeVcs (via : Option Bool) (a b : Nat) : List Bool :=
  match via with
  | some yx => (routePath via a b).tail.map fun _ => yx
  | none => ringVcs (a % 6) false (axis true (a % 6) (b % 6)) ++ ringVcs (a / 6) false (axis true (a / 6) (b / 6))

/-- VCS of a packet as it leaves the network. -/
def lastVc (via : Option Bool) (a b : Nat) : Bool := (routeVcs via a b).getLast?.getD (via.getD false)

/-- The node lies in a set of ranges. -/
def inRanges (rs n : Nat) : Bool := rs.testBit (epRange n)

/-- A byte of the built-in plan 7 (R270). -/
def builtinByte (o : Nat) : Nat :=
  if o < 1296 then
    let a := o / 36
    let b := o % 36
    if inRanges 7 a && inRanges 7 b then (if (meshPath false a b).all (inRanges 7) then 1 else 3) else 0
  else if 0x600 ≤ o ∧ o < 0x624 then
    let a := o - 0x600
    if inRanges 7 a && decide (3 ≤ a % 6) then 1 else 0
  else 0

/-- A word of the built-in plan 7. -/
def builtinWord (o : Nat) : Word :=
  BitVec.ofNat 32 (builtinByte o + 2 ^ 8 * builtinByte (o + 1) + 2 ^ 16 * builtinByte (o + 2) + 2 ^ 24 * builtinByte (o + 3))

/-- A byte of a plan's memory. -/
def State.planByte (s : State) (p o : Nat) : Nat :=
  if p = 7 then builtinByte o
  else s.regFld (leatA (0x8000 + 0x800 * p + o / 4 * 4)) (8 * (o % 4) + 7) (8 * (o % 4))

/-- Route entry of a source and destination node (R264, R277). -/
def State.routeEntry (s : State) (p a b : Nat) : Nat := s.planByte p (36 * a + b)

/-- HBM byte of a source node (R264, R277). -/
def State.hbmByte (s : State) (p a : Nat) : Nat := s.planByte p (0x600 + a)

/-- LEAT_PLANp_CFG.RANGES and VALID. -/
def State.planRanges (s : State) (p : Nat) : Nat := s.regFld (leatA (0x400 + 4 * p)) 3 0

/-- LEAT_PLANp_CFG.VALID. -/
def State.planValid (s : State) (p : Nat) : Bool := s.regBit (leatA (0x400 + 4 * p)) 8

/-- Node of an HBM port by stack and side: 0 the port at x = 2, 1 at x = 5 (R11). -/
def hbmNode (stack side : Nat) : Nat := midNode (2 * stack + side) 2

/-- The half of an HBM byte for a stack is right for a set of ranges (R270). -/
def hbmOk (rs h stack : Nat) : Bool :=
  if h.testBit (2 + stack) then !inRanges rs (hbmNode stack 0) && !inRanges rs (hbmNode stack 1)
  else inRanges rs (hbmNode stack (h.testBit stack).toNat)

/-- One route entry is right for a set of ranges (R270). -/
def routeOk (rs a b e : Nat) : Bool :=
  if inRanges rs a && inRanges rs b then decide (e % 2 = 1 ∧ e < 4) && (meshPath (e.testBit 1) a b).all (inRanges rs)
  else decide (e % 2 = 0 ∧ e < 4)

/-- The plan passes its check (R270). -/
def State.planOk (s : State) (p : Nat) : Bool :=
  let rs := s.planRanges p
  rs.testBit 0 && (s.part = .gh9600 || !rs.testBit 3) &&
  (List.range 36).all (fun a => (List.range 36).all fun b => routeOk rs a b (s.routeEntry p a b)) &&
  (List.range 36).all (fun a => !inRanges rs a || (decide (s.hbmByte p a < 16) && hbmOk rs (s.hbmByte p a) 0 && hbmOk rs (s.hbmByte p a) 1))

/-- The plan in use: none in dimension-order routing (R263, R277). -/
def State.curPlan (s : State) : Option Nat :=
  if s.regBit (leatA 8) 0 then some (s.regFld (leatA 8) 10 8) else none

/-- The plan is in use, or a flip to it is in progress; it and its configuration cannot be written (R270). -/
def State.planInUse (s : State) (p : Nat) : Bool :=
  decide (s.curPlan = some p) || (match s.fabric.flip with
    | some f => decide (f.plan = some p)
    | none => false)

/-- A write to LEAT_PLANp_CFG (R270): a write of 1 to VALID starts the check. -/
def State.planCfgWrite (s : State) (p : Nat) (v : Word) : State :=
  if p = 7 ∨ s.planInUse p = true then s
  else s.setReg (leatA (0x400 + 4 * p)) (BitVec.ofNat 32 (fld v 3 0 + 2 ^ 9 * (bit v 8).toNat))

/-- A write to a plan's memory (R270). -/
def State.planMemWrite (s : State) (a : Nat) (v : Word) : State :=
  if s.planInUse ((a - leatA 0x8000) / 0x800) then s else s.setReg a v

/-- Ranges that the routing in use covers. -/
def State.coveredRanges (s : State) : Nat :=
  match s.curPlan with
  | some p => s.planRanges p
  | none => 15

/-! Flips (R271, R272) -/

/-- The current epoch. -/
def State.epoch (s : State) : Bool := s.regBit (leatA 8) 1

/-- The endpoint's NI has confirmed the flip in progress. -/
def State.niFlipped (s : State) (e : Nat) : Bool :=
  match s.fabric.flip with
  | some f => f.signalled && decide (e ∈ f.confirmed)
  | none => false

/-- The epoch an NI stamps. -/
def State.niEpoch (s : State) (e : Nat) : Bool := if s.niFlipped e then !s.epoch else s.epoch

/-- A reroute refused for want of a plan (R271, R276). -/
def State.noPlan (s : State) : State := (s.setRegBit (leatA 0xC) 1 true).raise 1793

/-- The plan an NI routes by; none: dimension-order routing. -/
def State.niPlan (s : State) (e : Nat) : Option Nat :=
  match s.fabric.flip with
  | some f => if f.signalled && decide (e ∈ f.confirmed) then f.plan else s.curPlan
  | none => s.curPlan

/-- Route that an NI gives a packet to an endpoint (R262, R263): none by dimension order, else source routing with this ORDER. -/
def State.viaOf (s : State) (src dst : Nat) : Option Bool :=
  (s.niPlan src).map fun p => (s.routeEntry p (epNode src) (epNode dst)).testBit 1

/-- LEAT_STATUS.PAUSED. -/
def State.paused (s : State) : Bool := s.regBit (leatA 8) 3

/-- The router of a node is closed, or fused off. -/
def State.routerClosed (s : State) (n : Nat) : Bool := !s.hasRange (epRange n) || decide (n ∈ s.fabric.closed)

/-- The endpoints whose NIs take part in a flip: those at routers that are open. -/
def State.liveEndpoints (s : State) : List Nat := (List.range 38).filter fun e => !s.routerClosed (epNode e)

/-- The routing for a new set of ranges: dimension order, a plan, or none (R271). -/
def State.flipPlan (s : State) (rs : Nat) : Option (Option Nat) :=
  if rs = 15 ∧ s.part = .gh9600 ∧ s.regBit (leatA 4) 3 = false then some none
  else ((List.range 8).find? fun p => s.planValid p && decide (s.planRanges p = rs)).map some

/-- Every router of a set of ranges is open, with its links trained (R273). -/
def State.rangesOpen (s : State) (rs : Nat) : Bool :=
  (List.range 36).all fun n => !inRanges rs n || !s.routerClosed n

/-- A reroute begins: the next tables are written (R271 steps 1 and 2); without a plan it is refused (NO_PLAN). -/
def State.flipRequest (s : State) (rs : Nat) : State :=
  match s.flipPlan rs with
  | none => s.noPlan
  | some p =>
    let s := s.setRegBit (leatA 8) 2 true
    { s with fabric := { s.fabric with flip := some ⟨BitVec.ofNat 4 rs, p, false, []⟩ } }

/-- Packets of the previous epoch are in the routers: the old-epoch counts are not all zero (R271). -/
def State.oldEpoch (s : State) : Bool :=
  s.fabric.txns.any fun t => !t.lost &&
    ((decide (t.st = .sent) && !t.there && t.epoch == s.epoch) || (decide (t.st = .answered) && t.respEpoch == s.epoch))

/-- The flip is complete (R271 step 5, R272). -/
def State.flipComplete (s : State) (f : Flip) (pause : Nat) : State :=
  let changes := f.plan.isSome ≠ s.curPlan.isSome
  let s := s.setReg (leatA 8) (BitVec.ofNat 32 (f.plan.isSome.toNat + 2 * (!s.epoch).toNat + 2 ^ 8 * f.plan.getD 0))
  let s := s.countUp (leatA 0x20)
  let s := if changes then
      let p := min 65535 pause
      (s.setReg (leatA 0x24) (BitVec.ofNat 32 p)).setReg (leatA 0x28) (BitVec.ofNat 32 (max p (s.reg (leatA 0x28)).toNat))
    else s
  { s with fabric := { s.fabric with flip := none } }.raise 1792

/-! Links (R275, R277) -/

/-- Address of LEAT_LINKl_STATUS. -/
def linkA (l : Nat) : Nat := leatA (0x500 + 4 * l)

/-- End nodes of link l: node l / 2 and its neighbour in x or y (R277). -/
def linkEnds (l : Nat) : Nat × Nat :=
  let n := l / 2
  (n, if l % 2 = 0 then n / 6 * 6 + (n % 6 + 1) % 6 else (n / 6 + 1) % 6 * 6 + n % 6)

/-- LEAT_LINKl_STATUS.STATE as read: OFF while an end is closed or fused off, TRAINING while an end, powered on again, trains (R273, R277). -/
def State.linkState (s : State) (l : Nat) : Nat :=
  let e := linkEnds l
  let trains (n : Nat) : Bool := decide (n ∈ s.fabric.training)
  let off (n : Nat) : Bool := s.routerClosed n && !trains n
  if off e.1 || off e.2 then 3
  else if trains e.1 || trains e.2 then 1
  else s.regFld (linkA l) 1 0

/-- Links of a path of nodes. -/
def pathLinks (l : List Nat) : List Nat :=
  (l.zip l.tail).filterMap fun p => (List.range 72).find? fun k => decide (linkEnds k = p ∨ linkEnds k = (p.2, p.1))

/-- Links of the path of a packet between two endpoints. -/
def routeLinks (via : Option Bool) (src dst : Nat) : List Nat := pathLinks (routePath via (epNode src) (epNode dst))

/-- A link carries nothing further: it is DOWN (R275). -/
def State.linkDown (s : State) (l : Nat) : Bool := decide (s.regFld (linkA l) 1 0 = 2)

/-- A packet routed so is held at a DOWN link (R275). -/
def State.pathDown (s : State) (via : Option Bool) (src dst : Nat) : Bool := (routeLinks via src dst).any s.linkDown

/-- A packet routed so reaches its destination now: no link of its path is DOWN, or repeats replays (R275). -/
def State.pathClear (s : State) (via : Option Bool) (src dst : Nat) : Bool :=
  (routeLinks via src dst).all fun l => !s.linkDown l && decide (sget (fun _ => 0) s.fabric.fails l = 0)

/-- A replay of a flit on a link, counted; eight in a row that fail put it DOWN (R275). The flag says that it went DOWN. -/
def State.linkReplay (s : State) (l : Nat) (failed : Bool) : State × Bool :=
  let old := s.regFld (linkA l) 23 8
  let s := s.setRegFld (linkA l) 23 8 (min 65535 (old + 1))
  let thr := s.regFld (leatA 0x18) 15 0
  let s := if thr ≠ 0 ∧ old < thr ∧ thr ≤ s.regFld (linkA l) 23 8 then s.leatErrEvent 1798 else s
  let n := if failed then sget (fun _ => 0) s.fabric.fails l + 1 else 0
  let s := { s with fabric := { s.fabric with fails := sset (fun _ => 0) s.fabric.fails l n } }
  if n = 8 then (((s.setRegFld (linkA l) 1 0 2).setRegBit (leatA 0xC) 5 true).raise 1799, true) else (s, false)

/-! What a register of LEAT_ shows -/

/-- Ranges whose fabric domains are on (R277). -/
def State.rangesOn (s : State) : Nat :=
  (List.range 4).foldl (fun v r => v + if s.hasRange r && decide (s.dom (48 + r) = 0) then 2 ^ r else 0) 0

/-- A register of LEAT_ that shows the fabric's own state. -/
def State.leatView (s : State) (o : Nat) : Option Word :=
  if o = 8 then some (setFld (s.reg (leatA 8)) 7 4 s.rangesOn)
  else if 0x100 ≤ o ∧ o < 0x198 ∧ o % 4 = 0 then
    some (setFld (s.reg (leatA o)) 17 8 (s.outstanding ((o - 0x100) / 4)))
  else if 0x500 ≤ o ∧ o < 0x620 ∧ o % 4 = 0 then some (setFld (s.reg (leatA o)) 1 0 (s.linkState ((o - 0x500) / 4)))
  else if 0xB800 ≤ o ∧ o < 0xC000 ∧ o % 4 = 0 then some (builtinWord (o - 0xB800))
  else none

/-! Commands -/

/-- PLAN_CHECK_END of plan p (R270). -/
def execPlanCheckEnd (p : Fin 7) (s : State) : Out :=
  let a := leatA (0x400 + 4 * p.val)
  act s (s.regBit a 9 = true) fun s =>
    let s := s.setRegBit a 9 false
    if s.planOk p.val then s.setRegBit a 8 true else (s.setRegBit (leatA 0xC) 0 true).raise 1793

/-- FLIP_SIGNAL: the next tables are written and the flip is signalled; injection pauses where the mode changes (R271, R272). -/
def execFlipSignal (s : State) : Out :=
  match s.fabric.flip with
  | some f => act s (f.signalled = false) fun s =>
      let s := s.setRegBit (leatA 8) 3 (decide (f.plan.isSome ≠ s.curPlan.isSome))
      { s with fabric := { s.fabric with flip := some { f with signalled := true } } }
  | none => .next s

/-- NI_FLIP_CONFIRM of the NI of endpoint e (R271 step 3). -/
def execNiFlipConfirm (e : Fin 38) (s : State) : Out :=
  match s.fabric.flip with
  | some f => act s (f.signalled = true ∧ e.val ∈ s.liveEndpoints ∧ e.val ∉ f.confirmed) fun s =>
      { s with fabric := { s.fabric with flip := some { f with confirmed := f.confirmed ++ [e.val] } } }
  | none => .next s

/-- ROUTER_CLOSE of a node: its range has left the routing, its endpoints are OFF, no flip or packet is under way (R273, R274). -/
def execRouterClose (n : Fin 36) (s : State) : Out :=
  act s (s.routerClosed n.val = false ∧ s.fabric.flip = none ∧
      s.fabric.txns.all (fun t => decide (epNode t.init ≠ n.val ∧ epNode t.dest ≠ n.val)) = true ∧ inRanges s.coveredRanges n.val = false ∧
      s.epState n.val = 3) fun s =>
    { s with fabric := { s.fabric with closed := s.fabric.closed ++ [n.val] } }.raise 1794

/-- LINK_TRAINING_DONE of the router of a node: its links are trained and it opens (R273). -/
def execLinkTrainingDone (n : Fin 36) (s : State) : Out :=
  act s (n.val ∈ s.fabric.training) fun s =>
    { s with fabric := { s.fabric with
      training := s.fabric.training.filter (fun m => decide (m ≠ n.val))
      closed := s.fabric.closed.filter (fun m => decide (m ≠ n.val)) } }.raise 1795

end Sys2Proof.Machine
end

