-- ==== Sys2Proof/Machine/Memory.lean ====
section
/-! DEFINITION. Memories and their codes (10_memory_protection.md): tile check bits, the byte-symbol code, narrow writes, poison, scrubbing
and error injection. Memory holds the encoded data; the error of a codeword is held beside it (cwErr). -/

namespace Sys2Proof.Machine

/-! The byte-symbol code (R238) -/

/-- Product in GF(2^8) with x^8 + x^4 + x^3 + x^2 + 1; n bits of b remain. -/
def gfMulN : Nat → Nat → Nat → Nat
  | 0, _, _ => 0
  | n + 1, a, b =>
    let r := gfMulN n (let d := a * 2; if 256 ≤ d then d ^^^ 0x11D else d) (b / 2)
    if b % 2 = 1 then a ^^^ r else r

/-- Product in GF(2^8) (R238). -/
def gfMul (a b : Nat) : Nat := gfMulN 8 a b

/-- Power of the root α = 0x02. -/
def gfPow : Nat → Nat
  | 0 => 1
  | n + 1 => gfMul 2 (gfPow n)

/-- Inverse in GF(2^8), a^254; 0 for 0. -/
def gfInv (a : Nat) : Nat :=
  let a2 := gfMul a a
  let a4 := gfMul a2 a2
  let a8 := gfMul a4 a4
  let a16 := gfMul a8 a8
  let a32 := gfMul a16 a16
  let a64 := gfMul a32 a32
  let a128 := gfMul a64 a64
  gfMul a2 (gfMul a4 (gfMul a8 (gfMul a16 (gfMul a32 (gfMul a64 a128)))))

/-- Byte of an error vector at position j: data bytes 0 to 31, check bytes 32 to 35. -/
def errAt (e : BitVec 288) (j : Nat) : Nat := fld e (8 * j + 7) (8 * j)

/-- Syndrome i of an error vector: position j is the coefficient of x^(35 − j) (R238). -/
def syndrome (e : BitVec 288) (i : Nat) : Nat :=
  (List.range 36).foldl (fun acc j => acc ^^^ (if errAt e j = 0 then 0 else gfMul (errAt e j) (gfPow (i * (35 - j))))) 0

/-- Position whose locator is x, if any. -/
def locate (x : Nat) : Option Nat := (List.range 36).find? fun j => gfPow (35 - j) = x

/-- What a decode of a codeword does (R239). -/
inductive Decoded
  | clean
  /-- positions and values the decoder changes -/
  | corrected (fix : List (Nat × Nat))
  | uncorrectable
  deriving DecidableEq, Repr

/-- Decode by the syndromes of the error: one or two positions are corrected, more are found uncorrectable or miscorrected
(R239). -/
def decodeErr (e : BitVec 288) : Decoded :=
  let s0 := syndrome e 0
  let s1 := syndrome e 1
  let s2 := syndrome e 2
  let s3 := syndrome e 3
  if s0 = 0 ∧ s1 = 0 ∧ s2 = 0 ∧ s3 = 0 then .clean
  else
    let det := gfMul s1 s1 ^^^ gfMul s0 s2
    if det = 0 then
      if s0 ≠ 0 ∧ s1 ≠ 0 ∧ gfMul s2 s2 = gfMul s1 s3 ∧ gfMul s1 s2 = gfMul s0 s3 then
        match locate (gfMul s1 (gfInv s0)) with
        | some j => .corrected [(j, s0)]
        | none => .uncorrectable
      else .uncorrectable
    else
      let d := gfInv det
      let g1 := gfMul (gfMul s1 s2 ^^^ gfMul s0 s3) d
      let g2 := gfMul (gfMul s2 s2 ^^^ gfMul s1 s3) d
      let roots := (List.range 36).filter fun j =>
        let x := gfPow (35 - j)
        gfMul x x ^^^ gfMul g1 x ^^^ g2 = 0
      match roots with
      | [p, q] =>
        let x := gfPow (35 - p)
        let y := gfPow (35 - q)
        let f := gfMul (s1 ^^^ gfMul s0 x) (gfInv (x ^^^ y))
        if f = 0 ∨ s0 ^^^ f = 0 then .uncorrectable else .corrected [(p, s0 ^^^ f), (q, f)]
      | _ => .uncorrectable

/-- The error vector after the decoder's changes. -/
def fixErr (e : BitVec 288) (fix : List (Nat × Nat)) : BitVec 288 :=
  fix.foldl (fun e f => e ^^^ (BitVec.ofNat 288 f.2 <<< (8 * f.1))) e

/-! Codeword memories -/

/-- A memory that the byte-symbol code protects: a pool, a reservoir stack, a memory of a range (0 context store, 1 antenna buffer,
2 weight memory; R233, R256). -/
inductive CwMem
  | pool (n : Nat) | stack (i : Nat) | range (r m : Nat)
  deriving DecidableEq, Repr

/-- The codeword memory an address lies in. -/
def cwMemOf (a : Nat) : Option CwMem :=
  if a < 0x400000000 then some (.stack 0)
  else if a < 0x800000000 then some (.stack 1)
  else if spaceBase 0 ≤ a then
    let k := a / 2 ^ 40 - 1
    if k < 4 then some (.range k 1) else if k < 8 then some (.range (k - 4) 2)
    else if 9 ≤ k ∧ k < 13 then some (.range (k - 9) 0) else none
  else match targetOf a with
    | .pool n => some (.pool n)
    | _ => none

/-- Pool bank of an address, 16n + b. -/
def bankOf (n a : Nat) : Nat := 16 * n + (a - ridgeBase n - 0x400000) / 0x80000

/-- A codeword of a whole region starts poisoned in a pool bank that has not been cleared (R244). -/
def State.poisonDflt (s : State) (cw : Nat) : Bool :=
  match cwMemOf (32 * cw) with
  | some (.pool n) => !s.prot.clean.contains (bankOf n (32 * cw))
  | _ => false

/-- The codeword is poisoned (R242). -/
def State.poisoned (s : State) (cw : Nat) : Bool := sget s.poisonDflt s.prot.poison cw

/-- The state with a codeword's poison set. -/
def State.setPoison (s : State) (cw : Nat) (b : Bool) : State :=
  { s with prot := { s.prot with poison := sset s.poisonDflt s.prot.poison cw b } }

/-- The error of a codeword against the codeword encoded. -/
def State.cwError (s : State) (cw : Nat) : BitVec 288 := sget (fun _ => 0) s.prot.cwErr cw

/-- The state with a codeword's error set. -/
def State.setCwError (s : State) (cw : Nat) (e : BitVec 288) : State :=
  { s with prot := { s.prot with cwErr := sset (fun _ => 0) s.prot.cwErr cw e } }

/-- Base of a memory's control and count registers: CTL, CAUSE, CE, CE_THR, UE, PRD, LAST_CE, LAST_UE. -/
structure MemRegs where
  ctl : Nat
  cause : Nat
  ce : Nat
  thr : Nat
  ue : Nat
  prd : Nat
  lastCe : Nat
  lastUe : Nat
  /-- bits of CAUSE: uncorrectable, poisoned -/
  ueBit : Nat
  prdBit : Nat
  errEvent : Nat
  noteEvent : Nat
  deriving DecidableEq, Repr

/-- Registers and events of a pool or stack (R254 to R256). -/
def memRegs : CwMem → Option MemRegs
  | .pool n =>
    let b := (Block.mem n).base
    some ⟨b + 4, b + 8, b + 0x20, b + 0x24, b + 0x28, b + 0x2C, b + 0x30, b + 0x38, 1, 2, 1728 + 2 * n, 1729 + 2 * n⟩
  | .stack i =>
    let b := Block.rsv.base + 0x100 + 0x100 * i
    some ⟨b, b + 8, b + 0x10, b + 0x14, b + 0x18, b + 0x1C, b + 0x20, b + 0x28, 0, 1, 1776 + i, 1778 + i⟩
  | .range _ _ => none

/-- The LAST format (R255). -/
def State.setLast (s : State) (reg a npos : Nat) (scrub : Bool) : State :=
  (s.setReg reg (BitVec.ofNat 32 a)).setReg (reg + 4) (BitVec.ofNat 32 (a / 2 ^ 32 % 256 + 2 ^ 8 * npos + 2 ^ 10 * scrub.toNat))

/-- RSV_RMEMr_LAST (R256). -/
def State.setRmemLast (s : State) (r m a : Nat) (ue : Bool) : State :=
  s.setReg (Block.rsv.base + 0x608 + 0x10 * r) (BitVec.ofNat 32 (m + 2 ^ 4 * (a % 2 ^ 24 / 64) + 2 ^ 31 * ue.toNat))

/-- One correction counted, its address recorded, the notice event raised at the threshold (R240). -/
def State.countCorrection (s : State) (m : CwMem) (a npos : Nat) (scrub : Bool) : State :=
  match m, memRegs m with
  | .range r k, _ => (s.countSat (Block.rsv.base + 0x600 + 0x10 * r)).setRmemLast r k a false
  | _, none => s
  | _, some g =>
    let old := (s.reg g.ce).toNat
    let s := (s.countSat g.ce).setLast g.lastCe a npos scrub
    let t := (s.reg g.thr).toNat
    if t ≠ 0 ∧ old < t ∧ t ≤ (s.reg g.ce).toNat then
      (s.setRegBit g.cause 8 true).raiseIf (s.regBit g.ctl 3) g.noteEvent
    else s

/-- An uncorrectable codeword: its line is poisoned, counted, recorded and reported (R242); in the Summit region it is one of the
causes of SAFE (16_startup_images_modes.md R387). -/
def State.uncorrectable (s : State) (m : CwMem) (cw : Nat) (scrub : Bool) : State :=
  let l := cw / 2 * 2
  let s := (s.setPoison l true).setPoison (l + 1) true
  let s := if 0x3F0000000 ≤ 32 * cw ∧ 32 * cw < 0x400000000 then { s with boot := { s.boot with summitErr := true } } else s
  match m, memRegs m with
  | .range r k, _ =>
    ((s.countSat (Block.rsv.base + 0x604 + 0x10 * r)).setRmemLast r k (32 * cw) true).raise (1780 + r)
  | _, none => s
  | _, some g =>
    let s := (s.countSat g.ue).setLast g.lastUe (32 * cw) 0 scrub
    (s.setRegBit g.cause g.ueBit true).raiseIf (s.regBit g.ctl 2) g.errEvent

/-- A read or merge of a poisoned codeword is counted (R243). -/
def State.countPoisoned (s : State) (m : CwMem) : State :=
  match memRegs m with
  | none => s
  | some g => (s.countSat g.prd).setRegBit g.cause g.prdBit true

/-- A byte of a codeword memory; that of a context store is in its words. -/
def State.cwByte (s : State) (m : CwMem) (a : Nat) : Byte :=
  match m with
  | .range r 0 => BitVec.ofNat 8 (fld (s.ctxW r (a % 2 ^ 21 / 4 * 4)) (8 * (a % 4) + 7) (8 * (a % 4)))
  | _ => s.byte a

/-- The bytes of a codeword memory from an address stored; of a context store, whole words. -/
def State.setCwBytes (s : State) (m : CwMem) (a : Nat) (l : List Byte) : State :=
  match m with
  | .range r 0 => (List.range (l.length / 4)).foldl (fun t i =>
      t.setCtxW r (a % 2 ^ 21 + 4 * i) (BitVec.ofNat 32 (ofBytes ((l.drop (4 * i)).take 4)))) s
  | _ => s.setBytes a l

/-- Data bytes of a codeword as read with an error left over. -/
def State.cwData (s : State) (m : CwMem) (cw : Nat) (e : BitVec 288) : List Byte :=
  (List.range 32).map fun j => s.cwByte m (32 * cw + j) ^^^ BitVec.ofNat 8 (errAt e j)

/-- Bytes of the codeword with the decoder's changes stored: errors left over by a miscorrection become its data. -/
def State.storeFixed (s : State) (m : CwMem) (cw : Nat) (e : BitVec 288) : State :=
  if e = 0 then s.setCwError cw 0 else (s.setCwBytes m (32 * cw) (s.cwData m cw e)).setCwError cw 0

/-- A codeword read: its 32 bytes, or none where the read fails (R240, R242, R243). -/
def State.readCw (s : State) (m : CwMem) (cw : Nat) : State × Option (List Byte) :=
  if s.poisoned cw then (s.countPoisoned m, none)
  else
    let e := s.cwError cw
    match decodeErr e with
    | .clean => (s, some (s.cwData m cw e))
    | .uncorrectable => (s.uncorrectable m cw false, none)
    | .corrected fix =>
      let e' := fixErr e fix
      let d := s.cwData m cw e'
      let s := s.countCorrection m (32 * cw) fix.length false
      let wb := match memRegs m with
        | some g => s.regBit g.ctl 1
        | none => false
      (if wb then s.storeFixed m cw e' else s, some d)

/-- Error injection: base of the FLIP registers of a memory, and the key of its mask (R252). -/
def flipBase : CwMem → Option (Nat × Nat × Nat)
  | .pool n => some ((Block.mem n).base + 0x100, n, 1)
  | .stack _ => some (Block.rsv.base + 0x400, 24, 0)
  | .range _ _ => none

/-- The armed selection of a mask. -/
def State.flipSel (s : State) (k : Nat) : Option FlipSel := (s.prot.flips.find? (fun p => p.1 = k)).map (·.2)

/-- The mask's selection removed or replaced. -/
def State.setFlip (s : State) (k : Nat) (f : Option FlipSel) : State :=
  let l := s.prot.flips.filter (fun p => decide (p.1 ≠ k))
  { s with prot := { s.prot with flips := match f with
    | some v => l ++ [(k, v)]
    | none => l } }

/-- The mask over data bytes and the two check words (R252). -/
def State.flipMask (s : State) (base : Nat) : BitVec 288 :=
  (List.range 8).foldl (fun v i => v ||| ((s.reg (base + 0x10 + 4 * i)).setWidth 288 <<< (32 * i)))
    ((s.reg (base + 0x30)).setWidth 288 <<< (256 : Nat))

/-- A mask has been applied: it disarms, FLIP_DONE is set and the notice event raised (R252). -/
def State.flipDone (s : State) (base k cause ctl event : Nat) : State :=
  let s := (s.setFlip k none).setRegBit base 2 false
  (s.setRegBit cause 10 true).raiseIf (s.regBit ctl 3) event

/-- The selection matches a write of codeword cw, the first of its write where `first` holds (R252). -/
def flipMatches (f : FlipSel) (tgt : Nat) (cw : Nat) (first : Bool) : Bool :=
  decide (f.target = tgt) && (if f.addrEn then decide (f.addr / 32 = cw) else first)

/-- A codeword stored, with an armed mask that matches applied to it (R241, R252). -/
def State.storeCw (s : State) (m : CwMem) (cw : Nat) (data : List Byte) (first : Bool) : State :=
  let s := ((s.setCwBytes m (32 * cw) data).setCwError cw 0).setPoison cw false
  match flipBase m, memRegs m with
  | some (base, k, tgt), some g =>
    match s.flipSel k with
    | some f =>
      if flipMatches f tgt cw first then
        (s.setCwError cw (s.flipMask base)).flipDone base k g.cause g.ctl g.noteEvent
      else s
    | none => s
  | _, _ => s

/-- A byte to write and which of its bits are written (11_leat_fabric.md R260). -/
abbrev WByte := Byte × Byte

/-- A byte with the written bits replaced. -/
def mergeByte (w : WByte) (old : Byte) : Byte := (old &&& ~~~w.2) ||| (w.1 &&& w.2)

/-- The bytes of a codeword that a write covers, with masks; mask 0 where it does not. -/
def writeBytes (a : Nat) (data : List WByte) (cw : Nat) : List WByte :=
  (List.range 32).map fun j => if a ≤ 32 * cw + j then (data.getD (32 * cw + j - a) (0, 0)) else (0, 0)

/-- A codeword written by a requester: stored whole, or merged (R241). The flag says that it failed. -/
def State.writeCw (s : State) (m : CwMem) (cw : Nat) (w : List WByte) (first : Bool) : State × Bool :=
  if w.all (fun b => decide (b.2 = 0xFF)) then (s.storeCw m cw (w.map (·.1)) first, false)
  else if w.all (fun b => decide (b.2 = 0)) then (s, false)
  else if s.poisoned cw then (s.countPoisoned m, true)
  else
    let e := s.cwError cw
    let merge (t : State) (e' : BitVec 288) : State :=
      t.storeCw m cw ((w.zip (t.cwData m cw e')).map fun p => mergeByte p.1 p.2) first
    match decodeErr e with
    | .clean => (merge s e, false)
    | .uncorrectable => (s.uncorrectable m cw false, true)
    | .corrected fix => (merge (s.countCorrection m (32 * cw) fix.length false) (fixErr e fix), false)

/-! Context stores (06_dispatcher.md R129) -/

/-- Number of the codeword at an offset of the context store of dispatcher r. -/
def ctxCw (r off : Nat) : Nat := (spaceCtx r + off) / 32

/-- Codewords of n bytes from an offset of a context store. -/
def ctxCws (r off n : Nat) : List Nat := (List.range (n / 32)).map fun i => ctxCw r off + i

/-- Codewords of a context store read in order, up to the first that fails: the state after, and a copy of it whose store holds the data as
read; none where one failed (R240, R242, R243). -/
def State.readCtx (s : State) (r : Nat) (cws : List Nat) : State × Option State :=
  cws.foldl (fun acc cw => match acc.2 with
    | none => acc
    | some v =>
      let q := acc.1.readCw (.range r 0) cw
      (q.1, q.2.map fun d => if acc.1.cwError cw = 0 then v else v.setCwBytes (.range r 0) (32 * cw) d)) (s, some s)

/-- Codewords of a context store written whole: valid codes, no poison (R241, R243). -/
def State.freshCtx (s : State) (cws : List Nat) : State := cws.foldl (fun t cw => (t.setCwError cw 0).setPoison cw false) s

/-- An upset of a context store, which no rule of the spec brings about: an error added to a codeword (log entry 117). -/
def State.upsetCtx (s : State) (r : Nat) : Option (BitVec 16 × BitVec 288) → State
  | none => s
  | some (k, e) => let cw := ctxCw r 0 + k.toNat; s.setCwError cw (s.cwError cw ^^^ e)

/-- A read of n bytes of a codeword memory: every codeword is read, in order (R240, R242). -/
def State.cwRead (s : State) (m : CwMem) (a n : Nat) : State × Access :=
  let r := (List.range ((a + n + 31) / 32 - a / 32)).foldl (fun (acc : State × Option (List Byte)) i =>
    let q := acc.1.readCw m (a / 32 + i)
    (q.1, match acc.2, q.2 with
      | some d, some e => some (d ++ e)
      | _, _ => none)) (s, some [])
  (r.1, match r.2 with
    | some d => .ok ((d.drop (a % 32)).take n)
    | none => .busError)

/-- A write to a codeword memory: each codeword on its own (R241). -/
def State.cwWrite (s : State) (m : CwMem) (a : Nat) (data : List WByte) : State × Access :=
  let n := data.length
  let r := (List.range ((a + n + 31) / 32 - a / 32)).foldl (fun (acc : State × Bool) i =>
    let q := acc.1.writeCw m (a / 32 + i) (writeBytes a data (a / 32 + i)) (i = 0)
    (q.1, acc.2 || q.2)) (s, false)
  (r.1, if r.2 then .busError else .ok [])

/-! Tile memory (R234, R235) -/

/-- Address of a MEM_ register of ridge n. -/
def memA (n off : Nat) : Nat := (Block.mem n).base + off

/-- Check groups of a tile byte that fail. -/
def State.tileSyn (s : State) (a : Nat) : BitVec 2 := sget (fun _ => 0) s.prot.tileSyn a

/-- The state with a tile byte's failing groups set. -/
def State.setTileSyn (s : State) (a : Nat) (v : BitVec 2) : State :=
  { s with prot := { s.prot with tileSyn := sset (fun _ => 0) s.prot.tileSyn a v } }

/-- A saturating count of 16 bits in a half of a register. -/
def State.count16 (s : State) (reg lo : Nat) : State :=
  s.setRegFld reg (lo + 15) lo (min 65535 (s.regFld reg (lo + 15) lo + 1))

/-- A read of tile memory of core x: a failing byte is counted, recorded and reported (R235). -/
def State.tileRead (s : State) (x a n : Nat) : State × Access :=
  match (List.range n).find? (fun i => s.tileSyn (a + i) ≠ 0) with
  | none => (s, .ok (s.bytes a n))
  | some i =>
    let d := x / 8
    let s := s.count16 (memA d (0x40 + 4 * (x % 8))) 0
    let s := (s.setReg (memA d 0x10) (BitVec.ofNat 32 (a + i))).setReg (memA d 0x14) (BitVec.ofNat 32 ((a + i) / 2 ^ 32))
    let s := (s.setRegBit (memA d 8) 0 true).raiseIf (s.regBit (memA d 4) 2) (1728 + 2 * d)
    (s, .busError)

/-- Groups of a tile byte that fail when its bits are flipped by m and its check bits by c (R234). -/
def flipSyn (m c : Nat) : BitVec 2 :=
  let par (l : List Nat) : Bool := l.foldl (fun p i => p != m.testBit i) false
  BitVec.ofNat 2 ((par [0, 2, 4, 6] != c.testBit 0).toNat + 2 * (par [1, 3, 5, 7] != c.testBit 1).toNat)

/-- One byte of tile memory written with fresh check bits. -/
def State.tileByte (s : State) (a : Nat) (b : Byte) : State := (s.setByte a b).setTileSyn a 0

/-- A byte of the granule at g in a mask of tile memory (R252). -/
def State.tileFlip (s : State) (base g a : Nat) : State :=
  let j := a - g
  let m := s.regFld (base + 0x10 + 4 * (j / 4)) (8 * (j % 4) + 7) (8 * (j % 4))
  let c := if j < 16 then s.regFld (base + 0x30) (2 * j + 1) (2 * j) else s.regFld (base + 0x34) (2 * (j - 16) + 1) (2 * (j - 16))
  (s.setByte a (s.byte a ^^^ BitVec.ofNat 8 m)).setTileSyn a (flipSyn m c)

/-- A write to tile memory of core x: exactly the bytes written, with an armed mask applied to the granule it selects (R234,
R252). -/
def State.tileWrite (s : State) (x a : Nat) (data : List (Option Byte)) : State :=
  let n := x / 8
  let put (t : State) (p : Option Byte × Nat) : State := match p.1 with
    | some b => t.tileByte (a + p.2) b
    | none => t
  let s := data.zipIdx.foldl put s
  let base := memA n 0x100
  match s.flipSel n with
  | none => s
  | some f =>
    let g := if f.addrEn then f.addr / 32 * 32 else a / 32 * 32
    let hit := data.zipIdx.filter fun p => p.1.isSome && decide ((a + p.2) / 32 * 32 = g)
    if f.target = 0 ∧ (f.addrEn ∨ f.unit = x % 8) ∧ hit ≠ [] then
      (hit.foldl (fun t p => t.tileFlip base g (a + p.2)) s).flipDone base n (memA n 8) (memA n 4) (1729 + 2 * n)
    else s

/-! Pools and stacks as a whole (R244, R245) -/

/-- Bank k = 16n + b: the state of its codewords and bytes from its first address. -/
def bankBase (k : Nat) : Nat := ridgeBase (k / 16) + 0x400000 + k % 16 * 0x80000

/-- The address lies in a region of n bytes from b. -/
def within (a b n : Nat) : Bool := decide (b ≤ a ∧ a < b + n)

/-- Every byte and code of a region cleared: zeros, valid codes. -/
def State.clearRegion (s : State) (b n : Nat) : State :=
  { s with
    mem := s.mem.filter (fun e => !within e.1 b n)
    prot := { s.prot with
      cwErr := s.prot.cwErr.filter (fun e => !within (32 * e.1) b n)
      poison := s.prot.poison.filter (fun e => !within (32 * e.1) b n)
      tileSyn := s.prot.tileSyn.filter (fun e => !within e.1 b n) } }

/-- A pool bank poisoned whole; its contents are as they were (R244). -/
def State.poisonBank (s : State) (k : Nat) : State :=
  { s with prot := { s.prot with
    clean := s.prot.clean.filter (fun j => decide (j ≠ k))
    poison := s.prot.poison.filter (fun e => !within (32 * e.1) (bankBase k) 0x80000) } }

/-- A pool bank cleared to zeros with valid codes and no poison (R245). -/
def State.clearBank (s : State) (k : Nat) : State :=
  let s := s.clearRegion (bankBase k) 0x80000
  { s with prot := { s.prot with clean := s.prot.clean.filter (fun j => decide (j ≠ k)) ++ [k] } }

/-- A line poisoned by MEM_POISON or RSV_POISON: neither counted nor reported (R245). -/
def State.poisonLine (s : State) (a : Nat) : State :=
  let l := a / 64 * 2
  (s.setPoison l true).setPoison (l + 1) true

/-- A write to MEM_FLIP_CTL or RSV_FLIP_CTL (R252, R253): TARGET, ADDR_EN and UNIT are stored; DISARM disarms; ARM with a target
0 to 3 arms on the selection written. -/
def State.flipCtl (s : State) (base k : Nat) (rw : Word) (v : Word) : State :=
  let s := s.setReg base ((s.reg base &&& 4) ||| (v &&& rw))
  let s := if bit v 1 then (s.setFlip k none).setRegBit base 2 false else s
  let t := fld (v &&& rw) 6 4
  if bit v 0 ∧ t < 4 then
    let f : FlipSel := ⟨t, bit v 7, fld (v &&& rw) 10 8, s.reg64 (base + 4)⟩
    (s.setFlip k (some f)).setRegBit base 2 true
  else s

/-! Scrubbing (R248, R249) -/

/-- Number of a memory with a scrubber among the laps. -/
def scrubIndex : ScrubId → Nat
  | .pool n => n.val
  | .stack i => 24 + i.val

/-- Its codeword memory. -/
def scrubMem : ScrubId → CwMem
  | .pool n => .pool n.val
  | .stack i => .stack i.val

/-- Lines of a bank or pseudo-channel, and the register that holds the position. -/
def scrubPos : ScrubId → Nat × Nat
  | .pool n => (8192, memA n.val 0x9C)
  | .stack i => (2 ^ 23, Block.rsv.base + 0x148 + 0x100 * i.val)

/-- Addresses of the lines at a position: one of each pool bank, one of each pseudo-channel (R248, R250). -/
def scrubLines (m : ScrubId) (p : Nat) : List Nat :=
  match m with
  | .pool n => (List.range 16).map fun b => bankBase (16 * n.val + b) + 64 * p
  | .stack i => (List.range 32).map fun c =>
      let q := p / 4
      i.val * 2 ^ 34 + q * 2 ^ 13 + (c ^^^ (q % 32)) * 2 ^ 8 + p % 4 * 64

/-- A codeword read by the scrubber: corrected and written back, or its line poisoned; a poisoned one is passed over (R243,
R248). -/
def State.scrubCw (s : State) (m : CwMem) (cw : Nat) : State :=
  if s.poisoned cw then s
  else match decodeErr (s.cwError cw) with
    | .clean => s
    | .uncorrectable => s.uncorrectable m cw true
    | .corrected fix => (s.countCorrection m (32 * cw) fix.length true).storeFixed m cw (fixErr (s.cwError cw) fix)

/-- The end of a lap: its time recorded and compared with the limit (R249). -/
def State.lapEnd (s : State) (m : ScrubId) : State :=
  let k := scrubIndex m
  let t := s.tb.cycles - sget (fun _ => 0) s.prot.lapStart k
  let s := { s with prot := { s.prot with lapStart := sset (fun _ => 0) s.prot.lapStart k s.tb.cycles } }
  match m, memRegs (scrubMem m) with
  | .pool n, some g =>
    let v := min (2 ^ 32 - 1) t
    let a := memA n.val 0x90
    let s := (s.setReg a (BitVec.ofNat 32 v)).setReg (a + 4) (BitVec.ofNat 32 (max v (s.reg (a + 4)).toNat))
    let lim := (s.reg (a + 8)).toNat
    if lim ≠ 0 ∧ lim < v then (s.setRegBit g.cause 9 true).raiseIf (s.regBit g.ctl 3) g.noteEvent else s
  | .stack i, some g =>
    let v := min (2 ^ 64 - 1) t
    let a := Block.rsv.base + 0x130 + 0x100 * i.val
    let s := (s.setReg64 a v).setReg64 (a + 8) (max v (s.reg64 (a + 8)))
    let lim := s.reg64 (a + 0x10)
    if lim ≠ 0 ∧ lim < v then (s.setRegBit g.cause 9 true).raiseIf (s.regBit g.ctl 3) g.noteEvent else s
  | _, none => s

/-- The scrubber's memory is clocked and usable (R248). -/
def State.scrubOn (s : State) : ScrubId → Bool
  | .pool n => s.ridgeOn n.val && s.regBit (memA n.val 4) 0
  | .stack i =>
    let b := Block.rsv.base + 0x100 + 0x100 * i.val
    decide (s.dom (60 + i.val) = 0) && s.regBit b 0 && s.regBit (b + 4) 2

/-- The bank of a line is being cleared (R245). -/
def State.bankBusy (s : State) (n a : Nat) : Bool := s.regBit (memA n 0xA8) (bankOf n a % 16)

/-- A scrub read: the next line of every bank or pseudo-channel (R248). -/
def State.scrub (s : State) (m : ScrubId) : State :=
  let (lines, reg) := scrubPos m
  let p := (s.reg reg).toNat
  let busy (a : Nat) : Bool := match m with
    | .pool n => s.bankBusy n.val a
    | .stack _ => false
  let s := ((scrubLines m p).filter (fun a => !busy a)).foldl (fun t a =>
    (t.scrubCw (scrubMem m) (a / 32)).scrubCw (scrubMem m) (a / 32 + 1)) s
  let s := s.setReg reg (BitVec.ofNat 32 ((p + 1) % lines))
  if p + 1 = lines then s.lapEnd m else s

/-! Commands -/

/-- SCRUB_READ (R248). -/
def execScrubRead (m : ScrubId) (s : State) : Out := act s (s.scrubOn m = true) fun s => s.scrub m

end Sys2Proof.Machine
end

