-- ==== Sys2Proof/Machine/Fabric.lean ====
section
/-! DEFINITION. How an access reaches its target: destination, endpoint states and refusals (11_leat_fabric.md R258, R263, R266 to
R269), targets that hold (10_memory_protection.md R245, R251), and reads and writes of memory. Access to registers is in
Machine/Access.lean. -/

namespace Sys2Proof.Machine

/-! Destinations (R258, R263) -/

/-- Node of the HBM port for a stack, from a source node: by R11 among OPEN ports, or by the plan's HBM byte (R263, R264). A requester at a
port's own node takes that port whatever its endpoint's state, since its access does not enter the fabric (R258; DESIGN CHOICE, log
entry 121). -/
def State.hbmPort (s : State) (src stack : Nat) (plan : Option Nat) : Option Nat :=
  match plan with
  | none =>
    let side := if 3 ≤ src % 6 then 1 else 0
    let ok (i : Nat) : Bool := decide (s.epState (hbmNode stack i) = 0) || decide (hbmNode stack i = src)
    if ok side then some (hbmNode stack side)
    else if ok (1 - side) then some (hbmNode stack (1 - side)) else none
  | some p =>
    let h := s.hbmByte p src
    if h.testBit (2 + stack) then none else some (hbmNode stack (h.testBit stack).toNat)

/-- Destination endpoint of an address from a source node; none where the address decodes to a bus error (R258). -/
def State.destOf (s : State) (src : Nat) (plan : Option Nat) (a : Nat) : Option Nat :=
  match decodeAddr s.part a with
  | .unassigned => none
  | .reservoir => s.hbmPort src (a / 2 ^ 34) plan
  | .tile x => some (ridgeNode (x / 8))
  | .pool n => some (ridgeNode n)
  | .hostWindow => some epHif
  | .block b _ => some (match b with
    | .hif => epHif
    | .dpt r => midNode r 2
    | .reng r => midNode r 2
    | .bfa r => midNode r 1
    | .hub h _ => midNode h 0
    | .flm n => ridgeNode n
    | .mem n => ridgeNode n
    | .fec n => ridgeNode n
    | .fft n => ridgeNode n
    | .eq n => ridgeNode n
    | .cq n => ridgeNode n
    | .cqc n _ => ridgeNode n
    | _ => epControl)

/-- How a reservation of a requester for an address stands (R258, R264, R267). -/
inductive Reach
  | fail               -- a bus error in the initiator's NI; nothing is sent
  | own                -- within the initiator's node
  | send (e : Nat)
  | held (e : Nat)
  | fenced (e : Nat)
  | off (e : Nat)
  deriving DecidableEq, Repr

/-- The reservation an endpoint makes for an address. -/
def State.reachFrom (s : State) (e a : Nat) : Reach :=
  let src := epNode e
  let plan := s.niPlan e
  match s.destOf src plan a with
  | none => .fail
  | some d =>
    if epNode d = src then .own
    else if (match plan with
      | some p => decide (s.routeEntry p src (epNode d) % 2 = 0)
      | none => false) then .fail
    else match s.epState d with
      | 0 => .send d
      | 1 => if s.regBit (epA d) 2 then .fenced d else .held d
      | 2 => .held d
      | _ => .off d

/-- The reservation a requester makes for an address. -/
def State.reach (s : State) (req : Requester) (a : Nat) : Reach := s.reachFrom req.endpoint a

/-- A request of an initiator for a destination may be sent now: a credit, a response slot, no pause of injection, and no unanswered
request of the other epoch to that destination (R266, R271, R272). -/
def State.maySend (s : State) (init dest : Nat) : Bool :=
  let l := s.inNetwork.filter fun p => decide (p.1 = init)
  decide ((l.filter fun p => decide (p.2 = dest)).length < s.credits init dest) && decide (l.length < 256) && !s.paused &&
    s.fabric.txns.all fun t => !decide (t.init = init ∧ t.dest = dest ∧ (t.st = .sent ∨ t.st = .answered)) || t.epoch == s.niEpoch init

/-- No request waits in an NI ahead of a new one (R266). -/
def State.niFree (s : State) (init : Nat) : Bool := !s.fabric.txns.any fun k => decide (k.init = init ∧ k.st = .waiting)

/-- The first reservation held for an endpoint asks for its wake (R267). -/
def State.holdFor (s : State) (e : Nat) : State :=
  if e ∈ s.fabric.woken then s
  else { s.wakeReq (epDomain e) with fabric := { s.fabric with woken := s.fabric.woken ++ [e] } }

/-- The least transaction identifier that an initiator has not in use (DESIGN CHOICE, log entry 125). -/
def State.freeTid (s : State) (init : Nat) : Nat :=
  ((List.range 1024).find? fun i => !s.fabric.txns.any fun t => decide (t.init = init ∧ t.tid = i)).getD 1024

/-- A response timeout is counted and reported (R266, R276). -/
def State.timedOut (s : State) (init ty : Nat) : State :=
  (((s.setRegBit (leatA 0xC) 4 true).countUp (leatA 0x34)).leatLast init ty 1).leatErrEvent 1797

/-- An access that a command makes is lost at a DOWN link and has timed out: its packet goes on waiting there, with its credit and response
slot (R266, R275). -/
def State.lostAt (s : State) (req : Requester) (e ty a n : Nat) : State :=
  let i := req.endpoint
  let t : Txn := { req := req, init := i, dest := e, tid := s.freeTid i, ty := ty, addr := a, len := n, data := [], maskFirst := 0xFF
                   maskLast := 0xFF, epoch := s.niEpoch i, respEpoch := false, via := s.viaOf i e, st := .sent, late := true, lost := false
                   resp := [], err := false }
  { s with fabric := { s.fabric with txns := s.fabric.txns ++ [t] } }.timedOut i ty

/-- A reservation refused is counted and recorded (R267, R276). -/
def State.refused (s : State) (e ty : Nat) : State :=
  let s := (s.countUp (leatA 0x30)).leatLast e ty 3
  s.raiseIf (s.regBit (leatA 4) 0) 1796

/-! Flume channels met by a fence (12_flume_engines.md R294) -/

/-- The descriptor in hand ends with a status: the channel goes to WRITEBACK (R290, R294). -/
def State.chanEnd (s : State) (f : FlumeId) (status : Nat) : State :=
  let s := s.modChan f fun c => { c with status := if c.status = 0 then status else c.status, fenced := none }
  ((s.disarm (f.base + 0x40)).setRegBit (f.base + 4) 5 false).setChState f 7

/-- A refusal FENCED pauses a channel that moves data. -/
def State.chanPause (s : State) (f : FlumeId) (e : Nat) : State :=
  let s := s.modChan f fun c => { c with fenced := some e }
  (s.setRegBit (f.base + 4) 5 true).setChState f 8

/-- The channel moves data or is paused. -/
def State.chanBusy (s : State) (f : FlumeId) : Bool := decide (s.chState f = 6 ∨ s.chState f = 8)

/-- Endpoint of an address a channel uses. -/
def State.chanDest (s : State) (f : FlumeId) (a : Nat) : Option Nat :=
  let e := (Requester.flume f).endpoint
  s.destOf (epNode e) (s.niPlan e) a

/-- Channels that hold a descriptor. -/
def State.busyChans (s : State) : List FlumeId := s.chans.filterMap fun c => if c.2.desc.isSome then flumeOf c.1 else none

/-- A burst's write that waits to be sent to an endpoint never is (R294). -/
def State.dropUnsent (s : State) (f : FlumeId) (e : Nat) : State :=
  let gone (b : Burst) : Bool := match b.wait with
    | some (a, _) => decide (s.chanDest f a = some e)
    | none => false
  s.modChan f fun c => { c with bursts := c.bursts.filter fun b => !gone b }

/-- An endpoint reached OFF: channels that move data to or from it end with TARGET_OFF. -/
def State.chansOff (s : State) (e : Nat) : State :=
  s.busyChans.foldl (fun t f =>
    let t := t.dropUnsent f e
    if t.chanBusy f && (match (t.chan f).desc with
      | some d => decide ((t.chan f).fenced = some e) || decide (t.chanDest f d.src = some e) || decide (t.chanDest f d.dst = some e)
      | none => false)
    then t.chanEnd f 5 else t) s

/-- An endpoint is OPEN again: channels it paused go on. -/
def State.chansResume (s : State) (e : Nat) : State :=
  s.busyChans.foldl (fun t f =>
    if t.chState f = 8 ∧ (t.chan f).fenced = some e then
      ((t.modChan f fun c => { c with fenced := none }).setRegBit (f.base + 4) 5 false).setChState f 6
    else t) s

/-- A refusal of a flume channel's access: FENCED pauses it, OFF ends its descriptor (R294). Of any other requester: a bus error
(R267). -/
def State.refuse (s : State) (req : Requester) (e ty : Nat) (off : Bool) : State :=
  let s := s.refused e ty
  match req with
  | .flume f => if s.chanBusy f then (if off then s.chanEnd f 5 else s.chanPause f e) else s.busError
  | _ => s.busError

/-! Fences (R269) -/

/-- Waiting and held reservations to an endpoint that will be OFF are refused (R267). -/
def State.refuseHeld (s : State) (e : Nat) (off : Bool) : State :=
  let hit (t : Txn) : Bool := decide (t.dest = e ∧ (t.st = .waiting ∨ t.st = .held))
  let gone := s.fabric.txns.filter hit
  let s := { s with fabric := { s.fabric with txns := s.fabric.txns.filter (fun t => !hit t) } }
  let ring (f : FlumeId) : Bool := decide ((Requester.flume f).endpoint = e)
  let lost := s.fabric.rings.filter ring
  let s := { s with fabric := { s.fabric with rings := s.fabric.rings.filter (fun f => !ring f) } }
  lost.foldl (fun u _ => u.refused e 1) (gone.foldl (fun u t => if t.carry = .access then u.refuse t.req e t.ty off else u.refused e t.ty) s)

/-- Reservations of an endpoint in one state go to another. -/
def State.reholdTxns (s : State) (e : Nat) (a b : TxnSt) : State :=
  { s with fabric := { s.fabric with
    txns := s.fabric.txns.map fun t => if t.dest = e ∧ t.st = a then { t with st := b } else t } }

/-- The FLUME release action of a lock: a doorbell of COUNT 1 that crosses the fabric (12_flume_engines.md R283, 06_dispatcher.md R153). -/
def State.ringFlume (s : State) (f : FlumeId) : State :=
  let e := (Requester.flume f).endpoint
  let hold := let s := s.holdFor e; { s with fabric := { s.fabric with rings := s.fabric.rings ++ [f] } }
  match s.epState e with
  | 0 => s.ring f 1
  | 1 => if s.regBit (epA e) 2 then s.refused e 1 else hold
  | 2 => hold
  | _ => s.refused e 1

/-- The doorbells held for an endpoint that is OPEN again. -/
def State.landRings (s : State) (e : Nat) : State :=
  let ring (f : FlumeId) : Bool := decide ((Requester.flume f).endpoint = e)
  let due := s.fabric.rings.filter ring
  due.foldl (fun t f => t.ring f 1) { s with fabric := { s.fabric with rings := s.fabric.rings.filter (fun f => !ring f) } }

/-- An OPEN endpoint enters FENCING; `off` says that OFF follows (R269 step 1). An endpoint in ASLEEP goes that way too, where its
domain is switched off. -/
def State.fence (s : State) (e : Nat) (off : Bool) : State :=
  if s.epState e = 0 ∨ (off ∧ s.epState e = 2) then
    let s := (s.setRegFld (epA e) 1 0 1).setRegBit (epA e) 2 off
    if off then s.refuseHeld e false
    else if s.fabric.txns.any (fun t => decide (t.dest = e ∧ t.st = .waiting)) then (s.reholdTxns e .waiting .held).holdFor e
    else s
  else s

/-- The endpoint is OPEN: the configured credits are granted again, held reservations go on (R269). -/
def State.reopen (s : State) (e : Nat) : State :=
  let s := (s.setRegFld (epA e) 1 0 0).setRegBit (epA e) 2 false
  let s := { s with fabric := { s.fabric with woken := s.fabric.woken.filter fun k => decide (k ≠ e) } }
  ((s.reholdTxns e .held .waiting).chansResume e).landRings e

/-- Fencing completes (R269 step 3); a reopen requested meanwhile takes effect. -/
def State.fenceComplete (s : State) (e : Nat) : State :=
  let off := s.regBit (epA e) 2
  let s := (s.setRegFld (epA e) 1 0 (if off then 3 else 2)).setRegBit (epA e) 2 false
  let s := s.raiseIf (s.regBit (leatA 4) 1) 1802
  let s := if off then (s.refuseHeld e true).chansOff e else s
  if e ∈ s.fabric.reopen then
    ({ s with fabric := { s.fabric with reopen := s.fabric.reopen.filter (fun k => decide (k ≠ e)) } }).reopen e
  else s

/-- A reopen requested by the sluice controller (R269). -/
def State.reopenReq (s : State) (e : Nat) : State :=
  if s.epState e = 1 then
    if e ∈ s.fabric.reopen then s else { s with fabric := { s.fabric with reopen := s.fabric.reopen ++ [e] } }
  else if s.epState e = 0 then s
  else s.reopen e

/-! Targets that hold (10_memory_protection.md R245, R251) -/

/-- Base of the registers of a stack. -/
def stackA (i : Nat) : Nat := Block.rsv.base + 0x100 + 0x100 * i

/-- The stack serves requests: cleared since reset, awake. -/
def State.stackReady (s : State) (i : Nat) : Bool :=
  s.regBit (stackA i + 4) 2 && s.regBit (stackA i + 4) 0 && decide (s.dom (60 + i) = 0)

/-- A request held at the port of a stack (R251): HELD is set, and a sleeping stack is asked to wake. -/
def State.stackHold (s : State) (i : Nat) : State :=
  let s :=
    if s.regBit (stackA i + 4) 1 then s
    else { s.setRegBit (stackA i + 4) 1 true with
      prot := { s.prot with holdSince := sset (fun _ => 0) s.prot.holdSince i s.tb.cycles } }
  if s.dom (60 + i) ≠ 0 then s.wakeReq (60 + i) else s

/-- The target of an address holds accesses to it now. -/
def State.targetBusy (s : State) (a : Nat) : Bool :=
  match decodeAddr s.part a with
  | .reservoir => !s.stackReady (a / 2 ^ 34)
  | .pool n => s.bankBusy n a
  | _ => false

/-- What a target that holds does with an access. -/
def State.targetHold (s : State) (a : Nat) : State :=
  match decodeAddr s.part a with
  | .reservoir => s.stackHold (a / 2 ^ 34)
  | _ => s

/-! Reads and writes of memory -/

/-- How an access ended. -/
inductive Res
  | ok (data : List Byte)
  | err
  /-- nothing happened: the access waits -/
  | held
  /-- its reservation was refused, by endpoint -/
  | fenced (e : Nat) | off (e : Nat)
  deriving DecidableEq, Repr

/-- An access result of a memory. -/
def Access.res : Access → Res
  | .ok d => .ok d
  | _ => .err

/-- The pieces of an access in 256-byte blocks: address and length. -/
def blocksOf (a n : Nat) : List (Nat × Nat) :=
  (List.range ((a + n + 255) / 256 - a / 256)).map fun i =>
    let lo := max a (256 * (a / 256 + i))
    (lo, min (a + n) (256 * (a / 256 + i + 1)) - lo)

/-! The host window (18_events_host_management.md R420) -/

/-- The PCIe function that carries a requester's access to host memory: a host flume's FN, else PF1. -/
def State.hostFn (s : State) : Requester → Nat
  | .flume (.host q) => s.regFld (hifA (0x400 + 4 * q.val)) 4 0
  | _ => 1

/-- PCIe address of an address of the host window for function f. -/
def State.hostAddr (s : State) (f a : Nat) : Nat :=
  s.regFld (hifA (0x104 + 0x20 * f)) 27 0 * 2 ^ 36 + (a - 0x3000000000)

/-- The function may send requests: Bus Master Enable, not in FLR. -/
def State.hostMay (s : State) (f : Nat) : Bool := s.regBit (hifA (0x110 + 0x20 * f)) 0 && !s.flrBusy f

/-- A read of host memory: its bytes come from outside the device, as free values. -/
def State.hostRead (s : State) (req : Requester) (n : Nat) : State × Res :=
  if s.hostMay (s.hostFn req) then (s.draw, .ok ((List.range n).map fun i => BitVec.ofNat 8 (s.free i)))
  else (s.raise 1971, .err)

/-- Runs of enabled bytes of a write: offset and bytes. -/
def byteRuns : Nat → List WByte → List (Nat × List Byte)
  | _, [] => []
  | o, b :: bs =>
    let l := byteRuns (o + 1) bs
    if b.2 = 0 then l
    else match l with
      | (p, d) :: r => if p = o + 1 then (o, b.1 :: d) :: r else (o, [b.1]) :: l
      | [] => [(o, [b.1])]

/-- A write to host memory leaves as posted writes of function f. -/
def State.hostPut (s : State) (req : Requester) (a : Nat) (data : List WByte) : State × Res :=
  let f := s.hostFn req
  if s.hostMay f then
    ((byteRuns 0 data).foldl (fun t p => t.emit (.hostWrite f (s.hostAddr f a + p.1) p.2)) s, .ok [])
  else (s.raise 1971, .err)

/-- A read at a memory target, within a block (R235, R240). -/
def State.memReadAt (s : State) (req : Requester) (a n : Nat) : State × Res :=
  match decodeAddr s.part a, cwMemOf a with
  | .tile x, _ => let q := s.tileRead x a n; (q.1, q.2.res)
  | .pool _, some m => let q := s.cwRead m a n; (q.1, q.2.res)
  | .reservoir, some m => let q := s.cwRead m a n; (q.1, q.2.res)
  | .hostWindow, _ => s.hostRead req n
  | _, _ => (s, .err)

/-- A write at a memory target, within a block; tile memory takes whole bytes only (R234, R241, 11_leat_fabric.md R260). -/
def State.memWriteAt (s : State) (req : Requester) (a : Nat) (data : List WByte) : State × Res :=
  match decodeAddr s.part a, cwMemOf a with
  | .tile x, _ =>
    if data.all (fun b => decide (b.2 = 0 ∨ b.2 = 0xFF)) then
      (s.tileWrite x a (data.map fun b => if b.2 = 0 then none else some b.1), .ok [])
    else (s, .err)
  | .pool _, some m => let q := s.cwWrite m a data; (q.1, q.2.res)
  | .reservoir, some m => let q := s.cwWrite m a data; (q.1, q.2.res)
  | .hostWindow, _ => s.hostPut req a data
  | _, _ => (s, .err)

/-- A request of an endpoint goes to another and its response comes back now: its NI may send it, and no link on the way repeats replays. A
DOWN link does not hold it here: it ends by timeout (R266, R275). -/
def State.passes (s : State) (i e : Nat) : Bool :=
  let clear (v : Option Bool) (a b : Nat) : Bool := s.pathDown v a b || s.pathClear v a b
  s.niFree i && s.maySend i e && clear (s.viaOf i e) i e && clear (s.viaOf e i) e i

/-- What stops an access before it reaches its targets: a failing decode, an endpoint, the NI that has to send it, a target that holds.
None: nothing does. -/
def State.gate (s : State) (req : Requester) (a n : Nat) : Option (State × Res) :=
  let rs := (blocksOf a n).map fun p => (p.1, s.reach req p.1)
  match rs.find? (fun p => decide (p.2 = .fail)) with
  | some _ => some (s, .err)
  | none =>
    match rs.findSome? (fun p => match p.2 with
      | .off e => some (s, Res.off e)
      | .fenced e => some (s, Res.fenced e)
      | .held e => some (s.holdFor e, Res.held)
      | .send e => if s.passes req.endpoint e then none else some (s, Res.held)
      | _ => none) with
    | some q => some q
    | none =>
      match rs.find? (fun p => s.targetBusy p.1) with
      | some p => some (s.targetHold p.1, .held)
      | none => none

/-- The steps of an access over its blocks, one after another; the first that fails ends it (07_ridge_engines.md R165). -/
def overBlocks (f : State → Nat → Nat → State × Res) (s : State) (a n : Nat) : State × Res :=
  (blocksOf a n).foldl (fun (acc : State × Res) p =>
    match acc.2 with
    | .ok d =>
      let q := f acc.1 p.1 p.2
      (q.1, match q.2 with
        | .ok e => .ok (d ++ e)
        | _ => .err)
    | _ => acc) (s, .ok [])

/-- An access of one block, done at its target: over the fabric where the target is not within the requester's node. At a DOWN link its
request, or its response, is lost, and it times out as a bus error (R266, R275). -/
def State.across (s : State) (req : Requester) (ty a n : Nat) (f : State → State × Res) : State × Res :=
  match s.reach req a with
  | .send e =>
    let i := req.endpoint
    if s.pathDown (s.viaOf i e) i e then (s.lostAt req e ty a n, .err)
    else
      let q := f s
      if s.pathDown (s.viaOf e i) e i then (q.1.lostAt req e ty a n, .err) else q
  | _ => f s

/-- A read of memory by a requester. -/
def State.memRead (s : State) (req : Requester) (a n : Nat) : State × Res :=
  match s.gate req a n with
  | some q => q
  | none => overBlocks (fun t p k => t.across req 0 p k fun t => t.memReadAt req p k) s a n

/-- A write of memory by a requester. -/
def State.memWrite (s : State) (req : Requester) (a : Nat) (data : List WByte) : State × Res :=
  match s.gate req a data.length with
  | some q => q
  | none => overBlocks (fun t p k => t.across req 1 p k fun t => t.memWriteAt req p ((data.drop (p - a)).take k)) s a data.length

/-- Whole bytes to write. -/
def wholeBytes (l : List Byte) : List WByte := l.map fun b => (b, 0xFF)

/-! Work of many accesses. A command whose work meets an access that waits leaves the state as it was, but for what the wait
itself does (assumption 14). -/

/-- Where work stands: the state so far, and what stopped it: an access that waits, or a bus error with the operand's number. -/
structure Job where
  s : State
  waits : Option (Nat × Nat) := none
  bus : Option Nat := none

/-- The work goes on. -/
def Job.live (j : Job) : Bool := j.waits.isNone && j.bus.isNone

/-- What an access result does to work: a refusal is a bus error (R267). -/
def Job.took (j : Job) (req : Requester) (op a n ty : Nat) (q : State × Res) : Job × List Byte :=
  match q.2 with
  | .ok d => ({ j with s := q.1 }, d)
  | .err => ({ j with s := q.1, bus := some op }, [])
  | .held => ({ j with waits := some (a, n) }, [])
  | .fenced e => ({ j with s := q.1.refuse req e ty false, bus := some op }, [])
  | .off e => ({ j with s := q.1.refuse req e ty true, bus := some op }, [])

/-- An operand read; stopped work reads nothing. -/
def Job.read (j : Job) (req : Requester) (op a n : Nat) : Job × List Byte :=
  if j.live then j.took req op a n 0 (j.s.memRead req a n) else (j, [])

/-- A result write. -/
def Job.write (j : Job) (req : Requester) (op a : Nat) (data : List WByte) : Job :=
  if j.live then (j.took req op a data.length 1 (j.s.memWrite req a data)).1 else j

/-- The end of work begun in state `s0`. -/
def Job.settle (j : Job) (s0 : State) (req : Requester) (f : Job → State) : State :=
  match j.waits with
  | some (a, n) => match s0.gate req a n with
    | some q => q.1
    | none => s0
  | none => f j

/-- Some byte of an access lies in a register block. -/
def State.meetsBlock (s : State) (a n : Nat) : Bool :=
  (blocksOf a n).any fun p => match decodeAddr s.part p.1 with
    | .block _ _ => true
    | _ => false

/-- A small write that its unit posts and does not wait for. It lands at once, but where its target holds it, or lies in a register block, it
waits its turn in `posted` (R245, R251; assumption 15). -/
def State.postWrite (s : State) (req : Requester) (a : Nat) (data : List Byte) : State :=
  let wait (t : State) : State := { t with posted := t.posted ++ [⟨req, a, data⟩] }
  if s.meetsBlock a data.length then wait s
  else match s.memWrite req a (wholeBytes data) with
    | (t, .held) => wait t
    | (t, .fenced e) => t.refuse req e 1 false
    | (t, .off e) => t.refuse req e 1 true
    | (t, _) => t

/-- The memory with the writes that wait in place, as their units will find it. -/
def State.settled (s : State) : State := s.posted.foldl (fun t p => t.setBytes p.addr p.data) s

end Sys2Proof.Machine
end

