-- ==== Sys2Proof/Machine/EngineQueue.lean ====
section
/-! DEFINITION. Command queues of the engines (05_command_queue.md R114 to R126; 07_ridge_engines.md R162, R165, R168, R169, R188 to
R190; 09_narrowband_engines.md R221, R231): the answer to a command, COMMIT and CANCEL, completion, disabling. What the functions
compute is in the files of the engines. -/

namespace Sys2Proof

/-- The engine serves a range. -/
def EngId.ofRange : EngId → Bool
  | .turbo _ => true
  | .nbe _ => true
  | _ => false

/-- The replica an engine reads time from. -/
def EngId.replica : EngId → ReplicaId
  | .codec n => .ridge n
  | .fft n => .ridge n
  | .eq n => .ridge n
  | .turbo r => .dpt r
  | .nbe r => .dpt r

end Sys2Proof

namespace Sys2Proof.Machine

/-- Address of a register of core x's CQ_ block (R127). -/
def cqA (x : Fin 192) (off : Nat) : Nat := (Block.cqc (x.val / 8) (x.val % 8)).base + off

/-- Address of an engine's x_ registers (R190). -/
def engA (e : EngId) (off : Nat) : Nat := e.base + off

/-- The capability register that answers for an engine, in the ridge of the issuing core (R117, R127). -/
def capA (e : EngId) (x : Fin 192) : Nat :=
  (Block.cq (x.val / 8)).base + match e with
    | .codec _ => 0x10
    | .fft _ => 0x14
    | .eq _ => 0x18
    | .turbo _ => 0x20
    | .nbe _ => 0x24

/-- The engine a class of cpx selects for a core; none: refused by the core (R115). -/
def engOfClass (x : Fin 192) (cls : Nat) : Option EngId :=
  match cls with
  | 0 => some (.codec (coreRidge x))
  | 1 => some (.fft (coreRidge x))
  | 2 => some (.eq (coreRidge x))
  | 4 => some (.turbo (coreRange x))
  | 5 => some (.nbe (coreRange x))
  | _ => none

/-- Event i of an engine: 0 error, 1 drained, 2 capture (R189, R231). -/
def engEvent : EngId → Nat → Nat
  | .codec n, i => 576 + 8 * n.val + i
  | .fft n, i => 576 + 8 * n.val + 2 + i
  | .eq n, i => 576 + 8 * n.val + 4 + i
  | .turbo r, i => 1472 + 16 * r.val + i
  | .nbe r, i => 1480 + 16 * r.val + i

/-- x_CTL.EN. -/
def State.engEn (s : State) (e : EngId) : Bool := s.regBit (engA e 4) 0

/-- A queue has room for a command of a core: fewer than 64 commands that share it are there, or, of a range engine, on their way there
from the core's ridge (R162). -/
def State.engRoom (s : State) (e : EngId) (x : Fin 192) : Bool :=
  let sent := s.fabric.txns.filterMap fun t => match t.carry, t.st with
    | _, .answered => none
    | .cmd k c, _ => if k = e then some c else none
    | _, _ => none
  decide ((((s.eng e).queue ++ sent).filter fun c => !e.ofRange || decide (c.core.val / 8 = x.val / 8)).length < 64)

/-- Function codes of an engine on stepping B0 (R161, R220). -/
def engCodes : EngId → List Nat
  | .codec _ => [0x01, 0x05, 0x09, 0x0D, 0x11]
  | .fft _ => [0x21, 0x25, 0x29]
  | .eq _ => [0x41, 0x45]
  | .turbo _ => [0x81, 0x85]
  | .nbe _ => [0xA1, 0xA5]

/-- Refusal code of a command that has reached its front end; none: accepted (R117). A code that the engine does not have is refused
whatever its capability register marks (R161, R220). -/
def State.engAnswer (s : State) (e : EngId) (c : EngCmd) : Option Nat :=
  if s.regBit (capA e c.core) (c.func.toNat % 32) = false ∨ c.func.toNat ∉ engCodes e then some 0x10
  else if s.engEn e = false then some 0x11
  else if s.engRoom e c.core = false then some 0x12
  else none

/-- The next command to execute: the oldest, of the next queue in turn for a range engine (R162). -/
def State.engNext (s : State) (e : EngId) : Option EngCmd :=
  let q := (s.eng e).queue
  if e.ofRange then
    (List.range 6).findSome? fun i => q.find? fun c => decide (c.core.val / 8 % 6 = ((s.eng e).turn + i) % 6)
  else q.head?

/-- The command of a core and tag in an engine's queue. -/
def State.engCmd (s : State) (e : EngId) (x : Fin 192) (tag : BitVec 6) : Option EngCmd :=
  (s.eng e).queue.find? fun c => decide (c.core = x ∧ c.tag = tag)

/-- The command runs. -/
def State.engRuns (s : State) (e : EngId) (c : EngCmd) : Bool := decide ((s.eng e).running = some (c.core, c.tag))

/-- The command leaves the queue; if it ran, the engine is free. -/
def State.engDrop (s : State) (e : EngId) (c : EngCmd) : State :=
  let ran := s.engRuns e c
  s.modEng e fun g =>
    let q := g.queue.filter fun k => !decide (k.core = c.core ∧ k.tag = c.tag)
    if ran then { g with queue := q, running := none, staged := [], later := [], result := none, caught := 0, ignored := 0 }
    else { g with queue := q }

/-- The engine is disabled and has no work left: its drained event (R168, R189). -/
def State.engDrained (s : State) (e : EngId) : State :=
  s.raiseIf (!s.engEn e && (s.eng e).queue.isEmpty && s.regBit (engA e 4) 2) (engEvent e 1)

/-! Completion (R124, R165) -/

/-- The header as it is written at completion: STATUS, DETAIL, DONE_TIME, from byte 4 of the block. -/
def State.engHeader (s : State) (e : EngId) (status detail : Nat) : List Byte :=
  toBytes 2 status ++ toBytes 2 detail ++ toBytes 4 (s.replica e.replica).toNat

/-- LAST_ERR records a command (R190). -/
def State.engLast (s : State) (e : EngId) (c : EngCmd) (status : Nat) : State :=
  let k := if e.ofRange then c.core.val % 48 else c.core.val % 8
  s.setReg (engA e 0x10) (BitVec.ofNat 32 (status % 65536 + c.tag.toNat * 2 ^ 16 + k * 2 ^ 22))

/-- Counts of an NBE command, and its capture event (R231, R232). -/
def State.nbeCount (s : State) (e : EngId) (status caught ignored : Nat) : State :=
  let up (s : State) (o n : Nat) : State := if n = 0 then s else s.setReg (engA e o) (s.reg (engA e o) + BitVec.ofNat 32 n)
  let s := up (up s 0x34 caught) 0x38 ignored
  let s := if status = 0x60 then s.countUp (engA e 0x3C) else s
  s.raiseIf (decide (0 < caught) && s.regBit (engA e 4) 3) (engEvent e 2)

/-- The rest of a completion after its header write, which may have failed: CQ_DONE and CQ_BUSY, the post, counts and events. -/
def State.engEnd (s : State) (e : EngId) (c : EngCmd) (status : Nat) (hdrFailed : Bool) : State :=
  let s := if hdrFailed then s.setRegBit (engA e 0xC) 2 true else s
  let s := if status ≠ 0 ∨ hdrFailed = true then s.engLast e c status else s
  let w := c.tag.toNat / 32 * 4
  let s := (s.setRegBit (cqA c.core (0x10 + w)) (c.tag.toNat % 32) true).setRegBit (cqA c.core (8 + w)) (c.tag.toNat % 32) false
  let s := s.postFlag (coreRange c.core) c.tcb.toNat c.flag.toNat (some c.gen.toNat)
  let s := s.countUp (engA e 0x20)
  let s := if status = 3 then s.countUp (engA e 0x24) else s
  let s :=
    if status ≠ 0 ∧ status ≠ 3 then
      ((s.countUp (engA e 0x28)).setRegBit (engA e 0xC) 1 true).raiseIf (s.regBit (engA e 4) 1) (engEvent e 0)
    else s
  let g := s.eng e
  let s := if s.engRuns e c then s.nbeCount e status g.caught g.ignored else s
  (s.engDrop e c).engDrained e

/-- A completion whose header write is made at once, whatever its target does (assumption 15). -/
def State.engAbort (s : State) (e : EngId) (c : EngCmd) (status detail : Nat) : State :=
  let q := s.memWrite (.engine e) (c.ptr + 4) (wholeBytes (s.engHeader e status detail))
  match q.2 with
  | .ok _ => q.1.engEnd e c status false
  | .held => (s.postWrite (.engine e) (c.ptr + 4) (s.engHeader e status detail)).engEnd e c status false
  | .fenced x => (q.1.refuse (.engine e) x 1 false).engEnd e c status true
  | .off x => (q.1.refuse (.engine e) x 1 true).engEnd e c status true
  | .err => q.1.engEnd e c status true

/-! Registers (R168, R190) -/

/-- A write to x_CTL (R168): an enable made too early is ignored whole. Clearing EN completes the queued commands that are
committed. -/
def State.engCtl (s : State) (e : EngId) (v : Word) : State :=
  let m : Word := match e with
    | .nbe _ => 0xF
    | _ => 7
  if s.engEn e then
    let s := s.setReg (engA e 4) (v &&& m)
    if bit v 0 then s
    else
      let q := (s.eng e).queue.filter fun c => c.committed && !s.engRuns e c
      if (s.eng e).queue.isEmpty then s.engDrained e else q.foldl (fun t c => t.engAbort e c 3 0) s
  else if bit v 0 = true ∧ (s.eng e).queue.isEmpty = false then s.setRegBit (engA e 0xC) 0 true
  else s.setReg (engA e 4) (v &&& m)

/-- Registers that show an engine's state (R190); `o` counts from x_ID. -/
def State.engView (s : State) (e : EngId) (o : Nat) : Option Word :=
  let g := s.eng e
  let en := s.engEn e
  match o with
  | 8 => some (BitVec.ofNat 32 (en.toNat + 2 * g.running.isSome.toNat + 4 * (!en && !g.queue.isEmpty).toNat +
      8 * (!en && g.queue.isEmpty).toNat + 256 * g.queue.length))
  | 0x30 => some (BitVec.ofNat 32 (g.busy / 1024))
  | _ => none

/-! COMMIT and CANCEL (R121 to R123) -/

/-- Staged writes released in order, and after them those for which the buffer had no room (R120, R121); one that fails ends the
command with BUS_ERROR and the rest are not made (R165). CAPTURED_OVER records written are counted (R231). -/
def State.engRelease (s : State) (e : EngId) : State :=
  let g := s.eng e
  let q := (g.staged ++ g.later).foldl (fun (q : Job × Nat) w =>
    let j := q.1.write (.engine e) w.op w.addr w.data
    (j, q.2 + (w.cap && j.live).toNat)) ({ s := s }, 0)
  q.1.settle s (.engine e) fun j =>
    j.s.modEng e fun g => { g with
      staged := []
      later := []
      caught := g.caught + q.2
      result := match j.bus with
        | some op => some ⟨1, op⟩
        | none => g.result }

/-- COMMIT of a command reaches its engine (R121, R123, R168). -/
def State.engCommit (s : State) (e : EngId) (x : Fin 192) (tag : BitVec 6) : State :=
  match s.engCmd e x tag with
  | none => s
  | some c =>
    let s := s.modEng e fun g => { g with queue := g.queue.map fun k => if k.core = x ∧ k.tag = tag then { k with committed := true } else k }
    if s.engRuns e c then s.engRelease e
    else if s.engEn e then s
    else s.engAbort e c 3 0

/-- CANCEL of a command reaches its engine (R122, R123). -/
def State.engCancel (s : State) (e : EngId) (x : Fin 192) (tag : BitVec 6) : State :=
  match s.engCmd e x tag with
  | none => s
  | some c => ((s.countUp (engA e 0x2C)).engDrop e c).engDrained e

/-- The oldest COMMIT or CANCEL on its way to an engine. -/
def State.engMsg (s : State) (e : EngId) : Option EngMsg := s.engMsgs.find? fun m => decide (m.eng = e)

/-- It is taken. -/
def State.engTake (s : State) (m : EngMsg) : State := { s with engMsgs := s.engMsgs.erase m }

/-! Commands -/

/-- The oldest command on its way to an engine whose core has no earlier COMMIT or CANCEL on its way there (R123: what one core sends to
one engine stays in order; a core waits in E1 for the answer, so what it has sent before is all there is). -/
def State.engArrival (s : State) (e : EngId) : Option EngSent :=
  s.engSent.find? fun m => decide (m.eng = e) && !s.engMsgs.any fun k => decide (k.eng = e ∧ k.core = m.cmd.core)

/-- COMMAND_COMPLETE: the executed and committed command of an engine completes (R124). -/
def execCommandComplete (e : EngId) (s : State) : Out :=
  match (s.eng e).running, (s.eng e).result with
  | some (x, tag), some res =>
    match s.engCmd e x tag with
    | none => .next s
    | some c => act s (c.committed = true ∧ s.engineOn e = true) fun s =>
      if (s.eng e).staged ≠ [] ∨ (s.eng e).later ≠ [] then s.engRelease e
      else
        let q := s.memWrite (.engine e) (c.ptr + 4) (wholeBytes (s.engHeader e res.status res.detail))
        match q.2 with
        | .ok _ => q.1.engEnd e c res.status false
        | .held => q.1
        | .fenced k => (q.1.refuse (.engine e) k 1 false).engEnd e c res.status true
        | .off k => (q.1.refuse (.engine e) k 1 true).engEnd e c res.status true
        | .err => q.1.engEnd e c res.status true
  | _, _ => .next s

/-- ENGINE_IDLE_GATE: an engine with no command gates its clock after 64 idle cycles (R125). -/
def execEngineIdleGate (e : EngId) (s : State) : Out :=
  act s (s.engineOn e = true ∧ (s.eng e).queue = []) fun s => s.modEng e fun g => { g with gated := true }

end Sys2Proof.Machine
end

