-- ==== Sys2Proof/Machine/Numeric.lean ====
section
/-! DEFINITION. Number formats and exact arithmetic of the engines and of the beamforming arrays (07_ridge_engines.md R166, R167, R180;
08_beamforming_array.md R197): complex rationals, narrowing at a block exponent, decibels, angles. Sines and cosines are taken to 60
binary places (log entry 20). -/

namespace Sys2Proof.Machine

/-! Fields and samples -/

/-- A field of a command block or of an entry: n bytes from byte o. -/
def eFld (e : List Byte) (o n : Nat) : Nat := ofBytes ((e.drop o).take n)

/-- A complex integer. -/
abbrev Cplx := Int × Int

/-- Complex sample i of a list of IQ16 bytes (R166). -/
def iqAt (d : List Byte) (i : Nat) : Cplx := (sext 16 (eFld d (4 * i) 2), sext 16 (eFld d (4 * i + 2) 2))

/-- The four bytes of a complex sample. -/
def iqBytes (z : Cplx) : List Byte := toBytes 2 (ofInt 16 z.1).toNat ++ toBytes 2 (ofInt 16 z.2).toNat

/-- Sum of complex integers. -/
def csum (l : List Cplx) : Cplx := l.foldl (fun s z => (s.1 + z.1, s.2 + z.2)) (0, 0)

/-- A value narrowed to n bits, and whether it saturated. -/
def narrowN (n : Nat) (x : Int) : Int × Nat := (satS n x, if satS n x = x then 0 else 1)

/-! Complex rationals -/

/-- A complex rational. -/
structure Cx where
  re : Rat
  im : Rat
  deriving DecidableEq, Repr

/-- 2^e. -/
def pow2 (e : Int) : Rat := if 0 ≤ e then ((2 ^ e.toNat : Nat) : Rat) else 1 / ((2 ^ (-e).toNat : Nat) : Rat)

/-- A complex integer at an exponent. -/
def Cx.ofInts (z : Cplx) (e : Int) : Cx := ⟨(z.1 : Rat) * pow2 e, (z.2 : Rat) * pow2 e⟩

/-- Zero. -/
def Cx.zero : Cx := ⟨0, 0⟩
/-- Sum. -/
def Cx.add (a b : Cx) : Cx := ⟨a.re + b.re, a.im + b.im⟩
/-- Difference. -/
def Cx.sub (a b : Cx) : Cx := ⟨a.re - b.re, a.im - b.im⟩
/-- Product. -/
def Cx.mul (a b : Cx) : Cx := ⟨a.re * b.re - a.im * b.im, a.re * b.im + a.im * b.re⟩
/-- Conjugate. -/
def Cx.conj (a : Cx) : Cx := ⟨a.re, -a.im⟩
/-- Product with a rational. -/
def Cx.scale (a : Cx) (k : Rat) : Cx := ⟨a.re * k, a.im * k⟩
/-- Squared magnitude. -/
def Cx.norm2 (a : Cx) : Rat := a.re * a.re + a.im * a.im
/-- Quotient. -/
def Cx.div (a b : Cx) : Cx := (a.mul b.conj).scale (1 / b.norm2)

/-- Sum of a list. -/
def Cx.sum (l : List Cx) : Cx := l.foldl Cx.add Cx.zero

/-- Sum of a list of rationals. -/
def ratSum (l : List Rat) : Rat := l.foldl (· + ·) 0

/-- Mean of a list of rationals. -/
def ratMean (l : List Rat) : Rat := ratSum l / (l.length : Rat)

/-- Mean of a list. -/
def Cx.mean (l : List Cx) : Cx := (Cx.sum l).scale (1 / (l.length : Rat))

/-! Narrowing (R167, R180) -/

/-- Parts of complex values. -/
def partsOf (l : List Cx) : List Rat := l.flatMap fun z => [z.re, z.im]

/-- The value at an exponent, truncated toward minus infinity. -/
def mantOf (x : Rat) (e : Int) : Int := (x / pow2 e).floor

/-- No value saturates 16 bits at an exponent. -/
def fits16 (l : List Rat) (e : Int) : Bool := l.all fun x => decide (satS 16 (mantOf x e) = mantOf x e)

/-- The smallest EXP8 at which no value saturates; 127 where none does. -/
def leastExp (l : List Rat) : Int := (((List.range 256).find? fun (i : Nat) => fits16 l ((i : Int) - 128)).getD 255 : Int) - 128

/-- An exponent at which no value saturates: the smallest, and what an engine adds to it. -/
def someExp (l : List Rat) (more : Nat) : Int := min 127 (leastExp l + more)

/-- IQ16 values at an exponent, saturated. -/
def iqOut (l : List Cx) (e : Int) : List Byte := l.flatMap fun z => iqBytes (satS 16 (mantOf z.re e), satS 16 (mantOf z.im e))

/-- Some value saturates at an exponent. -/
def anySat (l : List Cx) (e : Int) : Bool := !fits16 (partsOf l) e

/-- A power in the NOISE format: M × 2^E, its reserved byte 0; E is the smallest that M fits, and what the engine adds to it. -/
def noiseOf (v : Rat) (more : Nat) : List Byte :=
  let e := min 127 ((((List.range 256).find? fun (i : Nat) => decide (mantOf v ((i : Int) - 128) < 65536)).getD 255 : Int) - 128 + more)
  toBytes 2 (min 65535 (mantOf v e)).toNat ++ toBytes 1 (ofInt 8 e).toNat ++ [0]

/-- A power read: M and E. -/
def noiseVal (d : List Byte) (o : Nat) : Rat := (eFld d o 2 : Rat) * pow2 (sext 8 (eFld d (o + 2) 1))

/-! Decibels (R166: SINR16; 09_narrowband_engines.md R224) -/

/-- 10^n ≤ x^80: n units of 0.125 dB do not exceed the ratio x. -/
def dbReached (x : Rat) (n : Int) : Bool :=
  let a := x.num.toNat ^ 80
  let b := x.den ^ 80
  if 0 ≤ n then decide (10 ^ n.toNat * b ≤ a) else decide (b ≤ a * 10 ^ (-n).toNat)

/-- A positive ratio in units of 0.125 dB, truncated toward minus infinity and saturated to 16 bits. -/
def db8 (x : Rat) : Int :=
  (List.range 16).foldl (fun (n : Int) (i : Nat) => if dbReached x (n + 2 ^ (15 - i)) then n + 2 ^ (15 - i) else n) (-32768)

/-! Angles -/

/-- 2π × 2^64. -/
def twoPi : Nat := 0x6487ED5110B4611A6

/-- Cosine and sine of a quarter cycle or less, in units of 2^-64: `x` is the angle in units of 2^-64 of a cycle. -/
def cosSinQ (x : Nat) : Int × Int :=
  let th : Int := x * twoPi / 2 ^ 64
  let r := (List.range 40).foldl (fun (st : Int × Int × Int) (k : Nat) =>
    let t := st.2.2
    let c := if k % 4 = 0 then st.1 + t else if k % 4 = 2 then st.1 - t else st.1
    let s := if k % 4 = 1 then st.2.1 + t else if k % 4 = 3 then st.2.1 - t else st.2.1
    (c, s, t * th / 2 ^ 64 / (k + 1))) (0, 0, 2 ^ 64)
  (r.1, r.2.1)

/-- e^(j2πt) in units of 2^-64; exact at quarter cycles. -/
def cis (t : Rat) : Cplx :=
  let f := ((t - (t.floor : Rat)) * ((2 ^ 64 : Nat) : Rat)).floor.toNat
  let p := cosSinQ (f % 2 ^ 62)
  match f / 2 ^ 62 with
  | 0 => (p.1, p.2)
  | 1 => (-p.2, p.1)
  | 2 => (-p.1, -p.2)
  | _ => (p.2, -p.1)

/-- A value brought to 2^-40, so that one that is a whole number but for the last places of a sine is that number. -/
def nearly (x : Rat) : Rat := ((x * ((2 ^ 40 : Nat) : Rat) + 1 / 2).floor : Rat) / ((2 ^ 40 : Nat) : Rat)

/-- A sum of samples, each turned by its angle, to 2^-40. -/
def turnSum (l : List (Cplx × Rat)) : Cx :=
  let z := csum (l.map fun p =>
    let c := cis p.2
    (p.1.1 * c.1 - p.1.2 * c.2, p.1.1 * c.2 + p.1.2 * c.1))
  let unit : Rat := ((2 ^ 64 : Nat) : Rat)
  ⟨nearly ((z.1 : Rat) / unit), nearly ((z.2 : Rat) / unit)⟩

/-- The angle of a value in cycles, −1/2 to 1/2, to 2^-64. -/
def turnsOf (z : Cx) : Rat :=
  let up : Cx := if z.im < 0 then z.conj else z
  let k := (List.range 64).foldl (fun (k : Nat) (i : Nat) =>
    let n := k + 2 ^ (63 - i)
    let c := cis ((n : Rat) / ((2 ^ 64 : Nat) : Rat))
    if n ≤ 2 ^ 63 ∧ 0 ≤ up.im * (c.1 : Rat) - up.re * (c.2 : Rat) then n else k) 0
  let t : Rat := (k : Rat) / ((2 ^ 64 : Nat) : Rat)
  if z.im < 0 then -t else t

end Sys2Proof.Machine
end

