-- ==== Sys2Proof/Machine/Bfa.lean ====
section
/-! DEFINITION. A beamforming array beside its arithmetic (08_beamforming_array.md): streams and pages, cells, the operation queue,
slot programs, completion and status records. The operations themselves are in Machine/BfaOps.lean. -/

namespace Sys2Proof.Machine

/-- Address of a BFA_ register. -/
def bfaA (r : Fin 4) (off : Nat) : Nat := (Block.bfa r.val).base + off

/-- Event i of BFA r (R218). -/
def bfaEvent (r : Fin 4) (i : Nat) : Nat := 1408 + 16 * r.val + i

/-! Streams and pages (R193 to R196) -/

/-- A stream entry (R193, R219). -/
structure Stream where
  valid : Bool
  down : Bool
  cell : Nat
  ant : Nat
  base : Nat
  len : Nat
  deriving DecidableEq, Repr

/-- The fields of BFA_STREAMi. -/
def streamOf (v : Word) : Stream := ⟨bit v 0, bit v 1, fld v 5 2, fld v 11 6, fld v 21 12, 2 ^ (fld v 23 22 + 1)⟩

/-- Entry i. -/
def State.stream (s : State) (r : Fin 4) (i : Nat) : Stream := streamOf (s.reg (bfaA r (0x1000 + 4 * i)))

/-- Two page rings share a page. -/
def ringsMeet (a b : Stream) : Bool := decide (a.base < b.base + b.len ∧ b.base < a.base + a.len)

/-- A write of BFA_STREAMi (R193). -/
def State.streamWrite (s : State) (r : Fin 4) (i : Nat) (v : Word) : State :=
  let w := v &&& 0xFFFFFF
  let e := streamOf w
  let clash := e.valid && !e.down && (List.range 256).any fun k =>
    decide (k ≠ i) && (s.stream r k).valid && !(s.stream r k).down && ringsMeet e (s.stream r k)
  if clash || (!e.down && decide (768 < e.base + e.len)) then
    (s.setRegBit (bfaA r 0xC) 1 true).raise (bfaEvent r 7)
  else s.setReg (bfaA r (0x1000 + 4 * i)) w

/-- The stream entry of a cell, direction and antenna: the lowest-numbered valid one (R193). -/
def State.streamFor (s : State) (r : Fin 4) (down : Bool) (cell ant : Nat) : Option Nat :=
  (List.range 256).find? fun i =>
    let e := s.stream r i
    e.valid && e.down == down && decide (e.cell = cell) && decide (e.ant = ant)

/-- A page of the antenna buffer. -/
def State.page (s : State) (r : Fin 4) (p : Nat) : Page := sget (fun _ => {}) s.bfas[r].pages p

/-- The state with a page's tag and valid bits set. -/
def State.setPage (s : State) (r : Fin 4) (p : Nat) (v : Page) : State :=
  s.modBfa r fun b => { b with pages := sset (fun _ => {}) b.pages p v }

/-- Page of symbol N of a stream (R194). -/
def Stream.page (e : Stream) (n : Nat) : Nat := e.base + n % e.len

/-- Byte address of PRB b of a page. -/
def pageAt (r : Fin 4) (p b : Nat) : Nat := spacePages r.val + p * 16384 + 48 * b

/-- A hub write of one PRB lands (R195); one that lands after its window has closed is counted as late (14 R329). -/
def State.pageLand (s : State) (r : Fin 4) (w : PageWrite) : State :=
  let p := (s.stream r w.stream).page w.sym
  let tag := BitVec.ofNat 20 w.sym
  let g := s.page r p
  let s := if g.tag = tag then s else s.setPage r p { tag := tag, valid := 0 }
  let s := (s.cwWrite (.range r.val 1) (pageAt r p w.prb) (wholeBytes w.data)).1
  let g := s.page r p
  let s := s.setPage r p { g with valid := setBit g.valid w.prb true }
  match w.close with
  | some t => if t.toNat < (s.replica (.hub r)).toNat then (s.countUp (hubA r 1 0x20)).hubEvent r 2 else s
  | none => s

/-- The running operation reads the page of a hub write (R196), or the buffer is being cleared (R360). -/
def State.pageHeld (s : State) (r : Fin 4) (w : PageWrite) : Bool :=
  decide (56 + r.val ∈ s.slc.clearing) || match s.bfas[r].run with
  | some k => decide ((s.stream r w.stream).page w.sym ∈ k.pages)
  | none => false

/-- A hub write of one PRB of symbol N to an uplink stream: it lands, or is held while an operation reads the page (R196). -/
def State.pageWrite (s : State) (r : Fin 4) (w : PageWrite) : State :=
  let e := s.stream r w.stream
  if e.valid && !e.down then
    if s.pageHeld r w || s.bfas[r].held.any (fun h => decide (h.stream = w.stream)) then
      s.modBfa r fun b => { b with held := b.held ++ [w] }
    else s.pageLand r w
  else s

/-! Cells (R198, R208, R219) -/

/-- Address of a register of a cell. -/
def cellA (r : Fin 4) (c off : Nat) : Nat := bfaA r (0x100 + 0x10 * c + off)

/-- Fields of a cell. -/
structure Cell where
  en : Bool
  mu : Nat
  nsym : Nat
  a : Nat
  nprb : Nat
  inExp : Int
  outExp : Int
  mw : Nat
  comp : Bool
  /-- bytes -/
  gstride : Nat
  deriving DecidableEq, Repr

/-- A cell's configuration. -/
def State.cell (s : State) (r : Fin 4) (c : Nat) : Cell :=
  let f := s.reg (cellA r c 0)
  let g := s.reg (cellA r c 4)
  { en := bit f 0, mu := fld f 2 1, nsym := if bit f 3 then 12 else 14, a := fld f 10 4, nprb := fld f 19 11,
    inExp := sext 8 (fld g 7 0), outExp := sext 8 (fld g 15 8), mw := fld g 20 16, comp := bit g 21,
    gstride := 64 * fld g 31 22 }

/-- Both directions, or one, go to COLD: the active set is cleared (R208). -/
def State.coldUl (s : State) (r : Fin 4) (c : Nat) : State := (s.setRegBit (cellA r c 12) 0 true).setRegFld (cellA r c 12) 7 2 0

/-- The downlink direction goes to COLD (R208). -/
def State.coldDl (s : State) (r : Fin 4) (c : Nat) : State := (s.setRegBit (cellA r c 12) 1 true).setRegFld (cellA r c 12) 13 8 0

/-- A write to BFA_CELLc_STATE (R208, R219). -/
def State.cellState (s : State) (r : Fin 4) (c : Nat) (v : Word) : State :=
  let s := if bit v 16 || bit v 17 then s.coldUl r c else s
  if bit v 16 || bit v 18 then s.coldDl r c else s

/-- A write to CFG0, CFG1 or SETS of a cell (R208). -/
def State.cellCfg (s : State) (r : Fin 4) (c off : Nat) (v mask : Word) : State :=
  ((s.setReg (cellA r c off) (v &&& mask)).coldUl r c).coldDl r c

/-! Entries of slot programs (R199) -/

/-- Entry e of program memory. -/
def State.entry (s : State) (r : Fin 4) (e : Nat) : List Byte :=
  (List.range 16).flatMap fun i => toBytes 4 (s.reg (bfaA r (0x8000 + 0x40 * e + 4 * i))).toNat

/-- OP of an entry. -/
def eOp (e : List Byte) : Nat := eFld e 4 1

/-- OFFSET of entry e (R199). -/
def State.entryOfs (s : State) (r : Fin 4) (e : Nat) : Nat := (s.reg (bfaA r (0x8000 + 0x40 * e))).toNat

/-! Status records and completion (R200, R214) -/

/-- The 16 bytes of a status record (R214). -/
def recordBytes (op : BfaOp) (status detail flags : Nat) (start fin : Word) : List Byte :=
  toBytes 2 (op.index % 512 + 2 ^ 9 * op.channel + 2 ^ 11 * op.imm.toNat) ++ toBytes 2 status ++ toBytes 2 detail ++
    [BitVec.ofNat 8 (flags + op.late.toNat + 4 * op.waited.toNat), 0] ++ toBytes 4 start.toNat ++ toBytes 4 fin.toNat

/-- The status ring holds RING_SIZE records that software has not freed (R214). -/
def State.ringFull (s : State) (r : Fin 4) : Bool := decide (s.regFld (bfaA r 0x28) 15 0 ≤ s.bfas[r].ringHeld)

/-- Records held after a write of RING_RD or RING_SIZE: those from RING_RD up to RING_WR; none where they are equal (log entry 16). -/
def State.ringSync (s : State) (r : Fin 4) : State :=
  let n := s.regFld (bfaA r 0x28) 15 0
  s.modBfa r fun b => { b with ringHeld := (s.regFld (bfaA r 0x2C) 15 0 + n - s.regFld (bfaA r 0x30) 15 0 % n) % n }

/-- A status record written; with the ring full it is lost (R214). -/
def State.bfaRecord (s : State) (r : Fin 4) (op : BfaOp) (status detail flags : Nat) (start : Word) : State :=
  let n := s.regFld (bfaA r 0x28) 15 0
  if n = 0 then s
  else if s.ringFull r then (s.countUp (bfaA r 0x50)).raise (bfaEvent r 5)
  else
    let w := s.regFld (bfaA r 0x2C) 15 0
    let fin := (s.replica (.bfa r)).setWidth 32
    let a := (s.reg (bfaA r 0x20)).toNat + 2 ^ 32 * s.regFld (bfaA r 0x24) 7 0 + 16 * w
    let s := (s.postWrite (.bfa r) a (recordBytes op status detail flags start fin)).setReg (bfaA r 0x2C) (BitVec.ofNat 32 ((w + 1) % n))
    s.modBfa r fun b => { b with ringHeld := b.ringHeld + 1 }

/-- An operation completes: its record, its post, its events (R200, R218). -/
def State.bfaEnd (s : State) (r : Fin 4) (op : BfaOp) (status detail flags : Nat) (start : Word) : State :=
  let e := op.entry
  let s := s.bfaRecord r op status detail flags start
  let s := s.countUp (bfaA r 0x40)
  let s := if status = 0x40 then s.countUp (bfaA r 0x4C) detail else s
  let s := if (eFld e 6 1).testBit 0 then s.postFlag r (eFld e 8 2 % 1024) (eFld e 10 1 % 32) none else s
  let s := s.raiseIf ((eFld e 6 1).testBit 1) (bfaEvent r 0)
  s.raiseIf (decide (status ≠ 0 ∧ status ≠ 3) && s.regBit (bfaA r 4) 1) (bfaEvent r 1)

/-- An operation enters the queue, or is dropped where it holds 32 (R211); DROPPED is a status that is neither OK nor ABORTED (R218). -/
def State.bfaEnqueue (s : State) (r : Fin 4) (op : BfaOp) : State :=
  let n := s.bfas[r].queue.length
  let s := if op.late then s.countUp (bfaA r 0x44) else s
  if 32 ≤ n then
    let now := (s.replica (.bfa r)).setWidth 32
    let s := ((s.countUp (bfaA r 0x48)).bfaRecord r op 0x45 n 0 now).raise (bfaEvent r 2)
    s.raiseIf (s.regBit (bfaA r 4) 1) (bfaEvent r 1)
  else s.modBfa r fun b => { b with queue := b.queue ++ [op] }

/-! Sequencer channels (R210 to R213) -/

/-- Base of a channel's registers. -/
def seqA (r : Fin 4) (h : Nat) (off : Nat) : Nat := bfaA r (0x800 + 0x40 * h + off)

/-- SEQ_STATUS.RUN. -/
def State.seqRun (s : State) (r : Fin 4) (h : Nat) : Bool := s.regBit (seqA r h 0x30) 0

/-- FIRST and LAST of a channel. -/
def State.seqRange (s : State) (r : Fin 4) (h : Nat) : Nat × Nat := (s.regFld (seqA r h 0x24) 8 0, s.regFld (seqA r h 0x24) 24 16)

/-- Pass p of a channel (R210). -/
def State.seqPass (s : State) (r : Fin 4) (h : Nat) : Nat := sget (fun _ => 0) s.bfas[r].pass h

/-- BASE of a channel as it was started. -/
def State.seqBase (s : State) (r : Fin 4) (h : Nat) : Time := sget (fun _ => 0) s.bfas[r].base h

/-- The channel arms the fire time of an entry of a pass. -/
def State.seqArm (s : State) (r : Fin 4) (h p e : Nat) : State :=
  let t := (s.seqBase r h).toNat + p * (s.reg (seqA r h 0x28)).toNat + s.entryOfs r e
  let s := (s.setRegFld (seqA r h 0x30) 24 16 e).setReg (seqA r h 0x34) (BitVec.ofNat 32 p)
  let s := s.modBfa r fun b => { b with pass := sset (fun _ => 0) b.pass h p }
  s.armAt (seqA r h 0) (BitVec.ofNat 64 t)

/-- The program of a channel can start: entries in order, every OFFSET below PERIOD (R210). -/
def State.seqOk (s : State) (r : Fin 4) (h : Nat) : Bool :=
  let (a, b) := s.seqRange r h
  let per := (s.reg (seqA r h 0x28)).toNat
  decide (a ≤ b) && decide (256 ≤ per) && (List.range (b + 1 - a)).all (fun i =>
    decide (s.entryOfs r (a + i) < per) && (i = 0 || decide (s.entryOfs r (a + i - 1) ≤ s.entryOfs r (a + i))))

/-- START of channel h (R210). -/
def State.seqStart (s : State) (r : Fin 4) (h : Nat) : State :=
  if s.seqRun r h ∨ s.regBit (bfaA r 4) 0 = false then s
  else if s.seqOk r h then
    let t := BitVec.ofNat 64 (s.reg64 (seqA r h 0))
    let s := s.modBfa r fun b => { b with base := sset (fun _ => 0) b.base h t }
    (s.setRegBit (seqA r h 0x30) 0 true).seqArm r h 0 (s.seqRange r h).1
  else s.setRegBit (seqA r h 0x30) 1 true

/-- STOP of channel h: the entry that is current has not fired, so its comparator is disarmed (R212). -/
def State.seqStop (s : State) (r : Fin 4) (h : Nat) : State :=
  if s.seqRun r h then (s.setRegBit (seqA r h 0x30) 0 false).disarm (seqA r h 0) else s

/-- A write to BFA_SEQh_CTL. -/
def State.seqCtl (s : State) (r : Fin 4) (h : Nat) (v : Word) : State :=
  let s := if bit v 1 then s.seqStop r h else s
  if bit v 0 then s.seqStart r h else s

/-- Entries that fire with entry e: those after it with the same OFFSET. -/
def State.seqGroup (s : State) (r : Fin 4) (e last : Nat) : List Nat :=
  ((List.range (last + 1 - e)).map (e + ·)).takeWhile (fun k => s.entryOfs r k = s.entryOfs r e)

/-- The comparator of a running channel has fired (R210, R211): its entries are copied into the queue, and the next is armed. -/
def State.seqFire (s : State) (r : Fin 4) (h : Nat) (late : Bool) : State :=
  if s.seqRun r h then
    let e := s.regFld (seqA r h 0x30) 24 16
    let p := s.seqPass r h
    let (first, last) := s.seqRange r h
    let es := if e ≤ last then s.seqGroup r e last else [e]
    let slot := s.regFld (seqA r h 0x2C) 14 0 + p
    let s := es.foldl (fun t k => t.bfaEnqueue r ⟨t.entry r k, k, h, false, late, slot, false⟩) s
    let s := if late then s.raise (bfaEvent r 3) else s
    let n := e + es.length
    if last < n then s.seqArm r h (p + 1) first else s.seqArm r h p n
  else s

/-- A write to BFA_IMM_OP: entry E is enqueued at once (R213). -/
def State.immOp (s : State) (r : Fin 4) (v : Word) : State :=
  if s.regBit (bfaA r 4) 0 then
    let e := fld v 8 0
    s.bfaEnqueue r ⟨s.entry r e, e, 0, true, false, s.regFld (bfaA r 0x14) 14 0, false⟩
  else s

/-! Enabling (R216) -/

/-- DRAINED and its event, where EN is 0 and nothing is queued or running (R216). -/
def State.bfaDrain (s : State) (r : Fin 4) : State :=
  if s.regBit (bfaA r 4) 0 = false ∧ s.bfas[r].queue = [] ∧ s.bfas[r].run = none ∧ s.regBit (bfaA r 8) 3 = false then
    (s.setRegBit (bfaA r 8) 3 true).raise (bfaEvent r 6)
  else s

/-- EN cleared (R216): channels stop, queued operations complete ABORTED, the running one ends ABORTED. -/
def State.bfaDisable (s : State) (r : Fin 4) : State :=
  let s := (List.range 4).foldl (fun t h => t.seqStop r h) s
  let q := s.bfas[r].queue
  let s := s.modBfa r fun b => { b with queue := [] }
  let now := (s.replica (.bfa r)).setWidth 32
  let s := q.foldl (fun t op => t.bfaEnd r op 3 0 0 now) s
  let s := s.modBfa r fun b => { b with run := b.run.map fun k =>
    if k.status = 1 ∨ k.status = 2 then k else { k with status := 3, detail := k.groups } }
  s.bfaDrain r

/-- A write to BFA_CTL (R216). -/
def State.bfaCtl (s : State) (r : Fin 4) (v : Word) : State :=
  let en := s.regBit (bfaA r 4) 0
  if bit v 0 ∧ en = false then
    if s.regBit (bfaA r 8) 3 then (s.setReg (bfaA r 4) (v &&& 3)).setRegBit (bfaA r 8) 3 false
    else s.setRegBit (bfaA r 0xC) 0 true
  else
    let s := s.setReg (bfaA r 4) (v &&& 3)
    if bit v 0 = false ∧ en = true then s.bfaDisable r else s

/-- A register of BFA_ that shows the array's own state (R219). -/
def State.bfaView (s : State) (r : Fin 4) (o : Nat) : Option Word :=
  if o = 8 then
    some (setFld (setBit (s.reg (bfaA r 8)) 1 s.bfas[r].run.isSome) 13 8 s.bfas[r].queue.length)
  else if o = 0x54 then some (BitVec.ofNat 32 (s.bfas[r].busy / 1024))
  else none

/-- The earliest armed entry time of a BFA's channels, which it reports to the sluice controller (R213). -/
def State.bfaNext (s : State) (r : Fin 4) : Option Nat :=
  let ts := ([0, 1, 2, 3] : List (Fin 4)).filterMap fun h =>
    if s.seqRun r h.val ∧ s.armed (.seq r h) then some (s.target (seqA r h.val 0)).toNat else none
  ts.foldl (fun b t => match b with
    | none => some t
    | some u => some (min t u)) none

/-! Commands -/

/-- HELD_PAGE_WRITE of BFA r: the first held write whose page no operation reads lands (R196). -/
def execHeldPageWrite (r : Fin 4) (s : State) : Out :=
  act s (s.bfaOn r.val = true) fun s =>
    match s.bfas[r].held.find? (fun w => !s.pageHeld r w) with
    | none => s
    | some w => (s.modBfa r fun b => { b with held := b.held.erase w }).pageLand r w

end Sys2Proof.Machine
end

