-- ==== Sys2Proof/Machine/Time.lean ====
section
/-! DEFINITION. The timebase (02_device_time.md): the count, its rate and slew, the views, and the events of its inputs. Steps
and ticks, which reach the dispatchers, are in Machine/Timebase.lean. -/

namespace Sys2Proof.Machine

/-- Address of a TB_ register. -/
def tbA (off : Nat) : Nat := Block.tb.base + off

/-! Views (R28, R29) -/

/-- Symbol lengths of a numerology: useful part, CP, longer CP, symbols of 0.5 ms and of a slot (R29). -/
structure Numerology where
  mu : Nat
  useful : Nat
  cp : Nat
  cpLong : Nat
  perSlot : Nat
  deriving DecidableEq, Repr

/-- The numerology TB_VIEWv_CFG names (R29). -/
def numerology (cfg : Word) : Numerology :=
  let mu := fld cfg 2 1
  if mu = 0 ∧ bit cfg 3 then ⟨0, 65536, 16384, 16384, 12⟩
  else if mu = 0 then ⟨0, 65536, 4608, 5120, 14⟩
  else if mu = 1 then ⟨1, 32768, 2304, 2816, 14⟩
  else if mu = 2 ∧ bit cfg 3 then ⟨2, 16384, 4096, 4096, 12⟩
  else if mu = 2 then ⟨2, 16384, 1152, 1664, 14⟩
  else ⟨3, 8192, 576, 1088, 14⟩

/-- Symbols in 0.5 ms. -/
def Numerology.perHalf (m : Numerology) : Nat := m.perSlot * 2 ^ m.mu / 2

/-- Start, within a subframe, of symbol g of the subframe: the symbol at each 0.5 ms boundary carries the longer CP (R29). -/
def Numerology.symStart (m : Numerology) (g : Nat) : Nat :=
  let h := g / m.perHalf
  let k := g % m.perHalf
  h * 491520 + (if k = 0 then 0 else (m.useful + m.cpLong) + (k - 1) * (m.useful + m.cp))

/-- Length of symbol g of a subframe. -/
def Numerology.symLen (m : Numerology) (g : Nat) : Nat :=
  m.useful + (if g % m.perHalf = 0 then m.cpLong else m.cp)

/-- Symbol of the subframe that time t within it lies in. -/
def Numerology.symAt (m : Numerology) (t : Nat) : Nat :=
  let h := t / 491520
  let u := t % 491520
  h * m.perHalf + (if u < m.useful + m.cpLong then 0 else 1 + (u - (m.useful + m.cpLong)) / (m.useful + m.cp))

/-- View time of count n under view v (R29). -/
def State.viewTime (s : State) (v n : Nat) : Int :=
  (n : Int) - (s.frameOfs : Int) - sext 32 (s.reg (tbA (0x84 + 0x10 * v))).toNat

/-- TB_VIEWv_POS and TB_VIEWv_INTO at count n (R29); a disabled view shows 0. -/
def State.viewAt (s : State) (v n : Nat) : Word × Word :=
  let cfg := s.reg (tbA (0x80 + 0x10 * v))
  if bit cfg 0 then
    let m := numerology cfg
    let t := s.viewTime v n
    let sfn := ((t / 9830400) % 1024).toNat
    let f := (t % 9830400).toNat
    let sub := f / 983040
    let u := f % 983040
    let g := m.symAt u
    let slot := sub * 2 ^ m.mu + g / m.perSlot
    (BitVec.ofNat 32 (sfn + sub * 2 ^ 10 + slot * 2 ^ 14 + g % m.perSlot * 2 ^ 21), BitVec.ofNat 32 (u - m.symStart g))
  else (0, 0)

/-- A capture: TB_NOW and each view's position (R50, TB_CAP). -/
def State.capture (s : State) : State :=
  let n := s.tb.now.toNat
  let s := s.setReg64 (tbA 0x20) n
  (List.range 4).foldl (fun t v =>
    let p := t.viewAt v n
    (t.setReg (tbA (0xE0 + 8 * v)) p.1).setReg (tbA (0xE4 + 8 * v)) p.2) s

/-! Rate and slew (R38, R40) -/

/-- The greatest rate offset (R38). -/
def rateMax : Int := 109951

/-- TB_RATE after the clamp (R38). -/
def clampRate (v : Word) : Int := max (-rateMax) (min rateMax (sext 32 v.toNat))

/-- The rate in effect: the slew's while a remainder stands, else TB_RATE clamped (R38, R40). -/
def State.rateAct (s : State) : Int :=
  if 0 < s.tb.slew then rateMax else if s.tb.slew < 0 then -rateMax else clampRate (s.reg (tbA 0x40))

/-- The remainder to slew changes; one that was not zero and becomes zero ends the slew (R40). -/
def State.setSlew (s : State) (r : Int) : State :=
  let done := decide (s.tb.slew ≠ 0 ∧ r = 0)
  ({ s with tb := { s.tb with slew := r } }).raiseIf done 1636

/-- The accumulator carries in the next cycle (R38): it holds the magnitude (assumption 13). -/
def State.carries (s : State) : Bool := decide (2 ^ 40 ≤ s.tb.frac.toNat + s.rateAct.natAbs)

/-- One timebase cycle: TB_NOW goes up by 1, or by 2 or 0 at a carry; a carry moves the remainder one tu towards zero
(R23, R38, R40). Before the PLL has locked nothing counts (R24). -/
def State.tbCycle (s : State) : State :=
  if s.tb.started then
    let r := s.rateAct
    let c := s.carries
    let inc : Time := if c then (if 0 < r then 2 else 0) else 1
    let rem : Int := if c then (if 0 < s.tb.slew then s.tb.slew - 1 else if s.tb.slew < 0 then s.tb.slew + 1 else 0)
      else s.tb.slew
    let s := { s with tb := { s.tb with
      now := s.tb.now + inc
      frac := BitVec.ofNat 40 (s.tb.frac.toNat + r.natAbs)
      cycles := s.tb.cycles + 1 } }
    s.setSlew rem
  else s

/-- A write to TB_RATE: stored; beyond the clamp RATE_CLAMP is set and event 1641 raised (R38, R49). -/
def State.rateWrite (s : State) (v : Word) : State :=
  let s := s.setReg (tbA 0x40) v
  if clampRate v ≠ sext 32 v.toNat then (s.setRegBit (tbA 4) 10 true).raise 1641 else s

/-- A write to TB_TICK_DIV: 256 to 65,536 waits for the next frame boundary, any other value is ignored (R42, R43). -/
def State.tickDivWrite (s : State) (v : Word) : State :=
  let d := fld v 16 0
  if 256 ≤ d ∧ d ≤ 65536 then
    let s := { s with tb := { s.tb with
      divNew := some (BitVec.ofNat 17 d)
      divFrame := ((s.tb.now.toNat : Int) - s.frameOfs) / 9830400 } }
    (s.setReg (tbA 0x70) (BitVec.ofNat 32 d)).setRegBit (tbA 0x74) 0 true
  else s

/-- The new tick length comes into effect (R43). -/
def State.tickDivApply (s : State) : State :=
  match s.tb.divNew with
  | some d => ({ s with tb := { s.tb with div := d, divNew := none } }).setRegBit (tbA 0x74) 0 false
  | none => s

/-- A frame boundary has been reached since TB_TICK_DIV was written (R43). -/
def State.tickDivDue (s : State) : Bool :=
  s.tb.divNew.isSome && decide (s.tb.divFrame ≠ ((s.tb.now.toNat : Int) - s.frameOfs) / 9830400)

/-- Views store ECP only for MU 0 and 2 (R50). -/
def viewCfgStore (v : Word) : Word :=
  let mu := fld v 2 1
  setBit (v &&& 0xF) 3 (bit v 3 && (mu = 0 || mu = 2))

/-! RECCLK (R46, R50) -/

/-- The loss of an output's source lane is set or ended. -/
def State.setRecLost (s : State) (n : Nat) (b : Bool) : State :=
  { s with tb := { s.tb with recLost := if b then s.tb.recLost ||| BitVec.ofNat 2 (2 ^ n) else s.tb.recLost &&& ~~~BitVec.ofNat 2 (2 ^ n) } }

/-- A lane that sources a recovered clock has lost CDR lock or left ACTIVE: its outputs note the loss, and the squelch event is raised
(R46). -/
def State.squelch (s : State) (lane : Nat) : State :=
  (List.range 2).foldl (fun t n =>
    if t.regFld (tbA (0xC0 + 4 * n)) 6 0 = lane then (t.setRecLost n true).raise (1643 + n) else t) s

/-- TB_RECCLKn_CFG.SQUELCHED: the output is squelched now: its lane is lost while SQUELCH_EN is 1 (R46, R50). -/
def State.squelched (s : State) (n : Nat) : Bool := s.tb.recLost.getLsbD n && s.regBit (tbA (0xC0 + 4 * n)) 9

/-- The divider that DIV selects (R50). -/
def recclkDiv (w : Word) : Nat := [165, 660, 80, 320].getD (fld w 8 7) 165

/-- A recovered-clock output: held low, or the clock of a lane divided (R46, R50). -/
inductive Recclk
  | low
  | clock (lane div : Nat)
  deriving DecidableEq, Repr

/-- What RECCLKn_P/M outputs: low while OUT_EN is 0, while SRC_LANE names no lane of the part, and while it is squelched (R46, R50). -/
def State.recclk (s : State) (n : Nat) : Recclk :=
  let w := s.reg (tbA (0xC0 + 4 * n))
  let lane := fld w 6 0
  if bit w 10 = false ∨ 96 ≤ lane ∨ s.hasRange (lane / 24) = false ∨ s.squelched n = true then .low
  else .clock lane (recclkDiv w)

/-! PPS_IN (R25) -/

/-- Stable tu that an edge takes: DEGLITCH, 0 taken as 1 (R50). -/
def State.deglitch (s : State) : Nat := max 1 (s.regFld (tbA 0x68) 15 2)

/-- The edge whose first sample had the replica value `first` has been stable for DEGLITCH tu now: the replica stands at the last of
them, or one tu on where a carry passed it; a step since the first sample is taken out (assumption 104). -/
def State.edgeHeld (s : State) (first : Time) : Bool :=
  let v : Int := (s.replica .tb).toNat
  let last : Int := first.toNat + s.deglitch - 1
  let by_ (d : Int) : Bool := decide (last + d ≤ v ∧ v ≤ last + d + 1)
  by_ 0 || (decide (s.tb.cycles < s.tb.stepAt + s.deglitch) && by_ s.tb.stepBy)

/-- TB_PPS_CFG written: where EN goes from 0 to 1, the 1.5 s without an edge begin (R25). -/
def State.ppsEnable (s : State) (was : Bool) : State :=
  if was = false ∧ s.regBit (tbA 0x68) 0 = true then { s with tb := { s.tb with ppsRef := s.tb.cycles } } else s

/-! Commands -/

/-- REFCLK_LOST (R24). -/
def execRefclkLost (s : State) : Out :=
  act s (s.regBit (tbA 4) 1 = false) fun s => ((s.setRegBit (tbA 4) 1 true).setRegBit (tbA 4) 8 true).raise 1638

/-- REFCLK_RESTORED (R24): TB_NOW does not jump. -/
def execRefclkRestored (s : State) : Out :=
  act s (s.regBit (tbA 4) 1 = true) fun s => (s.setRegBit (tbA 4) 1 false).raise 1639

/-- TB_PLL_UNLOCK (R24). -/
def execTbPllUnlock (s : State) : Out :=
  act s (s.regBit (tbA 4) 0 = true) fun s => ((s.setRegBit (tbA 4) 0 false).setRegBit (tbA 4) 9 true).raise 1640

/-- TB_PLL_LOCK: the first lock after PORST_N; TB_NOW begins to count (R24). -/
def execTbPllLock (s : State) : Out :=
  act s (s.tb.started = false ∧ s.regBit (tbA 4) 1 = false) fun s =>
    { s.setRegBit (tbA 4) 0 true with tb := { s.tb with started := true } }

/-- TB_PLL_RELOCK: the PLL relocks on frequency; TB_NOW does not jump (R24). -/
def execTbPllRelock (s : State) : Out :=
  act s (s.tb.started = true ∧ s.regBit (tbA 4) 0 = false ∧ s.regBit (tbA 4) 1 = false) fun s => s.setRegBit (tbA 4) 0 true

/-- PPS_MISSING: 1.5 s without an edge, and again after each further 1.5 s (R25). -/
def execPpsMissing (s : State) : Out :=
  act s (s.regBit (tbA 0x68) 0 = true ∧ s.tb.ppsRef + 1474560000 ≤ s.tb.cycles) fun s =>
    ({ s with tb := { s.tb with ppsRef := s.tb.ppsRef + 1474560000 } }).raise 1633

/-- TICK_DIV_APPLY (R43). -/
def execTickDivApply (s : State) : Out := act s (s.tickDivDue = true) State.tickDivApply

/-- TREE_CHECK of a replica: a difference above 2 tu is counted, recorded and reported, and the replica reloaded where
TREE_RELOAD_EN is 1 (R31). -/
def execTreeCheck (r : ReplicaId) (s : State) : Out :=
  act s (2 < (sget (fun _ => 0) s.replicas r.index).natAbs) fun s =>
    let s := (s.countSat (tbA 0xD0)).setReg (tbA 0xD4) ((Config.replicaIdent r.index).setWidth 32)
    let s := (s.setRegBit (tbA 4) 11 true).raise 1637
    if s.regBit (tbA 8) 1 then s.setReplica r 0 else s

/-- SLEW_CARRY: the timebase cycle in which the accumulator carries (R38). -/
def execSlewCarry (s : State) : Out :=
  act s (s.tb.started = true ∧ s.carries = true) State.tbCycle

end Sys2Proof.Machine
end

