-- ==== Sys2Proof/Machine/Lanes.lean ====
section
/-! DEFINITION. Fronthaul lanes (13_fronthaul_lanes.md): rates and PLLs, alignment, equalisation, PRBS and power states. The commands
whose effect reaches the framing are in Machine/Framing.lean. -/

namespace Sys2Proof.Machine

/-- Address of a register of lane L (R300, R319). -/
def lnA (l : Fin 96) (off : Nat) : Nat := (Block.hub (l.val / 24) 0).base + 0x1000 + l.val % 24 * 0x100 + off

/-- Address of a register of device quad Q (R300, R319). -/
def quadA (q : Nat) (off : Nat) : Nat := (Block.hub (q / 6) 0).base + 0x100 + q % 6 * 0x10 + off

/-- Device quad of a lane. -/
def quadOf (l : Fin 96) : Nat := l.val / 4

/-- The state with a lane changed. -/
def State.modLane (s : State) (l : Fin 96) (f : Lane → Lane) : State := { s with lanes := s.lanes.set l (f s.lanes[l]) }

/-- The lane is one the part has (R300). -/
def State.hasLane (s : State) (l : Fin 96) : Bool := s.hasRange (l.val / 24)

/-- Event i of a lane, while its enable bit is 1 (R318). -/
def State.laneEvent (s : State) (l : Fin 96) (i : Nat) : State := s.raiseIf (s.regBit (lnA l 0x3C) i) (896 + 4 * l.val + i)

/-- A bit of LN_STATUS. -/
def State.lnStatus (s : State) (l : Fin 96) (i : Nat) : Bool := s.regBit (lnA l 8) i

/-- LN_CFG.RATE. -/
def State.lnRate (s : State) (l : Fin 96) : Nat := s.regFld (lnA l 0) 3 0

/-- LN_PWR.STATE: 0 ACTIVE, 1 QUIET, 2 DORMANT, 3 OFF. -/
def State.lnState (s : State) (l : Fin 96) : Nat := s.regFld (lnA l 4) 17 16

/-- The PLL a rate uses: none, Ethernet, CPRI family A, CPRI family B (R302). -/
inductive LanePll | none | eth | cpriA | cpriB
  deriving DecidableEq, Repr

/-- PLL of a rate (R302). -/
def ratePll (r : Nat) : LanePll :=
  if r = 1 then .eth else if 2 ≤ r ∧ r ≤ 6 then .cpriA else if 7 ≤ r ∧ r ≤ 9 then .cpriB else .none

/-- The rate codes 8b/10b. -/
def rate8b10b (r : Nat) : Bool := decide (2 ≤ r ∧ r ≤ 9)

/-- Lanes of a quad. -/
def quadLanes (q : Nat) : List (Fin 96) := (List.finRange 96).filter fun l => l.val / 4 = q

/-- A lane uses the Ethernet PLL, or the CPRI PLL, of its quad. -/
def State.usesPll (s : State) (l : Fin 96) (cpri : Bool) : Bool :=
  match ratePll (s.lnRate l) with
  | .none => false
  | .eth => !cpri
  | _ => cpri

/-- LN_STATUS bits of reception cleared or set as a whole: 1 CDR_LOCK, 2 ALIGNED, 3 BLOCK_LOCK; alignment lost sets ALIGN_LOST
(R312, R319). -/
def State.dropSync (s : State) (l : Fin 96) (cdr : Bool) : State :=
  let lost := s.lnStatus l 2 || s.lnStatus l 3
  let s := (s.setRegBit (lnA l 8) 2 false).setRegBit (lnA l 8) 3 false
  let s := if cdr then s.setRegBit (lnA l 8) 1 false else s
  let s := if lost then s.setRegBit (lnA l 0xC) 4 true else s
  let s := s.setRegBit (lnA l 0x2C) 31 false
  s.modLane l fun a => { a with al := .unaligned, got := none, n := 0, e := 0, good := 0, hdrs := 0, hdrBad := 0 }

/-! What a lane sends (R304, R305, R313, R315, R319) -/

/-- The transmitter drives its ball: the lane is ACTIVE, its PLL is locked, and it is not in near-end loopback; else the ball is in electrical
idle (R304, R315, R319). -/
def State.laneSends (s : State) (l : Fin 96) : Bool :=
  decide (s.lnState l = 0) && s.lnStatus l 5 && decide (s.regFld (lnA l 0) 7 6 ≠ 1)

/-- The framing's data goes out: neither the PRBS generator nor the far-end loopback replaces it (R313, R319). -/
def State.framingSends (s : State) (l : Fin 96) : Bool :=
  s.laneSends l && !s.regBit (lnA l 0x30) 4 && decide (s.regFld (lnA l 0) 7 6 ≠ 2)

/-- Degree and middle term of the polynomial of a PATTERN (R313). -/
def prbsTaps (pattern : Nat) : Nat × Nat :=
  match pattern with
  | 0 => (7, 6)
  | 1 => (15, 14)
  | 2 => (23, 18)
  | _ => (31, 28)

/-- The next bit of a PRBS and its history: each bit is the sum of those the degree and the middle term before. A history of zeros, from which
no pattern starts, is taken as ones. -/
def prbsStep (taps : Nat × Nat) (h : BitVec 31) : Bool × BitVec 31 :=
  let h := if h.toNat % 2 ^ taps.1 = 0 then BitVec.allOnes 31 else h
  let b := xor (h.getLsbD (taps.1 - 1)) (h.getLsbD (taps.2 - 1))
  (b, BitVec.ofNat 31 (2 * h.toNat + b.toNat))

/-- The next n bits of a PRBS, and the history after them. -/
def prbsBits (taps : Nat × Nat) (h : BitVec 31) (n : Nat) : List Bool × BitVec 31 :=
  let q := (List.range n).foldl (fun (q : List Bool × BitVec 31) _ =>
    let r := prbsStep taps q.2
    (r.1 :: q.1, r.2)) ([], h)
  (q.1.reverse, q.2)

/-- PRBS15, PRBS23 and PRBS31 are inverted by O.150, PRBS7 is not (PRESUMED, log entry 127); INV and the lane's polarity invert besides. -/
def State.prbsInv (s : State) (l : Fin 96) : Bool :=
  xor (decide (s.regFld (lnA l 0x30) 1 0 ≠ 0)) (xor (s.regBit (lnA l 0x30) 6) (s.regBit (lnA l 0) 4))

/-- n bits of the lane's PRBS generator leave by its ball (R313). -/
def State.prbsSend (s : State) (l : Fin 96) (n : Nat) : State :=
  let q := prbsBits (prbsTaps (s.regFld (lnA l 0x30) 1 0)) s.lanes[l].prbs n
  (s.modLane l fun a => { a with prbs := q.2 }).emit (.prbs (l.val / 24) (l.val % 24) (q.1.map (xor (s.prbsInv l))))

/-- A code group with its first bit on top, as it is sent: that bit in bit 0. -/
def sentCode (c : Nat) (inv : Bool) : BitVec 10 :=
  BitVec.ofNat 10 ((List.range 10).foldl (fun v i => v + if c.testBit (9 - i) != inv then 2 ^ i else 0) 0)

/-- The code group of a symbol, bit 8 its K flag, and the running disparity after it (R305). -/
def encodeSym (x : BitVec 9) (rdPos : Bool) : Nat × Bool :=
  if x.getLsbD 8 then
    match kCodes.find? fun k => decide (k.1 = x.toNat % 256) with
    | some k => encK k.2 rdPos
    | none => encD (x.toNat % 256) rdPos
  else encD (x.toNat % 256) rdPos

/-- The code groups of symbols, from a running disparity on, and the disparity after them (R305). -/
def encodeSyms (inv : Bool) : Bool → List (BitVec 9) → List (BitVec 10) × Bool
  | rd, [] => ([], rd)
  | rd, x :: l =>
    let c := encodeSym x rd
    let q := encodeSyms inv c.2 l
    (sentCode c.1 inv :: q.1, q.2)

/-- Symbols that a framing hands to a lane: sent coded; or, where the PRBS generator is on, as many bits of its pattern in their place; or
nothing (R304, R305, R313). -/
def State.laneSend (s : State) (l : Fin 96) (syms : List (BitVec 9)) : State :=
  if s.framingSends l then
    let q := encodeSyms (s.regBit (lnA l 0) 4) s.lanes[l].txPos syms
    (s.modLane l fun a => { a with txPos := q.2 }).emit (.symbols (l.val / 24) (l.val % 24) q.1)
  else if s.laneSends l && s.regBit (lnA l 0x30) 4 then s.prbsSend l (10 * syms.length)
  else s

/-- Ten bits recovered by a lane in far-end loopback are sent again, unless its PRBS generator is on (R319). -/
def State.laneEcho (s : State) (l : Fin 96) (bits : BitVec 10) : State :=
  if s.laneSends l && decide (s.regFld (lnA l 0) 7 6 = 2) && !s.regBit (lnA l 0x30) 4 then
    s.emit (.symbols (l.val / 24) (l.val % 24) [if s.regBit (lnA l 0) 4 then ~~~bits else bits])
  else s

/-! Rates, families and equalisation -/

/-- A write to LN_CFG (R303): RATE is refused unless the lane is OFF, from 10 to 15, and for an 8b/10b rate of the other family;
the other fields are stored. -/
def State.lnCfgWrite (s : State) (l : Fin 96) (v : Word) : State :=
  let r := fld v 3 0
  let fam := s.regBit (quadA (quadOf l) 0) 0
  let s := s.setReg (lnA l 0) ((s.reg (lnA l 0) &&& 0xF) ||| (v &&& 0xF0))
  if s.lnState l ≠ 3 ∨ 10 ≤ r then (s.setRegBit (lnA l 0xC) 0 true).laneEvent l 3
  else if (ratePll r = .cpriA ∧ fam = true) ∨ (ratePll r = .cpriB ∧ fam = false) then
    (s.setRegBit (lnA l 0xC) 1 true).laneEvent l 3
  else s.setRegFld (lnA l 0) 3 0 r

/-- A write to LN_QUADq_CFG (R303): FAMILY is refused while a lane of the quad has an 8b/10b rate. -/
def State.quadWrite (s : State) (q : Nat) (v : Word) : State :=
  let s := if bit v 8 then s.setRegBit (quadA q 0) 8 false else s
  if (quadLanes q).any (fun l => rate8b10b (s.lnRate l)) then
    let s := s.setRegBit (quadA q 0) 8 true
    match (quadLanes q).head? with
    | some l => s.laneEvent l 3
    | none => s
  else s.setRegBit (quadA q 0) 0 (bit v 0)

/-- A write to LN_TXEQ within the limits; one outside them is ignored (R309). -/
def State.txeqWrite (s : State) (l : Fin 96) (v : Word) : State :=
  let pre := fld v 3 0
  let main := fld v 13 8
  let post := fld v 20 16
  if 63 < pre + main + post ∨ main < 16 + pre + post then (s.setRegBit (lnA l 0xC) 2 true).laneEvent l 3
  else s.setReg (lnA l 0x10) (v &&& 0x1F3F0F)

/-- A write to LN_EQ_VAL0 or VAL1, ignored unless ADAPT is MANUAL (R310, R319). -/
def State.eqValWrite (s : State) (l : Fin 96) (i : Nat) (v : Word) : State :=
  if s.regFld (lnA l 0x14) 1 0 = 2 then
    s.setReg (lnA l (0x18 + 4 * i)) (if i = 0 then v &&& 0x3F3F0F else v &&& 0x3F3F3F)
  else s

/-! Alignment (R306, R307) -/

/-- ALIGN_CNT and LOSS_CNT, where 0 acts as 1 (R319). -/
def State.alignCnt (s : State) (l : Fin 96) : Nat := max 1 (s.regFld (lnA l 0x20) 3 0)

/-- LOSS_CNT (R319). -/
def State.lossCnt (s : State) (l : Fin 96) : Nat := max 1 (s.regFld (lnA l 0x20) 11 8)

/-- Ten bits from position p of a window of twenty, first received in bit 0 of `w`, as a code with its first bit on top. -/
def bitsAt (w : Nat) (p n : Nat) : Nat :=
  (List.range n).foldl (fun v i => 2 * v + (w.testBit (p + i)).toNat) 0

/-- LN_RXLAT becomes valid at alignment (R308). -/
def State.setLatency (s : State) (l : Fin 96) (p : Nat) : State :=
  s.setReg (lnA l 0x2C) (setBit ((Config.rxLatency (s.lnRate l) p).setWidth 32) 31 true)

/-- A comma seen at a position of a window (R306). Where it sets P, the symbol there gives the running disparity (R305). -/
def State.commaAt (s : State) (l : Fin 96) (w p : Nat) : State :=
  let a := s.lanes[l]
  let set : State := s.modLane l fun a => { a with al := .candidate, pos := p, n := 1, rdPos := (receive10 (bitsAt w p 10) a.rdPos).rdPos }
  match a.al with
  | .aligned => s
  | .unaligned => set
  | .candidate => if p = a.pos then s.modLane l fun a => { a with n := a.n + 1 } else set

/-- A candidate with ALIGN_CNT commas is aligned (R306). -/
def State.alignCheck (s : State) (l : Fin 96) : State :=
  let a := s.lanes[l]
  if a.al = .candidate ∧ s.alignCnt l ≤ a.n then
    let s := s.modLane l fun a => { a with al := .aligned, e := 0, good := 0 }
    ((s.setRegBit (lnA l 8) 2 true).setLatency l a.pos).laneEvent l 0
  else s

/-- A symbol at P received by an aligned or candidate lane; an aligned one delivers it to the framing with its flags (R305, R306). -/
def State.symbolAt (s : State) (l : Fin 96) (sym : Nat) : State :=
  let a := s.lanes[l]
  let q := receive10 sym a.rdPos
  let s := if q.bad then s.countSat (lnA l 0x24) else s
  let s := if q.disp then s.countSat (lnA l 0x28) else s
  let s := s.modLane l fun a => { a with rdPos := q.rdPos }
  match a.al with
  | .unaligned => s
  | .candidate => if q.bad then s.modLane l fun a => { a with al := .unaligned } else s
  | .aligned =>
    let s := s.modLane l fun a => { a with got := some (q.sym, q.bad) }
    if q.bad then
      if s.lossCnt l ≤ a.e + 1 then (s.dropSync l false).laneEvent l 0
      else s.modLane l fun a => { a with e := a.e + 1, good := 0 }
    else if a.good + 1 = 16 ∧ 0 < a.e then s.modLane l fun a => { a with e := a.e - 1, good := 0 }
    else s.modLane l fun a => { a with good := min 16 (a.good + 1) }

/-- Ten bits received by an 8b/10b lane, first received in bit 0 (R305, R306): the symbol at P, then the commas that begin in the
ten bits before. RX_INV inverts them first (R319). -/
def State.symbolReceive (s : State) (l : Fin 96) (bits : BitVec 10) : State :=
  let bits := if s.regBit (lnA l 0) 5 then ~~~bits else bits
  let s := s.laneEcho l bits
  let w := s.lanes[l].win.toNat + 1024 * bits.toNat
  let s := s.modLane l fun a => { a with win := bits }
  let s := if s.lanes[l].al = .unaligned then s else s.symbolAt l (bitsAt w s.lanes[l].pos 10)
  let s := ((List.range 10).filter (fun p => isComma (bitsAt w p 7))).foldl (fun t p => t.commaAt l w p) s
  s.alignCheck l

/-- A sync header received by a 64b/66b lane (R307). -/
def State.headerReceive (s : State) (l : Fin 96) (hdr : BitVec 2) : State :=
  let ok := hdr = 1 ∨ hdr = 2
  let a := s.lanes[l]
  let lock := s.lnStatus l 3
  let s := if ok then s else s.countSat (lnA l 0x24)
  if ok then
    if a.hdrs + 1 = 64 then
      let s := s.modLane l fun a => { a with hdrs := 0, hdrBad := 0 }
      if a.hdrBad = 0 ∧ !lock then ((s.setRegBit (lnA l 8) 3 true).setLatency l 0).laneEvent l 0 else s
    else s.modLane l fun a => { a with hdrs := a.hdrs + 1 }
  else if !lock then s.modLane l fun a => { a with hdrs := 0, hdrBad := 0 }
  else if a.hdrBad + 1 = 16 then (s.dropSync l false).laneEvent l 0
  else if a.hdrs + 1 = 64 then s.modLane l fun a => { a with hdrs := 0, hdrBad := 0 }
  else s.modLane l fun a => { a with hdrs := a.hdrs + 1, hdrBad := a.hdrBad + 1 }

/-! Power (R302, R315 to R317) -/

/-- The lane's target state: the deeper of REQ and LIMIT; OFF with RATE 0 (R316). -/
def State.pwrTarget (s : State) (l : Fin 96) : Nat :=
  if s.lnRate l = 0 then 3 else max (s.regFld (lnA l 4) 1 0) (s.regFld (lnA l 4) 9 8)

/-- A transition begins where none is in progress and the target differs; a lane that leaves OFF goes to ACTIVE first, and
stays there until initial adaptation completes (R317). -/
def State.pwrEval (s : State) (l : Fin 96) : State :=
  let st := s.lnState l
  let t := s.pwrTarget l
  if s.regBit (lnA l 4) 18 ∨ t = st ∨ (s.lanes[l].adapting ∧ t ≠ 3) then s
  else
    let g := if st = 3 then 0 else t
    (s.setRegBit (lnA l 4) 18 true).modLane l fun a => { a with trans := some g }

/-- The reference input of the Ethernet or CPRI PLLs of a quad's hub (R304). -/
def pllRef (q : Nat) (cpri : Bool) : Nat := 2 * (q / 6) + cpri.toNat

/-- PLLs of a quad powered by need, and the lanes' PLL_LOCK (R302): a PLL whose reference is absent does not lock (R304). -/
def State.pllUpdate (s : State) (q : Nat) : State :=
  let need (cpri : Bool) : Bool := (quadLanes q).any fun l => s.usesPll l cpri && decide (s.lnState l < 2)
  let one (t : State) (cpri : Bool) : State :=
    let b := if cpri then 2 else 0
    let on := need cpri
    let was := t.regBit (quadA q 4) b
    let t := t.setRegBit (quadA q 4) b on
    if on then (if was then t else t.setRegBit (quadA q 4) (b + 1) !decide (pllRef q cpri ∈ t.refLost)) else t.setRegBit (quadA q 4) (b + 1) false
  let s := one (one s false) true
  (quadLanes q).foldl (fun t l =>
    t.setRegBit (lnA l 8) 5 (decide (t.lnState l < 2) &&
      ((t.usesPll l false && t.regBit (quadA q 4) 1) || (t.usesPll l true && t.regBit (quadA q 4) 3)))) s

/-- The quad's domain is on while a lane of it is not OFF (15_sluices_power.md R348). -/
def State.quadDomain (s : State) (q : Nat) : State :=
  let v := if (quadLanes q).any (fun l => s.lnState l ≠ 3) then 0 else 4
  (s.setRegFld (domState (24 + q)) 2 0 v).setRegFld (domState (24 + q)) 6 4 v

/-- A transition ends in its state (R305, R306, R311, R315). -/
def State.pwrDone (s : State) (l : Fin 96) (g : Nat) : State :=
  let old := s.lnState l
  let s := (s.setRegFld (lnA l 4) 17 16 g).setRegBit (lnA l 4) 18 false
  let s := s.modLane l fun a => { a with trans := none }
  let s :=
    if g = 3 then
      let s := (s.dropSync l true).setReg (lnA l 8) 0
      s.modLane l fun a => { a with stored := (0, 0), adapting := false }
    else if g = 2 then
      let v := (s.reg (lnA l 0x18), s.reg (lnA l 0x1C))
      let s := (s.dropSync l true).setRegBit (lnA l 8) 6 true
      s.modLane l fun a => { a with stored := v }
    else if g = 0 then
      let s := if old = 2 then (s.setReg (lnA l 0x18) s.lanes[l].stored.1).setReg (lnA l 0x1C) s.lanes[l].stored.2 else s
      let s := s.dropSync l (old ≠ 1)
      s.modLane l fun a => { a with rdPos := false, txPos := false, adapting := a.adapting || decide (old = 3) }
    else s
  let s := (s.pllUpdate (quadOf l)).quadDomain (quadOf l)
  let s := if old = 0 ∧ g ≠ 0 then s.squelch l.val else s
  let s := if g = s.pwrTarget l then s.laneEvent l 1 else s
  s.pwrEval l

/-- A write to LN_PWR: REQ (R316). -/
def State.lnPwrWrite (s : State) (l : Fin 96) (v : Word) : State := (s.setRegFld (lnA l 4) 1 0 (fld v 1 0)).pwrEval l

/-- LIMIT of a lane set by the sluice controller (R316). -/
def State.setLimit (s : State) (l : Fin 96) (v : Nat) : State := (s.setRegFld (lnA l 4) 9 8 v).pwrEval l

/-! Commands -/

/-- ADAPT_DONE of a lane: initial adaptation completes, with the values found where ADAPT is CONTINUOUS (R310, R317). -/
def execAdaptDone (l : Fin 96) (val0 val1 : Word) (s : State) : Out :=
  act s (s.hasLane l = true ∧ s.lnState l = 0 ∧ s.lnStatus l 0 = true ∧ s.lnStatus l 4 = false) fun s =>
    let s := if s.regFld (lnA l 0x14) 1 0 = 0 then
        (s.setReg (lnA l 0x18) (val0 &&& 0x3F3F0F)).setReg (lnA l 0x1C) (val1 &&& 0x3F3F3F)
      else s
    let s := (s.setRegBit (lnA l 8) 4 true).modLane l fun a => { a with adapting := false }
    s.pwrEval l

/-- ADAPT_FAIL: adaptation not complete 2 ms after SIG_DET rose; it continues (R310). -/
def execAdaptFail (l : Fin 96) (s : State) : Out :=
  act s (s.hasLane l = true ∧ s.lnStatus l 0 = true ∧ s.lnStatus l 4 = false) fun s =>
    (s.setRegBit (lnA l 0xC) 6 true).laneEvent l 3

/-- SIG_DET_RISE (R312). -/
def execSigDetRise (l : Fin 96) (s : State) : Out :=
  act s (s.hasLane l = true ∧ s.lnState l < 2 ∧ s.lnStatus l 0 = false) fun s =>
    (s.setRegBit (lnA l 8) 0 true).laneEvent l 0

/-- CDR_LOCK_GAINED (R315, R318). -/
def execCdrLockGained (l : Fin 96) (s : State) : Out :=
  act s (s.hasLane l = true ∧ s.lnState l = 0 ∧ s.lnStatus l 0 = true ∧ s.lnStatus l 1 = false) fun s =>
    (s.setRegBit (lnA l 8) 1 true).laneEvent l 0

/-- PRBS_LOCK: the checker has seen 64 consecutive agreeing bits (R314). -/
def execPrbsLock (l : Fin 96) (s : State) : Out :=
  act s (s.hasLane l = true ∧ s.regBit (lnA l 0x30) 5 = true) fun s => s.setRegBit (lnA l 0x34) 0 true

/-- PRBS_LOCK_LOST: more than 256 errors within 1,024 bits (R314). -/
def execPrbsLockLost (l : Fin 96) (s : State) : Out :=
  act s (s.hasLane l = true ∧ s.regBit (lnA l 0x34) 0 = true) fun s =>
    ((s.setRegBit (lnA l 0x34) 0 false).setRegBit (lnA l 0x34) 1 true).laneEvent l 2

/-- PRBS_BIT_ERROR: counted while locked; saturation raises the PRBS event (R314). -/
def execPrbsBitError (l : Fin 96) (s : State) : Out :=
  act s (s.hasLane l = true ∧ s.regBit (lnA l 0x34) 0 = true) fun s =>
    let old := s.reg (lnA l 0x38)
    let s := s.countSat (lnA l 0x38)
    if old ≠ 0xFFFFFFFF ∧ s.reg (lnA l 0x38) = 0xFFFFFFFF then s.laneEvent l 2 else s

/-- The source lane of a recovered-clock output is locked and ACTIVE (02_device_time.md R46). -/
def State.recclkLive (s : State) (n : Fin 2) : Bool :=
  match (List.finRange 96).find? (fun l => l.val = s.regFld (tbA (0xC0 + 4 * n.val)) 6 0) with
  | some l => s.hasLane l && s.lnStatus l 1 && decide (s.lnState l = 0)
  | none => false

/-- TB_RECCLKn_CFG written: where it names another lane, the loss is that of the lane it now names (02_device_time.md R46; assumption
105). -/
def State.recclkSource (s : State) (n old : Nat) : State :=
  if s.regFld (tbA (0xC0 + 4 * n)) 6 0 = old then s else s.setRecLost n !(s.recclkLive (unitOf 2 n (by decide)))

/-- RECCLK_RESUME of output n: its source lane is again locked and ACTIVE, for 1 ms (02_device_time.md R46). -/
def execRecclkResume (n : Fin 2) (s : State) : Out :=
  act s (s.tb.recLost.getLsbD n.val = true ∧ s.recclkLive n = true) fun s => s.setRecLost n.val false

end Sys2Proof.Machine
end

