-- ==== Sys2Proof/Machine/Hub.lean ====
section
/-! DEFINITION. What the framings of a hub share (14_fronthaul_framing.md): lane users, record queues, ports, eAxC entries, receive
and transmit windows. -/

namespace Sys2Proof.Machine

/-- Lane j of hub h (13_fronthaul_lanes.md R300). -/
def hubLane (h : Fin 4) (j : Nat) : Option (Fin 96) := if hj : j < 24 then some ⟨24 * h.val + j, by omega⟩ else none

/-- Hub of a lane. -/
def laneHub (l : Fin 96) : Fin 4 := ⟨l.val / 24, by omega⟩

/-- RATE of lane j of a hub; 0 where there is none. -/
def State.hubRate (s : State) (h : Fin 4) (j : Nat) : Nat :=
  match hubLane h j with
  | some l => s.lnRate l
  | none => 0

/-- A bit of LN_STATUS of lane j of a hub. -/
def State.hubStatus (s : State) (h : Fin 4) (j i : Nat) : Bool :=
  match hubLane h j with
  | some l => s.lnStatus l i
  | none => false

/-- Symbols for lane j of a hub (13_fronthaul_lanes.md R305). -/
def State.hubSend (s : State) (h : Fin 4) (j : Nat) (syms : List (BitVec 9)) : State :=
  match hubLane h j with
  | some l => s.laneSend l syms
  | none => s

/-! Lane users (R320) -/

/-- Lanes of a set given by a mask. -/
def maskLanes (v : Nat) : List Nat := (List.range 24).filter fun j => v.testBit j

/-- Lanes of Ethernet port p at a SPEED; none where the port may not stand there. -/
def ethLanes (p speed : Nat) : Option (List Nat) :=
  match speed with
  | 0 => some []
  | 1 => some [p]
  | 2 => if p % 2 = 0 then some [p, p + 1] else none
  | _ => if p % 4 = 0 then some [p, p + 1, p + 2, p + 3] else none

/-- A user of lanes. -/
inductive LaneUser | eth (p : Nat) | cpri (k : Nat) | trunk (g : Nat)
  deriving DecidableEq, Repr

/-- Address of ETH_ port p's registers, CPRI_ link k's, TRK_ group g's. -/
def ethA (h : Fin 4) (p off : Nat) : Nat := hubA h 2 (0x100 * p + off)

/-- Address of a register of a CPRI link. -/
def cpriA (h : Fin 4) (k off : Nat) : Nat := hubA h 3 (0x100 + 0x40 * k + off)

/-- Address of a register of a trunk group. -/
def trkA (h : Fin 4) (g off : Nat) : Nat := hubA h 3 (0x8100 + 0x20 * g + off)

/-- Lanes a user has bound; none where it is not enabled. -/
def State.userLanes (s : State) (h : Fin 4) : LaneUser → List Nat
  | .eth p => (ethLanes p (s.regFld (ethA h p 0) 1 0)).getD []
  | .cpri k => if s.regBit (cpriA h k 0) 0 then [s.regFld (cpriA h k 0) 5 1] else []
  | .trunk g => if s.regBit (trkA h g 0) 0 then maskLanes (s.regFld (trkA h g 4) 23 0) else []

/-- Every user of a hub. -/
def laneUsers : List LaneUser :=
  (List.range 24).map .eth ++ (List.range 12).map .cpri ++ (List.range 24).map .trunk

/-- Lanes can be bound to a user: no other enabled user has them. -/
def State.lanesFree (s : State) (h : Fin 4) (u : LaneUser) (ls : List Nat) : Bool :=
  laneUsers.all fun v => decide (v = u) || (s.userLanes h v).all fun j => !ls.contains j

/-- A configuration refused with BIND (R320, R343). -/
def State.bindRefused (s : State) (h : Fin 4) : State := (s.setRegBit (hubA h 1 8) 0 true).hubEvent h 12

/-! Record queues (R331, R332) -/

/-- Address of FHH_RXQk_ or FHH_TXQk_ registers. -/
def rxqA (h : Fin 4) (k off : Nat) : Nat := hubA h 1 (0x800 + 0x10 * k + off)

/-- Address of a register of transmit queue k. -/
def txqA (h : Fin 4) (k off : Nat) : Nat := hubA h 1 (0xC00 + 0x10 * k + off)

/-- RECSIZE that a queue's CFG gives. -/
def recSize (cfg : Word) : Nat := 256 * 2 ^ min 6 (fld cfg 6 4)

/-- Records of a queue, oldest first. -/
def recordsOf (l : List (Nat × List Byte)) (k : Nat) : List (List Byte) := (l.filter (fun p => p.1 = k)).map (·.2)

/-- The first record of a queue removed. -/
def dropRecord (k : Nat) : List (Nat × List Byte) → List (Nat × List Byte)
  | [] => []
  | p :: r => if p.1 = k then r else p :: dropRecord k r

/-- A record: its header and payload, padded with zeros to n bytes (R331). -/
def recordOf (n kind src tag time : Nat) (payload : List Byte) : List Byte :=
  let room := n - 16
  let cut := decide (room < payload.length)
  let d := payload.take room
  let r := toBytes 2 d.length ++ [BitVec.ofNat 8 kind, BitVec.ofNat 8 (src % 32)] ++ toBytes 2 tag ++
    [BitVec.ofNat 8 cut.toNat, 0] ++ toBytes 8 time ++ d
  r ++ List.replicate (n - r.length) 0

/-- A receive record for queue k; it is dropped where the queue is full or not enabled (R332). -/
def State.rxDeliver (s : State) (h : Fin 4) (k kind src tag time : Nat) (payload : List Byte) : State :=
  let cfg := s.reg (rxqA h k 0)
  let n := recSize cfg
  if bit cfg 0 = false ∨ 65536 / n ≤ (recordsOf s.hubs[h].rxq k).length then
    (s.countUp (rxqA h k 8)).hubEvent h 6
  else s.modHub h fun b => { b with rxq := b.rxq ++ [(k, recordOf n kind src tag time payload)] }

/-- Bytes of the head record of receive queue k at an offset, which removes nothing; zeros where the queue is empty. -/
def State.rxPeek (s : State) (h : Fin 4) (k o n : Nat) : List Byte :=
  let d := ((recordsOf s.hubs[h].rxq k).headD []).drop o |>.take n
  d ++ List.replicate (n - d.length) 0

/-- A read of receive window k by a channel of the hub's own flume engine (R331). -/
def State.rxWindow (s : State) (h : Fin 4) (k n : Nat) : State × List Byte :=
  match recordsOf s.hubs[h].rxq k with
  | [] => (s.setRegBit (hubA h 1 8) 1 true, List.replicate n 0)
  | rec :: _ =>
    let pos := sget (fun _ => 0) s.hubs[h].rxPos k
    let d := (rec.drop pos).take n
    let gone := decide (rec.length ≤ pos + n)
    (s.modHub h fun b => { b with
      rxPos := sset (fun _ => 0) b.rxPos k (if gone then 0 else pos + n)
      rxq := if gone then dropRecord k b.rxq else b.rxq }, d ++ List.replicate (n - d.length) 0)

/-- Transmit queue k has room for a record. -/
def State.txRoom (s : State) (h : Fin 4) (k : Nat) : Bool :=
  let cfg := s.reg (txqA h k 0)
  bit cfg 0 && decide ((recordsOf s.hubs[h].txq k).length < 65536 / recSize cfg)

/-- A write to transmit window k (R331): a record is queued when RECSIZE bytes have been written. -/
def State.txWindow (s : State) (h : Fin 4) (k : Nat) (d : List Byte) : State :=
  if s.txRoom h k then
    let n := recSize (s.reg (txqA h k 0))
    let p := sget (fun _ => []) s.hubs[h].txPart k ++ d
    if p.length < n then s.modHub h fun b => { b with txPart := sset (fun _ => []) b.txPart k p }
    else s.modHub h fun b => { b with
      txPart := sset (fun _ => []) b.txPart k (p.drop n)
      txq := b.txq ++ [(k, p.take n)] }
  else s.setRegBit (hubA h 1 8) 1 true

/-- Level of request line l of a hub's flume engine, from 16 on (R288, R331). -/
def State.hubReqLine (s : State) (h : Fin 4) (l : Nat) : Bool :=
  if 16 ≤ l ∧ l < 32 then decide (recordsOf s.hubs[h].rxq (l - 16) ≠ [])
  else if 32 ≤ l ∧ l < 48 then s.txRoom h (l - 32)
  else false

/-- A register of FHH_ that shows a queue (R344). -/
def State.fhhView (s : State) (h : Fin 4) (o : Nat) : Option Word :=
  if 0x804 ≤ o ∧ o < 0x900 ∧ o % 16 = 4 then
    some (BitVec.ofNat 32 (recordsOf s.hubs[h].rxq ((o - 0x804) / 16)).length)
  else if 0xC04 ≤ o ∧ o < 0xD00 ∧ o % 16 = 4 then
    let k := (o - 0xC04) / 16
    some (BitVec.ofNat 32 (65536 / recSize (s.reg (txqA h k 0)) - (recordsOf s.hubs[h].txq k).length))
  else if 0x4000 ≤ o ∧ o < 0x5000 then some (BitVec.ofNat 32 (ofBytes (s.rxPeek h ((o - 0x4000) / 0x100) (o % 0x100) 4)))
  else none

/-! Ports (R321) -/

/-- The port is bound, and every lane of it has RATE 1 and block lock; PCS lane alignment is then complete (assumption 18). -/
def State.portLocked (s : State) (h : Fin 4) (p : Nat) : Bool :=
  let ls := s.userLanes h (.eth p)
  !ls.isEmpty && ls.all fun j => decide (s.hubRate h j = 1) && s.hubStatus h j 3

/-- ETH_Pp_STATUS.UP. -/
def State.portUp (s : State) (h : Fin 4) (p : Nat) : Bool := s.regBit (ethA h p 4) 0

/-- UP and LOCAL_FAULT of a port, and event 0 where UP changes (R321, R343). -/
def State.portEval (s : State) (h : Fin 4) (p : Nat) : State :=
  let lock := s.portLocked h p
  let up := lock && !s.regBit (ethA h p 4) 2
  let was := s.portUp h p
  let s := s.setRegBit (ethA h p 4) 0 up
  let s := s.setRegBit (ethA h p 4) 1 (!lock && decide (s.regFld (ethA h p 0) 1 0 ≠ 0))
  if up = was then s else s.hubEvent h 0

/-- Every port of a hub. -/
def State.portsEval (s : State) (h : Fin 4) : State := (List.range 24).foldl (fun t p => t.portEval h p) s

/-- A write to ETH_Pp_CFG (R320). -/
def State.ethCfgWrite (s : State) (h : Fin 4) (p : Nat) (v : Word) : State :=
  match ethLanes p (fld v 1 0) with
  | none => s.bindRefused h
  | some ls =>
    if s.lanesFree h (.eth p) ls then (s.setReg (ethA h p 0) (v &&& 0x3F)).portEval h p else s.bindRefused h

/-! eAxC entries (R324, R344) -/

/-- A bit, a field of ECP_EAXCi_W0 and _W1. -/
def State.ecpW (s : State) (h : Fin 4) (i w : Nat) : Word := s.reg (hubA h 2 (0x9000 + 8 * i + 4 * w))

/-- A write to ECP_EAXCi_W0: DIR 1 for i at or above 256 is ignored. -/
def State.eaxc0Write (s : State) (h : Fin 4) (i : Nat) (v : Word) : State :=
  if 256 ≤ i ∧ bit v 22 = true then s.bindRefused h else s.setReg (hubA h 2 (0x9000 + 8 * i)) (v &&& 0xFFFFFF)

/-- A write to ECP_EAXCi_W1: a width outside 8 to 16 is ignored. -/
def State.eaxc1Write (s : State) (h : Fin 4) (i : Nat) (v : Word) : State :=
  if fld v 10 6 < 8 ∨ 16 < fld v 10 6 then s.bindRefused h else s.setReg (hubA h 2 (0x9004 + 8 * i)) (v &&& 0xFFFFF)

/-- An eAxC condition: bit b of ECP_ERR, its count and event (R324, R325, R343): 0 UNKNOWN, 1 SEQERR, 2 BADSECT, 3 SAT. -/
def State.ecpCount (s : State) (h : Fin 4) (b : Nat) (n : Nat := 1) : State :=
  ((s.setRegBit (hubA h 2 0x800C) b true).countUp (hubA h 2 (0x8010 + 4 * b)) n).hubEvent h (if b = 0 then 4 else 5)

/-- The entry for a U-plane message: lowest-numbered valid uplink entry of the source with the ID (R324). -/
def State.eaxcFor (s : State) (h : Fin 4) (trunk : Bool) (src id : Nat) : Option Nat :=
  let m := s.regFld (hubA h 2 0x8008) 15 0
  (List.range 384).find? fun i =>
    let w := s.ecpW h i 0
    bit w 23 && !bit w 22 && bit w 21 == trunk && decide (fld w 20 16 = src) && decide (fld w 15 0 &&& m = id &&& m)

/-! Windows (R328 to R330) -/

/-- Address of FHH_SCHs_ registers. -/
def schA (h : Fin 4) (i off : Nat) : Nat := hubA h 1 (0x100 + 0x20 * i + off)

/-- Offset of a view from the count (02_device_time.md R29). -/
def State.viewOfs (s : State) (v : Nat) : Int := (s.frameOfs : Int) + sext 32 (s.reg (tbA (0x84 + 0x10 * v))).toNat

/-- Numerology of a view. -/
def State.viewNum (s : State) (v : Nat) : Numerology := numerology (s.reg (tbA (0x80 + 0x10 * v)))

/-- The symbol a U-plane header names: frameId, subframeId, slotId, symbolId. -/
structure SymId where
  frame : Nat
  sub : Nat
  slot : Nat
  sym : Nat
  deriving DecidableEq, Repr

/-- Symbol of the subframe; none where the fields name no symbol of the numerology. -/
def SymId.index (y : SymId) (m : Numerology) : Option Nat :=
  if y.sub < 10 ∧ y.slot < 2 ^ m.mu ∧ y.sym < m.perSlot then some (y.slot * m.perSlot + y.sym) else none

/-- Start of a symbol within 256 frames of a view. -/
def SymId.start (y : SymId) (m : Numerology) (g : Nat) : Nat := y.frame % 256 * 9830400 + y.sub * 983040 + m.symStart g

/-- The time congruent to t modulo 256 frames that is nearest to x (R328). -/
def nearest (t x : Int) : Int := t + 2516582400 * ((x - t + 1258291200) / 2516582400)

/-- End of the symbol of a message under the view of its schedule, nearest its arrival (R328). -/
def State.symEnd (s : State) (v : Nat) (y : SymId) (ts : Nat) : Option Int :=
  let m := s.viewNum v
  (y.index m).map fun g => nearest ((y.start m g : Int) + m.symLen g + s.viewOfs v) ts

/-- Air time of a symbol, nearest a time (R330). -/
def State.symAir (s : State) (v : Nat) (y : SymId) (x : Nat) : Option Int :=
  let m := s.viewNum v
  (y.index m).map fun g => nearest ((y.start m g : Int) + s.viewOfs v) x

/-- Window class of a message (R328). -/
inductive Window | early | late | onTime
  deriving DecidableEq, Repr

/-- The class of a message of schedule i whose symbol ends at e. -/
def State.classify (s : State) (h : Fin 4) (i : Nat) (e : Int) (ts tend : Nat) : Window :=
  if (ts : Int) < e + s.regFld (schA h i 4) 23 0 then .early
  else if e + s.regFld (schA h i 8) 23 0 - s.regFld (hubA h 1 0xC) 15 0 < tend then .late
  else .onTime

/-- The first symbol of a view that starts at or after a time. -/
def State.nextSym (s : State) (v : Nat) (x : Int) : Int :=
  let m := s.viewNum v
  let o := s.viewOfs v
  let b := (x - o) / 983040
  let cands := (List.range (2 * m.perHalf + 1)).map fun g =>
    if g < 2 * m.perHalf then o + b * 983040 + m.symStart g else o + (b + 1) * 983040
  (cands.find? fun t => x ≤ t).getD (o + (b + 1) * 983040)

/-- The comparator of a schedule armed for the first symbol whose window opens at or after a time (R330). -/
def State.schArm (s : State) (h : Fin 4) (i : Fin 16) (x : Int) : State :=
  let v := s.regFld (schA h i.val 0) 2 1
  let o := s.regFld (schA h i.val 0xC) 23 0
  s.armAt (CmpId.sch h i).base (BitVec.ofInt 64 (s.nextSym v (x + o) - o))

/-- A write to FHH_SCHs_CFG (R330): EN arms the comparator, and clearing it disarms it. -/
def State.schCfgWrite (s : State) (h : Fin 4) (i : Fin 16) (v : Word) : State :=
  let was := s.regBit (schA h i.val 0) 0
  let s := s.setReg (schA h i.val 0) (v &&& 7)
  if bit v 0 then (if was then s else s.schArm h i (s.replica (.hub h)).toNat)
  else if was then s.disarm (CmpId.sch h i).base else s

/-- The comparator of a running schedule has fired (R330): its symbol may be sent, and the next is armed. -/
def State.schFire (s : State) (h : Fin 4) (i : Fin 16) (target : Nat) : State :=
  if s.regBit (schA h i.val 0) 0 then
    let a := target + s.regFld (schA h i.val 0xC) 23 0
    (s.modHub h fun b => { b with fired := sset (fun _ => 0) b.fired i.val a }).schArm h i ((target : Int) + 1)
  else s

/-! Samples of a U-plane section (R325, R326) -/

/-- Bits p to p + n − 1 of a list of bytes as a number, bit 7 of each byte first. -/
def bitsBE (d : List Byte) (p n : Nat) : Nat :=
  (List.range n).foldl (fun v i => 2 * v + (bit (d.getD ((p + i) / 8) 0) (7 - (p + i) % 8)).toNat) 0

/-- Bits as bytes, the first bit in bit 7 of the first byte; the last byte is filled with zeros. -/
def packBits (b : List Bool) : List Byte :=
  (List.range (ceilDiv b.length 8)).map fun i =>
    BitVec.ofNat 8 ((List.range 8).foldl (fun v k => 2 * v + (b.getD (8 * i + k) false).toNat) 0)

/-- The n bits of a number, most significant first. -/
def bitsOf (n v : Nat) : List Bool := (List.range n).map fun i => v.testBit (n - 1 - i)

/-- Bytes of a PRB on the wire at width w (R326). -/
def prbSize (comp : Bool) (w : Nat) : Nat := 3 * w + comp.toNat

/-- The 24 mantissas and exponent of a PRB (R326). -/
def prbUnpack (comp : Bool) (w : Nat) (d : List Byte) : Nat × List Int :=
  let e := if comp then eFld d 0 1 % 16 else 0
  let m := if comp then d.drop 1 else d
  (e, (List.range 24).map fun i => sext w (bitsBE m (w * i) w))

/-- A PRB on the wire (R326). -/
def prbPack (comp : Bool) (w : Nat) (p : Nat × List Int) : List Byte :=
  let body := packBits (p.2.flatMap fun (x : Int) => bitsOf w (x % ((2 ^ w : Nat) : Int)).toNat)
  if comp then BitVec.ofNat 8 (p.1 % 16) :: body else body

/-- Samples of a received PRB as IQ16, and values saturated (R325). -/
def prbSamples (comp : Bool) (w : Nat) (scale : Int) (d : List Byte) : List Byte × Nat :=
  let (e, m) := prbUnpack comp w d
  let v := m.map fun q => narrowN16 (scaleQ q ((e : Int) + scale))
  (v.flatMap fun x => toBytes 2 (ofInt 16 x.1).toNat, (v.map (·.2)).foldl (· + ·) 0)
where
  /-- A value narrowed to 16 bits, and whether it saturated. -/
  narrowN16 (x : Int) : Int × Nat := (satS 16 x, if satS 16 x = x then 0 else 1)
  /-- q · 2^n, truncated toward minus infinity. -/
  scaleQ (x n : Int) : Int := if 0 ≤ n then x * 2 ^ n.toNat else x / 2 ^ (-n).toNat

/-- A section's PRBs in its data. -/
structure Sect where
  start : Nat
  num : Nat
  comp : Bool
  w : Nat
  data : List Byte
  deriving DecidableEq, Repr

/-- One PRB of a stream goes to the BFA; a BFA that does not run is woken, and the write waits (R196). -/
def State.toBfa (s : State) (h : Fin 4) (w : PageWrite) : State :=
  if s.bfaOn h.val then s.pageWrite h w
  else (s.modBfa h fun b => { b with held := b.held ++ [w] }).wakeReq (56 + h.val)

/-- The PRBs of a section written to the stream's page ring (R325, R329). -/
def State.writeSect (s : State) (h : Fin 4) (i n : Nat) (close : Int) (x : Sect) : State :=
  let scale := sext 5 (fld (s.ecpW h i 1) 15 11)
  let size := prbSize x.comp x.w
  (List.range x.num).foldl (fun t k =>
    let d := (x.data.drop (k * size)).take size
    if d.length < size then t
    else
      let (b, sat) := prbSamples x.comp x.w scale d
      let t := if sat = 0 then t else t.ecpCount h 3 sat
      t.toBfa h ⟨i, n, x.start + k, b, some (BitVec.ofInt 64 close), fld (t.ecpW h i 1) 3 0⟩) s

/-! U-plane messages (R325, R328) -/

/-- The common header of a U-plane message: dataDirection, payloadVersion, symbol (R325). -/
structure UHead where
  dir : Bool
  ver : Nat
  y : SymId
  deriving DecidableEq, Repr

/-- The header from its four bytes. -/
def uHead (d : List Byte) : UHead :=
  ⟨bit (d.getD 0 0) 7, fld (d.getD 0 0) 6 4,
    ⟨eFld d 1 1, eFld d 2 1 / 16, eFld d 2 1 % 16 * 4 + eFld d 3 1 / 64, eFld d 3 1 % 64⟩⟩

/-- The stream cell of an entry below 256. -/
def State.entryCell (s : State) (h : Fin 4) (i : Nat) : Cell := s.cell h (s.stream h i).cell

/-- Absolute symbol number of a header under a cell (08_beamforming_array.md R194). -/
def symNumber (c : Cell) (y : SymId) : Nat := ((y.frame * 10 + y.sub) * 2 ^ c.mu + y.slot) * c.nsym + y.sym

/-- A message of entry i meets its window: counted by its port, if any, and where it is ON_TIME the end of its symbol
(R325, R328, R343). -/
def State.accept (s : State) (h : Fin 4) (i : Nat) (u : UHead) (ts tend : Nat) (port : Option Nat) : State × Option Int :=
  let sch := fld (s.ecpW h i 1) 3 0
  let count (t : State) (o : Nat) : State := match port with
    | some p => t.countUp (ethA h p o)
    | none => t
  if u.dir || decide (u.ver ≠ 1) then (s.ecpCount h 2, none)
  else match s.symEnd (s.regFld (schA h sch 0) 2 1) u.y ts with
  | none => (s.ecpCount h 2, none)
  | some e => match s.classify h sch e ts tend with
    | .early => ((count s 0x5C).hubEvent h 1, none)
    | .late => ((count s 0x60).hubEvent h 1, none)
    | .onTime => (count s 0x58, some e)

/-- A section of an ON_TIME message, of PRBs start to start + num − 1 (R324, R325): written to the stream's pages, or delivered as
a record with its own header bytes. The whole PRBs that are there are used; the rest counts BADSECT. -/
def State.takeSect (s : State) (h : Fin 4) (i src : Nat) (u : UHead) (e : Int) (ts : Nat) (head : List Byte) (x : Sect) : State :=
  let size := prbSize x.comp x.w
  let s := if x.data.length < x.num * size then s.ecpCount h 2 else s
  if 256 ≤ i then
    s.rxDeliver h (fld (s.ecpW h i 1) 19 16) 0 src i ts (head ++ x.data.take (min x.num (x.data.length / size) * size))
  else
    let close := e + s.regFld (schA h (fld (s.ecpW h i 1) 3 0) 8) 23 0
    s.writeSect h i (symNumber (s.entryCell h i) u.y) close x

/-! Commands -/

/-- RXQ_WINDOW_READ of n bytes of receive window k by a flume channel of hub h (R331). -/
def execRxqWindowRead (h : Fin 4) (k : Fin 16) (n : Fin 257) (s : State) : Out :=
  act s (s.rfabOn h.val = true) fun s => { (s.rxWindow h k.val n.val).1 with acc := .ok (s.rxWindow h k.val n.val).2 }

/-- TXQ_WINDOW_WRITE to transmit window k of hub h (R331). -/
def execTxqWindowWrite (h : Fin 4) (k : Fin 16) (data : List Byte) (s : State) : Out :=
  act s (s.rfabOn h.val = true) fun s => { s.txWindow h k.val data with acc := .ok [] }

end Sys2Proof.Machine
end

