-- ==== Sys2Proof/Machine/Cpri.lean ====
section
/-! DEFINITION. CPRI links (14_fronthaul_framing.md R333 to R335): synchronisation, control words and AxC containers. -/

namespace Sys2Proof.Machine

/-- Word length T in bits of a lane RATE; 0 where the rate is none of CPRI (R333, 13_fronthaul_lanes.md R302). -/
def cpriWord (rate : Nat) : Nat := [0, 0, 8, 16, 32, 40, 64, 80, 128].getD rate 0

/-- Lane of a link. -/
def State.cpriLane (s : State) (h : Fin 4) (k : Nat) : Nat := s.regFld (cpriA h k 0) 5 1

/-- T of a link. -/
def State.cpriT (s : State) (h : Fin 4) (k : Nat) : Nat := cpriWord (s.hubRate h (s.cpriLane h k))

/-- The link is enabled on a lane with a CPRI rate. -/
def State.cpriOn (s : State) (h : Fin 4) (k : Nat) : Bool := s.regBit (cpriA h k 0) 0 && decide (s.cpriT h k ≠ 0)

/-- CPRI_Lk_STATUS.SYNC. -/
def State.cpriSync (s : State) (h : Fin 4) (k : Nat) : Bool := s.regBit (cpriA h k 4) 0

/-- A link beside its registers. -/
def State.cpriLink (s : State) (h : Fin 4) (k : Nat) : CpriLink := sget (fun _ => {}) s.hubs[h].cpri k

/-- The state with a link's counts changed. -/
def State.modCpri (s : State) (h : Fin 4) (k : Nat) (f : CpriLink → CpriLink) : State :=
  s.modHub h fun b => { b with cpri := upd (fun _ => {}) b.cpri k f }

/-- A write to CPRI_Lk_CFG (R320). -/
def State.cpriCfgWrite (s : State) (h : Fin 4) (k : Nat) (v : Word) : State :=
  if bit v 0 = true ∧ (24 ≤ fld v 5 1 ∨ s.lanesFree h (.cpri k) [fld v 5 1] = false) then s.bindRefused h
  else
    let s := s.setReg (cpriA h k 0) (v &&& 0xF3F)
    if bit v 0 then s
    else (s.modCpri h k fun _ => {}).setReg (cpriA h k 4) 0

/-- Fields of CPRI_AXCa_CFG (R344). -/
structure Axc where
  valid : Bool
  tx : Bool
  link : Nat
  start : Nat
  m : Nat
  ns : Nat
  queue : Nat
  deriving DecidableEq, Repr

/-- An AxC's configuration. -/
def axcOf (v : Word) : Axc := ⟨bit v 0, bit v 1, fld v 5 2, fld v 16 6, fld v 21 17, fld v 25 22 + 1, fld v 29 26⟩

/-- AxC a. -/
def State.axc (s : State) (h : Fin 4) (a : Nat) : Axc := axcOf (s.reg (hubA h 3 (0x1000 + 0x10 * a)))

/-- The container ends within the IQ block (R335). -/
def Axc.fits (x : Axc) (t : Nat) : Bool := decide (x.start + 2 * x.m * x.ns ≤ 15 * t)

/-- A write to CPRI_AXCa_CFG (R335): refused where the container crosses the end of the IQ block of its link's rate. -/
def State.axcWrite (s : State) (h : Fin 4) (a : Nat) (v : Word) : State :=
  let x := axcOf v
  if x.valid = true ∧ s.cpriT h x.link ≠ 0 ∧ x.fits (s.cpriT h x.link) = false then s.bindRefused h
  else s.setReg (hubA h 3 (0x1000 + 0x10 * a)) (v &&& 0x3FFFFFFF)

/-- AxCs of a link in a direction whose containers fit, of a sample width that is supported (R333). -/
def State.axcsOf (s : State) (h : Fin 4) (k : Nat) (tx : Bool) : List Nat :=
  (List.range 64).filter fun a =>
    let x := s.axc h a
    x.valid && x.tx == tx && decide (x.link = k) && x.fits (s.cpriT h k) && decide (8 ≤ x.m ∧ x.m ≤ 16)

/-! Receive (R334, R335) -/

/-- SYNC, LOF and LOFCNT after a hyperframe with or without K28.5 at its start; event 8 where one changes. -/
def State.cpriSyncStep (s : State) (h : Fin 4) (k : Nat) (hit : Bool) : State :=
  let l := s.cpriLink h k
  let was := s.reg (cpriA h k 4)
  let sync := s.cpriSync h k
  let s := s.modCpri h k fun l =>
    if hit then { l with good := min 2 (l.good + 1), miss := 0 } else { l with good := 0, miss := min 4 (l.miss + 1) }
  let s :=
    if hit then
      if sync = false ∧ 2 ≤ l.good + 1 then
        ((s.setRegBit (cpriA h k 4) 0 true).setRegBit (cpriA h k 4) 1 false).setRegBit (cpriA h k 4) 2 false
      else s
    else if 4 ≤ l.miss + 1 then
      let s := (s.setRegBit (cpriA h k 4) 0 false).setRegBit (cpriA h k 4) 2 true
      let s := s.setRegBit (cpriA h k 0xC) 31 false
      if sync then s.countUp (cpriA h k 0x10) else s
    else s
  if fld (s.reg (cpriA h k 4)) 2 0 = fld was 2 0 then s else s.hubEvent h 8

/-- Byte y of control word x of a hyperframe: word 0 of basic frame x. -/
def ctlByte (d : List Byte) (t x y : Nat) : Byte := d.getD (x * (2 * t) + y) 0

/-- The 256 control words. -/
def ctlWords (d : List Byte) (t : Nat) : List Byte := (List.range 256).flatMap fun x => (d.drop (x * (2 * t))).take (t / 8)

/-- The IQ block of basic frame x. -/
def iqBlock (d : List Byte) (t x : Nat) : List Byte := (d.drop (x * (2 * t) + t / 8)).take (15 * t / 8)

/-- Samples of an AxC in an IQ block as IQ16 (R335). -/
def axcSamples (x : Axc) (blk : List Byte) : List Byte :=
  (List.range (2 * x.ns)).flatMap fun i =>
    toBytes 2 (ofInt 16 (sext x.m (bitsBE blk (x.start + i * x.m) x.m) * 2 ^ (16 - x.m))).toNat

/-- A hyperframe received with SYNC: its control words, its L1 bits and its AxCs. -/
def State.cpriDeliver (s : State) (h : Fin 4) (k : Nat) (d : List Byte) (delay : Nat) : State :=
  let t := s.cpriT h k
  let now := (s.replica (.hub h)).toNat
  let l1 := ctlByte d t 130 0
  let s := s.setRegFld (cpriA h k 4) 5 3 ((bit l1 1).toNat + 2 * (bit l1 2).toNat + 4 * (bit l1 0).toNat)
  let s := s.setReg (cpriA h k 0xC) (BitVec.ofNat 32 (delay % 2 ^ 24 + 2 ^ 31))
  let s := s.rxDeliver h (s.regFld (cpriA h k 0) 11 8) 2 k 0 now (ctlWords d t)
  (s.axcsOf h k false).foldl (fun u a =>
    let x := u.axc h a
    u.rxDeliver h x.queue 1 k a now ((List.range 256).flatMap fun i => axcSamples x (iqBlock d t i))) s

/-- CPRI_HYPERFRAME_RX of link k of hub h (R334): K28.5 stood at its start or not, its 512 T bytes, and the round trip measured, in
1/16 tu. -/
def execCpriHyperframeRx (h : Fin 4) (k : Fin 12) (start : Bool) (data : List Byte) (delay : Nat) (s : State) : Out :=
  act s (s.rfabOn h.val = true ∧ s.cpriOn h k.val = true ∧ data.length = 512 * s.cpriT h k.val) fun s =>
    let s := s.cpriSyncStep h k.val (start && s.hubStatus h (s.cpriLane h k.val) 2)
    if s.cpriSync h k.val then s.cpriDeliver h k.val data delay else s

/-! Transmit (R334, R335) -/

/-- Head record of transmit queue q, where it may be sent now: not TIMED, or its START reached (R332). -/
def State.txHead (s : State) (h : Fin 4) (q : Nat) : Option (List Byte) :=
  match recordsOf s.hubs[h].txq q with
  | [] => none
  | r :: _ => if bit (r.getD 6 0) 2 ∧ (s.replica (.hub h)).toNat < eFld r 8 8 then none else some r

/-- Payload of a record. -/
def recPayload (r : List Byte) : List Byte := (r.drop 16).take (eFld r 0 2)

/-- The head record of queue q taken where it is of a kind and for a destination. -/
def State.takeTx (s : State) (h : Fin 4) (q kind dst : Nat) : Option (State × List Byte) :=
  match s.txHead h q with
  | some r =>
    if eFld r 2 1 = kind ∧ eFld r 3 1 % 32 = dst then
      some (s.modHub h fun b => { b with txq := dropRecord q b.txq }, recPayload r)
    else none
  | none => none

/-- Control words of the next hyperframe: of the next KIND 2 record, or the last ones again (R334). -/
def State.cpriCtl (s : State) (h : Fin 4) (k : Nat) : State × List Byte :=
  let n := 32 * s.cpriT h k
  match (List.range 16).findSome? (fun q => s.takeTx h q 2 k) with
  | some (t, d) =>
    let w := d.take n ++ List.replicate (n - d.length) 0
    (t.modCpri h k fun l => { l with ctl := w }, w)
  | none => (s, let w := (s.cpriLink h k).ctl; w.take n ++ List.replicate (n - w.length) 0)

/-- The bytes the hub overwrites: place of their control word, and value (R333, R334). -/
def State.cpriOwn (s : State) (h : Fin 4) (k : Nat) : List (Nat × Byte) :=
  let l1 := s.reg (cpriA h k 8)
  let st := s.reg (cpriA h k 4)
  let n : Int := ((s.replica (.hub h)).toNat : Int) - s.frameOfs
  let bfn := ((n / 9830400) % 4096).toNat
  let hfn := (n % 9830400).toNat / 65536
  let b (x : Nat) : Byte := BitVec.ofNat 8 x
  [(0, 0xBC), (2, b (fld l1 15 8)), (64, b hfn), (128, b bfn),
   (130, b ((bit l1 2).toNat + 2 * (bit l1 0).toNat + 4 * (bit l1 1).toNat + 8 * (bit st 1).toNat + 16 * (bit st 2).toNat)),
   (192, b (bfn / 256)), (194, b (fld l1 23 16))]

/-- Bits of an AxC's samples of basic frame i placed in a block of bits (R335). -/
def axcPut (x : Axc) (d : List Byte) (i : Nat) (blk : List Bool) : List Bool :=
  let bits := (List.range (2 * x.ns)).flatMap fun j => (bitsOf 16 (eFld d (i * 4 * x.ns + 2 * j) 2)).take x.m
  blk.take x.start ++ bits ++ blk.drop (x.start + bits.length)

/-- A hyperframe sent on link k (R334, R335). -/
def State.cpriSend (s : State) (h : Fin 4) (k : Nat) : State :=
  let t := s.cpriT h k
  let own := s.cpriOwn h k
  let (s, ctl) := s.cpriCtl h k
  let (s, axs) := (s.axcsOf h k true).foldl (fun (p : State × List (Axc × List Byte)) a =>
    let x := p.1.axc h a
    match p.1.takeTx h x.queue 1 k with
    | some (u, d) => (u, p.2 ++ [(x, d)])
    | none => p) (s, [])
  let frame (i : Nat) : List (BitVec 9) :=
    let w := (ctl.drop (i * (t / 8))).take (t / 8)
    let w := match own.find? (fun p => p.1 = i) with
      | some p => p.2 :: w.drop 1
      | none => w
    let blk := axs.foldl (fun b (x : Axc × List Byte) => axcPut x.1 x.2 i b) (List.replicate (15 * t) false)
    (w ++ packBits blk).map fun b => b.setWidth 9
  let all := (List.range 256).flatMap frame
  s.hubSend h (s.cpriLane h k) (0x1BC :: all.drop 1)

/-- CPRI_HYPERFRAME_TX of link k of hub h (R334). -/
def execCpriHyperframeTx (h : Fin 4) (k : Fin 12) (s : State) : Out :=
  act s (s.rfabOn h.val = true ∧ s.cpriOn h k.val = true) fun s => s.cpriSend h k.val

/-- A lane's SIG_DET has fallen: a link on it sets LOS (R334). -/
def State.cpriLos (s : State) (h : Fin 4) (j : Nat) : State :=
  (List.range 12).foldl (fun t k =>
    if t.regBit (cpriA h k 0) 0 = true ∧ t.cpriLane h k = j ∧ t.regBit (cpriA h k 4) 1 = false then
      (t.setRegBit (cpriA h k 4) 1 true).hubEvent h 8
    else t) s

end Sys2Proof.Machine
end

