-- ==== Sys2Proof/Machine/Crypto.lean ====
section
/-! DEFINITION. The functions of the image check (16_startup_images_modes.md R380): SHA-256 and ECDSA verification over P-256. -/

namespace Sys2Proof.Machine

/-- Number spelled by bytes, first byte highest. -/
def beNat (l : List Byte) : Nat := l.foldl (fun v b => 256 * v + b.toNat) 0

/-! SHA-256. The constants are computed from their definition: the first 32 bits of the fractional parts of the roots of the
first primes. -/

/-- The primes below 312: the first 64. -/
def firstPrimes : List Nat := (List.range 312).filter fun n => decide (2 ≤ n) && (List.range n).all fun d => decide (d < 2) || n % d != 0

/-- The first 32 bits of the fractional part of the k-th root of n < 512: the root of n · 2^(32k), bit by bit from bit 41. -/
def rootFraction (k n : Nat) : Word :=
  BitVec.ofNat 32 ((List.range 42).foldr (fun i r => if (r + 2 ^ i) ^ k ≤ n * 2 ^ (32 * k) then r + 2 ^ i else r) 0)

/-- Exclusive or of a word turned right by each amount. -/
def turns (l : List Nat) (x : Word) : Word := l.foldl (fun v n => v ^^^ x.rotateRight n) 0

/-- The eight working variables of SHA-256, a to h. -/
structure ShaState where
  a : Word
  b : Word
  c : Word
  d : Word
  e : Word
  f : Word
  g : Word
  h : Word
  deriving DecidableEq, Repr

/-- The variables in order. -/
def ShaState.words (s : ShaState) : List Word := [s.a, s.b, s.c, s.d, s.e, s.f, s.g, s.h]

/-- Variables from a function of their place. -/
def ShaState.ofFn (f : Nat → Word) : ShaState := ⟨f 0, f 1, f 2, f 3, f 4, f 5, f 6, f 7⟩

/-- One round: the constant and the schedule's word come in as their sum. -/
def ShaState.round (s : ShaState) (kw : Word) : ShaState :=
  let mixed := s.h + kw + turns [6, 11, 25] s.e + (s.g ^^^ (s.e &&& (s.f ^^^ s.g)))
  let majority := (s.a &&& s.b) ||| (s.c &&& (s.a ||| s.b))
  { s with a := mixed + turns [2, 13, 22] s.a + majority, b := s.a, c := s.b, d := s.c, e := s.d + mixed, f := s.e, g := s.f, h := s.g }

/-- One round on the variables and the sixteen words of the schedule that come next, the next one first. -/
def shaStep (s : ShaState × List Word) (k : Word) : ShaState × List Word :=
  let w (i : Nat) : Word := s.2.getD i 0
  let further := w 0 + (turns [7, 18] (w 1) ^^^ (w 1 >>> 3)) + w 9 + (turns [17, 19] (w 14) ^^^ (w 14 >>> 10))
  (s.1.round (k + w 0), s.2.tail ++ [further])

/-- A block of 64 bytes into the hash. -/
def ShaState.absorb (s : ShaState) (block : Nat → Word) : ShaState :=
  let r := (firstPrimes.map (rootFraction 3)).foldl shaStep (s, (List.range 16).map block)
  ShaState.ofFn fun i => s.words.getD i 0 + r.1.words.getD i 0

/-- SHA-256 of bytes: message, a bit 1, zeros, and the count of bits in 64 bits, in blocks of 64 bytes. -/
def sha256 (l : List Byte) : List Byte :=
  let blocks := (l.length + 72) / 64
  let padded := beNat l * 256 ^ (64 * blocks - l.length) + 128 * 256 ^ (64 * blocks - l.length - 1) + 8 * l.length
  let word (j i : Nat) : Word := BitVec.ofNat 32 (padded / 2 ^ (32 * (16 * (blocks - j) - 1 - i)))
  let start := ShaState.ofFn fun i => rootFraction 2 (firstPrimes.getD i 0)
  ((List.range blocks).foldl (fun s j => s.absorb (word j)) start).words.flatMap fun w => (toBytes 4 w.toNat).reverse

/-! ECDSA over P-256 -/

/-- The field's prime, the group's order, the curve's b and its base point. -/
def p256P : Nat := 0xffffffff00000001000000000000000000000000ffffffffffffffffffffffff
/-- Order of the base point. -/
def p256N : Nat := 0xffffffff00000000ffffffffffffffffbce6faada7179e84f3b9cac2fc632551
/-- Coefficient b. -/
def p256B : Nat := 0x5ac635d8aa3a93e7b3ebbd55769886bc651d06b0cc53b0f63bce3c3e27d2604b
/-- Base point. -/
def p256G : Nat × Nat :=
  (0x6b17d1f2e12c4247f8bce6e563a440f277037d812deb33a0f4a13945d898c296,
   0x4fe342e2fe1a7f9b8ee7eb4a7c0f9e162bce33576b315ececbb6406837bf51f5)

/-- Power modulo m, exponent below 2^256. -/
def powMod (m x e : Nat) : Nat :=
  (List.range 256).reverse.foldl (fun r i => let q := r * r % m; if e.testBit i then q * x % m else q) 1

/-- Sum of two points of the curve; none is the neutral point. -/
def p256Add : Option (Nat × Nat) → Option (Nat × Nat) → Option (Nat × Nat)
  | none, q => q
  | p, none => p
  | some (x1, y1), some (x2, y2) =>
    let m := p256P
    if x1 = x2 ∧ (y1 + y2) % m = 0 then none
    else
      let l := if x1 = x2 then (3 * x1 * x1 + (m - 3)) * powMod m (2 * y1 % m) (m - 2) % m
        else (y2 + m - y1) * powMod m ((x2 + m - x1) % m) (m - 2) % m
      let x3 := (l * l + 2 * m - x1 - x2) % m
      some (x3, (l * (x1 + m - x3) + m - y1) % m)

/-- A multiple of a point. -/
def p256Mul (k : Nat) (p : Nat × Nat) : Option (Nat × Nat) :=
  (List.range 256).reverse.foldl (fun r i => let q := p256Add r r; if k.testBit i then p256Add q (some p) else q) none

/-- The signature (r, s) over a message verifies under the public key (x, y). -/
def ecdsaOk (x y r s : Nat) (msg : List Byte) : Bool :=
  let n := p256N
  let m := p256P
  let curve := decide (x < m ∧ y < m ∧ (y * y) % m = (x * x * x + (m - 3) * x + p256B) % m)
  let range := decide (0 < r ∧ r < n ∧ 0 < s ∧ s < n)
  let w := powMod n s (n - 2)
  let e := beNat (sha256 msg)
  curve && range && (match p256Add (p256Mul (e * w % n) p256G) (p256Mul (r * w % n) (x, y)) with
    | none => false
    | some (vx, _) => decide (vx % n = r))

end Sys2Proof.Machine
end

