-- ==== Sys2Proof/Machine/Flume.lean ====
section
/-! DEFINITION. Flume channels beside the data they move (12_flume_engines.md): registers, request lines, enabling and disabling, the
descriptor as fetched, and the end of a descriptor. Bursts are in Machine/FlumeData.lean. -/

namespace Sys2Proof.Machine

/-- Event of a channel (R298). -/
def flumeEvent : FlumeId → Nat
  | .ridge n c => 192 + 16 * n.val + c.val
  | .hub h c => 768 + 32 * h.val + c.val
  | .host q => 1920 + q.val

/-- FLM_CHCTL.EN. -/
def State.flumeEn (s : State) (f : FlumeId) : Bool := s.regBit f.base 0

/-- FLM_CHSTAT.DRAINED. -/
def State.flumeDrained (s : State) (f : FlumeId) : Bool := s.regBit (f.base + 4) 9

/-- A bit of FLM_CHERR set. -/
def State.flumeErr (s : State) (f : FlumeId) (i : Nat) : State := s.setRegBit (f.base + 8) i true

/-! Request lines (R288) -/

/-- Level of request line l of a channel's engine. -/
def State.reqLine (s : State) (f : FlumeId) (l : Nat) : Bool :=
  if l < 16 then s.regBit (f.common + 0x10) l
  else match f with
    | .hub h _ => s.hubReqLine h l
    | _ => false

/-- The channel's selected line is asserted. -/
def State.reqAsserted (s : State) (f : FlumeId) : Bool := s.reqLine f (s.regFld f.base 21 16)

/-- Registers that show the state of an engine or channel (R299); `o` counts from the engine's block. -/
def State.flumeView (s : State) (f : FlumeId) (o : Nat) : Option Word :=
  let lines (a : Nat) : Word :=
    BitVec.ofNat 32 ((List.range 32).foldl (fun v i => if s.reqLine f (a + i) then v + 2 ^ i else v) 0)
  if o = 4 then some (setBit (s.reg (f.common + 4)) 8 s.compat)
  else if o = 0x14 then some (s.reg (f.common + 0x10))
  else if o = 0x20 then some (lines 0)
  else if o = 0x24 then some (lines 32)
  else if o < 0x1000 then none
  else
    let c := s.chan f
    match o % 0x100 with
    | 0x04 => some (setFld (setBit (s.reg (f.base + 4)) 8 (s.flumeEn f)) 12 10 c.bursts.length)
    | 0x28 => some (if c.desc.isSome then BitVec.ofNat 32 c.moved else 0)
    | 0x34 => some (BitVec.ofNat 32 (c.total / 256))
    | _ => none

/-! Enabling and disabling (R293, R297) -/

/-- The channel is DISABLED and drained. -/
def State.flumeOff (s : State) (f : FlumeId) : State :=
  let s := s.modChan f fun c => { c with fetch := none, desc := none, status := 0, fenced := none, stopping := false }
  ((s.setChState f 0).setRegBit (f.base + 4) 9 true).setRegBit (f.base + 4) 5 false

/-- The channel stops, its descriptor in hand to be written back with a status unless it has already ended in error (R293, R295). -/
def State.flumeStop (s : State) (f : FlumeId) (status : Nat) : State :=
  let c := s.chan f
  let s := (s.disarm (f.base + 0x40)).modChan f fun c => { c with stopping := true }
  if c.wb.isSome then s
  else if c.desc.isSome then s.chanEnd f status
  else if c.fetch.isSome then s
  else s.flumeOff f

/-- FLM_CHCTL with EN set, at a ring that is valid: FETCH or GATE_WAIT (R283, R297). -/
def State.flumeStart (s : State) (f : FlumeId) : State := (s.setRegBit (f.base + 4) 9 false).toFetch f

/-- A write to FLM_CHCTL (R293). -/
def State.flumeCtl (s : State) (f : FlumeId) (v : Word) : State :=
  let old := s.reg f.base
  let v := v &&& 0x3F031F
  let keep (w : Word) : Word := w &&& 0x3F0316
  if bit old 0 then
    let s := if keep v ≠ keep old then s.flumeErr f 1 else s
    let s := s.setReg f.base (setBit (setBit old 3 (bit v 3)) 0 (bit v 0))
    if bit v 0 then s else s.flumeStop f 4
  else if bit v 0 then
    let n := s.regFld (f.base + 0x18) 15 0
    if s.flumeDrained f = false then s.flumeErr f 0
    else if n = 0 ∨ n ≤ s.regFld (f.base + 0x1C) 15 0 then s.flumeErr f 1
    else (s.setReg f.base v).flumeStart f
  else s.setReg f.base v

/-- A write to FLM_RING, FLM_RING_SIZE, FLM_HEAD or FLM_GATE of a channel, at its offset (R293, R299). -/
def State.flumeCfg (s : State) (f : FlumeId) (o : Nat) (v : Word) : State :=
  if s.flumeDrained f then
    let m : Word := match o with
      | 0x10 => if s.compat then 0xFFFFFFF0 else 0xFFFFFFE0
      | 0x14 => 0xFF
      | _ => 0xFFFF
    s.setReg (f.base + o) (v &&& m)
  else s.flumeErr f 1

/-- The channel returns to its reset values (R296). -/
def State.flumeReset (s : State) (f : FlumeId) : State :=
  let s := s.resetRegs f.base (f.base + 0x100)
  let c := (f.base + 0x40)
  { s.modChan f fun _ => {} with targets := sset (fun _ => 0) s.targets c 0 }

/-! Descriptors (R279, R280) -/

/-- Bytes of a descriptor in the format in use. -/
def State.descSize (s : State) : Nat := if s.compat then 16 else 32

/-- Address of the descriptor at FLM_HEAD. -/
def State.descAddr (s : State) (f : FlumeId) : Nat :=
  (s.reg (f.base + 0x10)).toNat + 2 ^ 32 * s.regFld (f.base + 0x14) 7 0 + s.descSize * s.regFld (f.base + 0x1C) 15 0

/-- A descriptor from its bytes. -/
def descOf (d : List Byte) : Desc :=
  if d.length = 16 then ⟨eFld d 0 5, eFld d 5 3, eFld d 8 5, BitVec.ofNat 32 (eFld d 13 1), 0⟩
  else ⟨eFld d 0 5, eFld d 5 3, eFld d 8 5, BitVec.ofNat 32 (eFld d 16 4), BitVec.ofNat 64 (eFld d 24 8)⟩

/-- CTL.TRIG: 0 IMMEDIATE, 1 TIMED, 2 PERIPH. -/
def Desc.trig (x : Desc) : Nat := fld x.ctl 3 2

/-- CTL.SRC_FIXED and DST_FIXED. -/
def Desc.srcFixed (x : Desc) : Bool := bit x.ctl 4

/-- CTL.DST_FIXED. -/
def Desc.dstFixed (x : Desc) : Bool := bit x.ctl 5

/-- The descriptor's fields are valid (R279, R280). -/
def descOk (d : List Byte) : Bool :=
  let x := descOf d
  let fixed := (!x.srcFixed || decide (x.src % 32 = 0)) && (!x.dstFixed || decide (x.dst % 32 = 0))
  decide (fld x.ctl 7 6 = 0) && decide (x.trig ≠ 3) && fixed &&
    if d.length = 16 then decide (x.trig ≠ 1) && decide (eFld d 14 1 < 32) && decide (eFld d 15 1 = 0)
    else decide (eFld d 13 3 = 0) && decide (fld x.ctl 31 14 = 0)

/-- The trigger is met: the transfer moves, or ends at once where it moves nothing (R279, R284). -/
def State.flumeGo (s : State) (f : FlumeId) : State :=
  match (s.chan f).desc with
  | some x => s.setChState f (if x.count = 0 then 7 else 6)
  | none => s

/-- A descriptor with OWN = 1 is in hand (R284, R297). -/
def State.flumeTake (s : State) (f : FlumeId) (d : List Byte) : State :=
  let x := descOf d
  let s := if s.regBit f.base 2 then s.setRegFld (f.base + 0x24) 15 0 (s.regFld (f.base + 0x24) 15 0 - 1) else s
  let s := s.modChan f fun c => { c with desc := some x, bursts := [], funnel := [], started := 0, moved := 0, status := 0, late := false, wb := none }
  if descOk d then
    match x.trig with
    | 0 => s.flumeGo f
    | 1 => (s.armAt (f.base + 0x40) x.start).setChState f 4
    | _ => s.setChState f 5
  else s.chanEnd f 3

/-- A fetched descriptor arrives; none: the fetch failed (R282, R292, R293, R297). -/
def State.flumeReturn (s : State) (f : FlumeId) (d : Option (List Byte)) : State :=
  let c := s.chan f
  let s := s.modChan f fun c => { c with fetch := none, ringDest := none }
  if c.stopping then s.flumeOff f
  else match d with
    | none => ((s.flumeErr f 3).setChState f 9).raise (flumeEvent f)
    | some d =>
      if bit (descOf d).ctl 0 then s.flumeTake f d
      else if s.regBit (f.base + 4) 4 then s.toFetch f
      else s.setChState f 1

/-- The comparator of a channel in TIME_WAIT has fired (R284). -/
def State.flumeFire (s : State) (f : FlumeId) (late : Bool) : State :=
  if s.chState f = 4 then (s.modChan f fun c => { c with late := late }).flumeGo f else s

/-- Bytes of the write-back and where they go (R280, R290). -/
def State.wbBytes (s : State) (f : FlumeId) (x : Desc) : Nat × List Byte :=
  let c := s.chan f
  let resid := x.count - c.moved
  if s.compat then
    (s.descAddr f, toBytes 5 x.src ++ toBytes 3 resid ++ toBytes 5 x.dst ++
      [BitVec.ofNat 8 (x.ctl.toNat % 256 / 2 * 2), BitVec.ofNat 8 c.status, 0])
  else
    let w := setBit (setFld (setBit x.ctl 0 false) 12 8 c.status) 13 c.late
    (s.descAddr f + 16, toBytes 4 w.toNat ++ toBytes 4 resid)

/-- The write-back is acknowledged, or has failed (R290 to R294). -/
def State.flumeWbEnd (s : State) (f : FlumeId) (failed : Bool) : State :=
  let c := s.chan f
  let ioc := match c.desc with
    | some x => bit x.ctl 1
    | none => false
  let s := s.modChan f fun c => { c with wb := none, desc := none, ringDest := none }
  if failed then
    let s := (s.flumeErr f 4).raise (flumeEvent f)
    if c.stopping then s.flumeOff f else s.setChState f 9
  else
    let i := s.regFld (f.base + 0x1C) 15 0
    let s := s.raiseIf (ioc || (decide (c.status ≠ 0) && s.regBit f.base 3) || decide (c.status = 5)) (flumeEvent f)
    let s := s.setReg (f.base + 0x1C) (BitVec.ofNat 32 ((i + 1) % max 1 (s.regFld (f.base + 0x18) 15 0)))
    let s := s.setReg (f.base + 0x2C) (BitVec.ofNat 32 (i + c.status % 32 * 2 ^ 16 + c.late.toNat * 2 ^ 21))
    let s := s.countUp (f.base + 0x30)
    if c.stopping then s.flumeOff f
    else if c.status = 5 ∨ (c.status ≠ 0 ∧ s.regBit f.base 1 = true) then s.setChState f 9
    else s.toFetch f

/-- A flume engine's vote on fencing is REFUSE: a channel is at work (R294). -/
def State.flumeBusy (s : State) (f : FlumeId) : Bool :=
  let t := s.chState f
  decide (3 ≤ t ∧ t ≤ 7)

end Sys2Proof.Machine
end

