-- ==== Sys2Proof/Machine/Events.lean ====
section
/-! DEFINITION. The event fabric and the PCIe functions (18_events_host_management.md): delivery of events, MSI-X, Function Level Reset,
PERST, link changes and configuration writes. Host accesses are in Machine/HostAccess.lean. -/

namespace Sys2Proof.Machine

/-- Address of HIF_FNf_STATUS. -/
def fnA (f : Nat) : Nat := hifA (0x110 + 0x20 * f)

/-- Vectors of function f. -/
def State.vectors (s : State) (f : Nat) : Nat := s.regFld (hifA (0x100 + 0x20 * f)) 11 0

/-- Word w of an MSI-X table entry; a vector is masked until the host unmasks it (assumption 12). -/
def State.msixW (s : State) (f v w : Nat) : Word := sget (fun k => if k % 4 = 3 then 1 else 0) s.hif.table ((f * 2048 + v) * 4 + w)

/-- A word of an MSI-X table entry set. -/
def State.setMsixW (s : State) (f v w : Nat) (x : Word) : State :=
  { s with hif := { s.hif with table := sset (fun k => if k % 4 = 3 then 1 else 0) s.hif.table ((f * 2048 + v) * 4 + w) x } }

/-- The Pending Bit of a vector. -/
def State.pba (s : State) (f v : Nat) : Bool := sget (fun _ => false) s.hif.pba (f * 2048 + v)

/-- The state with a Pending Bit set to a value. -/
def State.setPba (s : State) (f v : Nat) (b : Bool) : State :=
  { s with hif := { s.hif with pba := sset (fun _ => false) s.hif.pba (f * 2048 + v) b } }

/-- The vector is masked in its entry or by Function Mask. -/
def State.vectorMasked (s : State) (f v : Nat) : Bool := bit (s.msixW f v 3) 0 || s.regBit (fnA f) 2

/-- The vector's message is sent. -/
def State.sendMsix (s : State) (f v : Nat) : State :=
  s.emit (.msix f v (BitVec.ofNat 64 ((s.msixW f v 0).toNat + 2 ^ 32 * (s.msixW f v 1).toNat)) (s.msixW f v 2))

/-- A delivery is discarded (R414). -/
def State.evDrop (s : State) : State := s.countUp (Block.evf.base + 0xC)

/-- Delivery of an event under its route entry (R411, R412, R414). -/
def State.deliver (s : State) (route : Word) : State :=
  match fld route 1 0 with
  | 1 =>
    let r : Fin 4 := ⟨fld route 3 2 % 4, Nat.mod_lt _ (by decide)⟩
    if s.rinfOn r.val then s.post r (fld route 13 4) (fld route 18 14) none else s.evDrop
  | 2 => s.emit (.irq (fld route 7 2))
  | 3 =>
    let f := fld route 6 2
    let v := fld route 17 7
    if s.vectors f ≤ v ∨ s.regBit (fnA f) 1 = false ∨ s.flrBusy f = true then s.evDrop
    else if s.vectorMasked f v then s.setPba f v true
    else s.sendMsix f v
  | _ => s.evDrop

/-- A write to EVF_ROUTEi (R412). -/
def State.routeWrite (s : State) (i : Nat) (v : Word) : State :=
  if (fld v 1 0 = 1 ∧ s.hasRange (fld v 3 2) = false) ∨ (fld v 1 0 = 3 ∧ 16 < fld v 6 2) then
    s.setRegBit (Block.evf.base + 8) 0 true
  else s.setReg (routeAddr i) (v &&& (match fld v 1 0 with
    | 0 => 0x3
    | 1 => 0x7FFFF
    | 2 => 0xFF
    | _ => 0x3FFFF))

/-- A write to EVF_SWEVT (R416). -/
def State.swevt (s : State) (v : Word) : State :=
  (List.range 32).foldl (fun t b => if bit v b then t.raise (2016 + b) else t) s

/-- A write to EVF_CNT_CLR (R426). -/
def State.evCntClr (s : State) (v : Word) : State := if bit v 0 then s.resetRegs (countAddr 0) (countAddr 2048) else s

/-! Functions (R418, R421, R422) -/

/-- Host flumes of a function. -/
def State.fnFlumes (s : State) (f : Nat) : List (Fin 16) :=
  (List.finRange 16).filter fun q => s.regFld (hifA (0x400 + 4 * q.val)) 4 0 = f

/-- A Function Level Reset of one function begins. -/
def State.flrOne (s : State) (f : Nat) : State :=
  let s := s.setReg (fnA f) 8
  let s := s.raise (1952 + f)
  let s := (s.fnFlumes f).foldl (fun t q => (t.setRegBit (FlumeId.host q).base 0 false).flumeStop (.host q) 6) s
  let qs := (List.range 64).filter fun q => s.regFld (hifA (0x500 + 4 * q)) 4 0 = f
  let s := qs.foldl (fun t q => (t.setHq q 0).setHq (64 + q) 0) s
  { s with hif := { s.hif with
    table := s.hif.table.filter fun e => decide (e.1 / 8192 ≠ f)
    pba := s.hif.pba.filter fun e => decide (e.1 / 2048 ≠ f) } }

/-- A Function Level Reset: of PF1, VF Enable is cleared and each VF is reset too. -/
def State.flr (s : State) (f : Nat) : State :=
  if f = 1 then
    let s := s.setRegBit (hifA 4) 9 false
    let s := { s with hif := { s.hif with numVfs := 0 } }
    (List.range (s.regFld (hifA 0x10) 3 0)).foldl (fun t v => t.flrOne (v + 2)) (s.flrOne 1)
  else s.flrOne f

/-- The link state shown in HIF_STATUS; a change raises event 1969 (R417, R427). -/
def State.pcieLink (s : State) (up : Bool) (width speed : Nat) : State :=
  let vf := s.reg (hifA 4) &&& 0x200
  let w := if up then BitVec.ofNat 32 (1 + 2 * (width % 32) + 64 * (speed % 8)) else 0
  if s.reg (hifA 4) = (vf ||| w) then s else (s.setReg (hifA 4) (vf ||| w)).raise 1969

/-- The function is there for the host: a VF needs VF Enable and a number below NumVFs (R420). -/
def State.fnThere (s : State) (f : Nat) : Bool :=
  f < 2 || (s.regBit (hifA 4) 9 && decide (f - 2 < min s.hif.numVfs (s.regFld (hifA 0x10) 3 0)))

/-- A write to HIF_FNf_MSIX (R421). -/
def State.msixSize (s : State) (f : Nat) (v : Word) : State :=
  let n := fld v 11 0
  let sum := (List.range 17).foldl (fun t k => t + if k = f then n else s.vectors k) 0
  if 2048 < sum then s.setRegBit (hifA 8) 1 true else s.setReg (hifA (0x100 + 0x20 * f)) (BitVec.ofNat 32 n)

/-! Commands -/

/-- EVENT_DELIVERY: the oldest raise is delivered (R411, R413, R414). -/
def execEventDelivery (s : State) : Out :=
  match s.events with
  | [] => .next s
  | e :: es => run s fun s => { s with events := es }.deliver e.2

/-- MSIX_UNMASK: the message of a pending vector that is no longer masked is sent (R414). -/
def execMsixUnmask (f : Fn) (v : BitVec 11) (s : State) : Out :=
  act s (s.pba f.val v.toNat = true ∧ s.vectorMasked f.val v.toNat = false ∧ s.regBit (fnA f.val) 1 = true ∧ s.flrBusy f.val = false) fun s =>
    (s.setPba f.val v.toNat false).sendMsix f.val v.toNat

/-- FLR of function f (R422). -/
def execFlr (f : Fn) (s : State) : Out :=
  act s (s.flrBusy f.val = false ∧ s.fnThere f.val = true) fun s => s.flr f.val

/-- FLR_COMPLETE of function f: its host flumes are DISABLED (R422). -/
def execFlrComplete (f : Fn) (s : State) : Out :=
  act s (s.flrBusy f.val = true ∧ (s.fnFlumes f.val).all (fun q => decide (s.chState (.host q) = 0)) = true) fun s =>
    s.setRegBit (fnA f.val) 3 false

/-- PCIE_PERST: an FLR of every function, with the link down until it trains again (R418). -/
def execPciePerst (s : State) : Out :=
  run s fun s => (((s.flr 0).flr 1)).pcieLink false 0 0

/-- PCIE_LINK_CHANGE: the link is up with a width and speed, or down (R417, R427). -/
def execPcieLinkChange (up : Bool) (width : Fin 17) (speed : Fin 6) (s : State) : Out :=
  run s fun s => s.pcieLink up width.val speed.val

/-- PCIE_CONFIG_WRITE of a function's Bus Master Enable, MSI-X Enable and Function Mask; of PF1 also VF Enable and, while that is 0,
NumVFs (R414, R418, R420). -/
def execPcieConfigWrite (f : Fn) (bme msixEn maskAll vfEn : Bool) (numVfs : BitVec 8) (s : State) : Out :=
  act s (s.fnThere f.val = true ∧ s.flrBusy f.val = false) fun s =>
    let s := s.setReg (fnA f.val) (BitVec.ofNat 32 (bme.toNat + 2 * msixEn.toNat + 4 * maskAll.toNat))
    if f.val = 1 then
      let s := if s.regBit (hifA 4) 9 = false then { s with hif := { s.hif with numVfs := numVfs.toNat } } else s
      s.setRegBit (hifA 4) 9 vfEn
    else s

end Sys2Proof.Machine
end

