-- ==== Sys2Proof/Machine/Housekeeping.lean ====
section
/-! DEFINITION. The housekeeping converters (17_housekeeping_converters.md): DAC channels with their input registers, strobes, queues,
deglitcher, ranges, tone and safe values; the ADCs with scan, urgent conversions, limits, over-temperature and read-back. -/

namespace Sys2Proof.Machine

/-- Address of an HKD_ or HKA_ register. -/
def hkA (off : Nat) : Nat := Block.hk.base + off

/-- Address of a register of DAC channel c. -/
def dacA (c : Fin 8) (off : Nat) : Nat := hkA (0x100 + 0x40 * c.val + off)

/-- A DAC channel. -/
def State.dac (s : State) (c : Fin 8) : Dac := s.hk.dacs[c]

/-- The state with a DAC channel changed. -/
def State.modDac (s : State) (c : Fin 8) (f : Dac → Dac) : State :=
  { s with hk := { s.hk with dacs := s.hk.dacs.set c (f s.hk.dacs[c]) } }

/-- HKD_CHc_STATUS.STATE: 0 DISCONNECTED, 1 DRIVEN, 2 SAFE. -/
def State.dacState (s : State) (c : Fin 8) : Nat := s.regFld (dacA c 4) 1 0

/-- SRC of a channel: 0 input register, 1 queue, 2 tone; 3 acts as 0 (R409). -/
def State.dacSrc (s : State) (c : Fin 8) : Nat := if s.regFld (dacA c 0) 1 0 = 3 then 0 else s.regFld (dacA c 0) 1 0

/-- HKD_CHc_OUT. -/
def State.dacOut (s : State) (c : Fin 8) : Nat := s.regFld (dacA c 0xC) 15 0

/-- HKD_ERR bit i is set, with its event (R408, R409). -/
def State.hkdErr (s : State) (i : Nat) : State := (s.setRegBit (hkA 0xC) i true).raise 1872

/-- The output takes a code. -/
def State.dacDrive (s : State) (c : Fin 8) (v : Nat) : State :=
  (s.setReg (dacA c 0xC) (BitVec.ofNat 32 v)).modDac c fun d => { d with changed := s.tb.cycles }

/-- A transition is major (R399). -/
def majorStep (a b : Nat) : Bool := decide (a / 32768 % 2 ≠ b / 32768 % 2) || decide (8192 < max a b - min a b)

/-- A code reaches the output of a connected channel: clamped, held by the deglitcher where the step is major, or kept until a
hold ends (R391, R399); during a range change it is dropped, since IN is driven at the end (R400). -/
def State.dacUpdate (s : State) (c : Fin 8) (v : Int) : State :=
  let lim := s.reg (dacA c 0x10)
  let d := s.dac c
  if d.rangeHold then s
  else if d.core.isSome then
    let s := if d.next.isSome then s.setRegBit (dacA c 4) 9 true else s
    s.modDac c fun d => { d with next := some (max 0 v).toNat }
  else
    let w := (max (fld lim 15 0 : Int) (min (fld lim 31 16 : Int) v)).toNat
    let s := if (w : Int) = v then s else s.setRegBit (dacA c 4) 8 true
    if s.regBit (dacA c 0) 5 ∧ s.dacSrc c ≠ 2 ∧ majorStep (s.dacOut c) w = true then
      (s.setRegBit (dacA c 4) 2 true).modDac c fun d => { d with core := some w, changed := s.tb.cycles }
    else s.dacDrive c w

/-- A range change holds the output (R400). -/
def State.rangeStart (s : State) (c : Fin 8) : State :=
  (s.setRegBit (dacA c 4) 2 true).modDac c fun d => { d with rangeHold := true, next := none, changed := s.tb.cycles }

/-- A range change: at once its own hold, or after a deglitch hold that is on (R400). -/
def State.rangeChange (s : State) (c : Fin 8) (r : Bool) (code : Option Nat) : State :=
  let s := s.modDac c fun d => { d with range := some r, rangeCode := code }
  if (s.dac c).core.isSome ∨ (s.dac c).rangeHold then s else s.rangeStart c

/-! Safe values (R394, R395) -/

/-- A driven channel enters SAFE for a cause. -/
def State.dacSafe (s : State) (c : Fin 8) (cause : Nat) : State :=
  if s.dacState c = 1 then
    let st := s.reg (dacA c 4)
    let s := s.setReg (dacA c 4) (setFld (setBit (setFld st 1 0 2) 3 false) 6 4 cause)
    let s := s.disarm (CmpId.dac c).base
    let code := s.regFld (dacA c 0x14) 15 0
    let rng := s.regBit (dacA c 0x14) 16
    let s := if s.regBit (dacA c 0) 6 ≠ rng ∨ (s.dac c).range.isSome then s.rangeChange c rng (some code)
      else s.dacUpdate c code
    s.raise (1856 + c.val)
  else s

/-- Every channel enters SAFE for a cause. -/
def State.allSafe (s : State) (cause : Nat) : State := (List.finRange 8).foldl (fun t c => t.dacSafe c cause) s

/-- HKD_FORCE_SAFE (R394). -/
def State.forceSafe (s : State) (v : Word) : State :=
  (List.finRange 8).foldl (fun t c => if bit v c.val then t.dacSafe c 4 else t) s

/-- HKD_CHc_RESUME (R395). -/
def State.dacResume (s : State) (c : Fin 8) (v : Word) : State :=
  if bit v 0 = false then s
  else if s.dacState c = 2 ∧ ¬(s.regFld (dacA c 4) 6 4 = 2 ∧ s.regBit (hkA 8) 0 = true) then
    let s := s.setReg (dacA c 4) (setFld (setFld (s.reg (dacA c 4)) 1 0 1) 6 4 0)
    let s := s.modDac c fun d => { d with rangeCode := none }
    s.dacUpdate c (s.regFld (dacA c 8) 15 0)
  else s.hkdErr 4

/-! Input registers and strobes (R396) -/

/-- The code a channel's source gives now: IN, the code last played, or IN until the next tone step. -/
def State.dacSource (s : State) (c : Fin 8) : Nat :=
  if s.dacSrc c = 1 then (s.dac c).played else s.regFld (dacA c 8) 15 0

/-- A write to HKD_CHc_IN. -/
def State.dacIn (s : State) (c : Fin 8) (v : Word) : State :=
  let s := s.setReg (dacA c 8) (BitVec.ofNat 32 (fld v 15 0))
  if s.dacState c = 1 ∧ s.dacSrc c = 0 ∧ s.regBit (dacA c 0) 2 = false then s.dacUpdate c (fld v 15 0) else s

/-- A strobe of groups. -/
def State.dacStrobe (s : State) (groups : Nat) : State :=
  (List.finRange 8).foldl (fun t c =>
    if groups.testBit (t.regFld (dacA c 0) 4 3) ∧ t.dacSrc c = 0 ∧ t.regBit (dacA c 0) 2 = true ∧ t.dacState c = 1 then
      t.dacUpdate c (t.regFld (dacA c 8) 15 0)
    else t) s

/-- A write to HKD_CHc_CTL: a change of RANGE or OUT_EN, and the other fields (R392, R400). -/
def State.dacCtl (s : State) (c : Fin 8) (v : Word) : State :=
  let old := s.reg (dacA c 0)
  let on := bit v 7
  let was := bit old 7
  let oldSrc := s.dacSrc c
  let change : Bool := bit v 6 != bit old 6
  let driven := decide (s.dacState c = 1) && decide (oldSrc = 0)
  let s := s.setReg (dacA c 0) ((v &&& 0x1BF) ||| (old &&& 0x40))
  let s :=
    if was && !on then
      let st := s.reg (dacA c 4)
      (s.setReg (dacA c 4) (setFld (setFld st 2 0 0) 6 4 0)).modDac c fun d =>
        { d with core := none, next := none, range := none, rangeHold := false, rangeCode := none }
    else s
  let s :=
    if change = false then s
    else if !on && !was || (was && !on) then s.setRegBit (dacA c 0) 6 (bit v 6)
    else if was = false then s.setRegBit (dacA c 0) 6 (bit v 6)
    else if driven && (s.dac c).range.isNone then s.rangeChange c (bit v 6) none
    else s.hkdErr 0
  if on && !was then
    (s.setRegFld (dacA c 4) 1 0 1).dacUpdate c (s.dacSource c)
  else if s.dacState c = 1 ∧ oldSrc ≠ s.dacSrc c ∧ s.dacSrc c = 0 ∧ s.regBit (dacA c 0) 2 = false then s.dacUpdate c (s.dacSource c)
  else s

/-! Queues (R397, R398) -/

/-- A fire of a channel's comparator. -/
def State.dacFire (s : State) (c : Fin 8) : State :=
  if s.dacSrc c ≠ 1 then s.hkdErr 3
  else if s.regBit (dacA c 4) 3 then s.setRegBit (dacA c 4) 10 true
  else s.setRegBit (dacA c 4) 3 true

/-- The entry at QPOS is played. -/
def State.dacPlay (s : State) (c : Fin 8) : State :=
  let q := s.reg (dacA c 0x18)
  let p := fld q 21 16
  let e := s.reg (hkA (0x1000 + 0x100 * c.val + 4 * p))
  let code := fld e 15 0
  let s := s.modDac c fun d => { d with played := code }
  let s := if s.dacSrc c = 1 ∧ s.dacState c = 1 then s.dacUpdate c code else s
  let s := s.setRegFld (dacA c 0x18) 21 16 (if p = fld q 13 8 then fld q 5 0 else p + 1)
  if bit e 16 then (s.setRegBit (dacA c 4) 3 false).raise (1864 + c.val) else s

/-- A write to HKD_CHc_QCFG: QSTOP ends the run; the other fields are ignored during a run (R398). -/
def State.dacQcfg (s : State) (c : Fin 8) (v : Word) : State :=
  let run := s.regBit (dacA c 4) 3
  let s := if bit v 31 then s.setRegBit (dacA c 4) 3 false else s
  let w := v &&& 0x3F3F3F
  if run then (if w = s.reg (dacA c 0x18) then s else s.hkdErr 2) else s.setReg (dacA c 0x18) w

/-- A write to HKD_CHc_QPERIOD. -/
def State.dacQperiod (s : State) (c : Fin 8) (v : Word) : State :=
  if fld v 19 0 < 256 then s.hkdErr 2 else s.setReg (dacA c 0x1C) (v &&& 0xFFFFF)

/-! Tone (R401) -/

/-- One series term after another of sin x, x in units of 2^-80, from the term and its number. -/
def sinSeries : Nat → Int → Int → Nat → Int
  | 0, _, _, _ => 0
  | n + 1, x, t, k => t + sinSeries n x (-(t * x / 2 ^ 80 * x / 2 ^ 80) / ((2 * k + 2) * (2 * k + 3) : Nat)) (k + 1)

/-- Entry i of the tone table: round(32,767 × sin((i + 0.5) π / 2,048)). -/
def toneEntry (i : Nat) : Int :=
  let x : Int := (2 * i + 1) * 3797952473636338580787993 / 4096
  (sinSeries 14 x x 0 * 32767 + 2 ^ 79) / 2 ^ 80

/-- The signed table value at a phase. -/
def toneAt (p : Word) : Int :=
  let i := fld p 29 20
  let v := toneEntry (if bit p 30 then 1023 - i else i)
  if bit p 31 then -v else v

/-- A write to HKD_TONE_FTW. -/
def State.toneFtw (s : State) (v : Word) : State := if 0x10000000 < v.toNat then s.hkdErr 1 else s.setReg (hkA 0x20) v

/-- A step of the tone source. -/
def State.toneStep (s : State) : State :=
  let p := s.hk.phase + s.reg (hkA 0x20)
  let s := { s with hk := { s.hk with phase := p } }
  let w := (s.regFld (hkA 0x24) 15 0 : Int) * toneAt p / 32768
  (List.finRange 8).foldl (fun t c =>
    if t.dacSrc c = 2 ∧ t.dacState c = 1 then t.dacUpdate c ((t.regFld (dacA c 8) 15 0 : Int) + w) else t) s

/-! The DAC record (R377, R393) -/

/-- The record applied: limits and safe codes latched, the channels with EN connected and driving their boot codes. `held` says that
the outputs were kept through SYSRST_N, so that the codes are ordinary updates. -/
def State.dacRecord (s : State) (rec : List Byte) (holdover : Option (List Nat)) (held : Bool) : State :=
  let s := (List.finRange 8).foldl (fun (s : State) c =>
    let f (o : Nat) : Nat := ofBytes ((rec.drop (12 * c.val + o)).take 2)
    let rng := decide (f 8 % 256 = 1)
    let en := decide (f 8 / 256 ≠ 0)
    let lo := f 4
    let hi := f 6
    let code := match holdover with
      | some l => let h := l.getD c.val 0; if lo ≤ h ∧ h ≤ hi then h else f 0
      | none => f 0
    let s := s.setReg (dacA c 0x10) (BitVec.ofNat 32 (lo + 2 ^ 16 * hi))
    let s := s.setReg (dacA c 0x14) (BitVec.ofNat 32 (f 2 + 2 ^ 16 * rng.toNat))
    let ctl := (s.reg (dacA c 0)) &&& 0x138
    if en then
      let was := held && decide (s.dacState c ≠ 0)
      let s := s.setReg (dacA c 0) (ctl ||| BitVec.ofNat 32 (0x80 + 0x40 * rng.toNat))
      let s := (s.setReg (dacA c 8) (BitVec.ofNat 32 code)).setReg (dacA c 4) (setFld (s.reg (dacA c 4)) 6 0 1)
      let s := s.modDac c fun _ => { changed := s.tb.cycles }
      if was then s.dacUpdate c code else s.dacDrive c code
    else
      let s := (s.setReg (dacA c 0) ctl).setReg (dacA c 8) 0
      s.setReg (dacA c 4) 0) s
  s.setRegBit (hkA 8) 1 true

/-- No slot can be booted: every channel goes to its latched safe value (R377). -/
def State.dacAllLatched (s : State) : State := (List.finRange 8).foldl (fun t c =>
  if t.dacState c = 1 then t.dacSafe c 0 else t) s

/-! ADCs (R403 to R407) -/

/-- Address of a register of ADC a. -/
def adcA (a : Fin 2) (off : Nat) : Nat := hkA (0x8100 + 0x100 * a.val + off)

/-- An ADC. -/
def State.adc (s : State) (a : Fin 2) : Adc := if a = 0 then s.hk.adc0 else s.hk.adc1

/-- The state with an ADC changed. -/
def State.modAdc (s : State) (a : Fin 2) (f : Adc → Adc) : State :=
  { s with hk := if a = 0 then { s.hk with adc0 := f s.hk.adc0 } else { s.hk with adc1 := f s.hk.adc1 } }

/-- Inputs in the scan: those of SCAN_EN, and on ADC0 the read-back inputs of supervised channels (R402, R405). -/
def State.scanned (s : State) (a : Fin 2) : List Nat :=
  (List.range 32).filter fun i => s.regBit (adcA a 8) i ||
    (decide (a = 0) && (List.finRange 8).any fun c => decide (c.val = i) && s.regBit (dacA c 0) 8)

/-- The converter takes its next input: the urgent one, else the next of the scan, from the start again where CONT is 1 (R405). -/
def State.adcNext (s : State) (a : Fin 2) : State :=
  let d := s.adc a
  let l := s.scanned a
  if s.regBit (adcA a 0) 0 = false then s.modAdc a fun d => { d with cur := none }
  else match d.urgent with
  | some i => s.modAdc a fun d => { d with cur := some (i, true), urgent := none }
  | none =>
    match l.find? (fun i => match d.last with
      | some j => decide (j < i)
      | none => true) with
    | some i => s.modAdc a fun d => { d with cur := some (i, false) }
    | none =>
      match l with
      | i :: _ => if s.regBit (adcA a 0) 1 then s.modAdc a fun d => { d with cur := some (i, false) } else s.modAdc a fun d => { d with cur := none }
      | [] => s.modAdc a fun d => { d with cur := none }

/-- REF_SEL in use; 3 acts as 0. -/
def State.refSel (s : State) (a : Fin 2) : Nat := if s.regFld (adcA a 0) 3 2 = 3 then 0 else s.regFld (adcA a 0) 3 2

/-- An input the part does not have, or that is reserved (R403). -/
def State.deadInput (s : State) (a : Fin 2) (i : Nat) : Bool :=
  (decide (a = 0) && decide (i = 31)) ||
  (decide (s.part = .gh9672) && ((decide (a = 0) && (decide (i = 11) || decide (i = 15))) || (decide (a = 1) && decide (i = 31))))

/-- A result checked against its limits (R407). -/
def State.adcLimits (s : State) (a : Fin 2) (i code : Nat) : State :=
  let lim := s.reg (hkA (0xA000 + 0x100 * a.val + 4 * i))
  if s.deadInput a i then s
  else if bit lim 31 ∧ (code < fld lim 11 0 ∨ fld lim 27 16 < code) then
    if i ∈ (s.adc a).outside then s
    else ((s.modAdc a fun d => { d with outside := i :: d.outside }).setRegBit (adcA a 0x20) 1 true).raise (1873 + a.val)
  else s.modAdc a fun d => { d with outside := d.outside.filter fun j => decide (j ≠ i) }

/-- A temperature result and the over-temperature signal (R407). -/
def State.adcTemp (s : State) (i code : Nat) : State :=
  if s.deadInput 0 i = false ∧ 8 ≤ i ∧ i < 20 then
    let s := s.modAdc 0 fun d => { d with temps := sset (fun _ => 0) d.temps i code }
    let thr := s.regFld (hkA 0x8010) 11 0
    let hyst := s.regFld (hkA 0x8010) 23 16
    let on := s.regBit (hkA 0x8014) 0
    if on = false ∧ thr ≤ code then (s.setRegBit (hkA 0x8014) 0 true).raise 1875
    else if on = true ∧ s.hk.adc0.temps.all (fun p => decide (p.2 + hyst < thr)) = true then (s.setRegBit (hkA 0x8014) 0 false).raise 1876
    else s
  else s

/-- A read-back result compared with the output (R402). -/
def State.readback (s : State) (c : Fin 8) (code : Nat) : State :=
  let rb := s.reg (dacA c 0x24)
  let d := s.dac c
  if s.regBit (dacA c 0) 8 = false ∨ s.regBit (dacA c 4) 2 = true ∨ s.dacSrc c = 2 ∨ s.tb.cycles < d.changed + 2458 then s
  else
    let e := s.dacOut c * (if s.regBit (dacA c 0) 6 then 6 else 3) / 128
    if fld rb 11 0 < max code e - min code e then
      let n := d.fails + 1
      let s := s.modDac c fun d => { d with fails := n }
      if max 1 (fld rb 15 12) ≤ n then (s.modDac c fun d => { d with fails := 0 }).dacSafe c 3 else s
    else s.modDac c fun d => { d with fails := 0 }

/-- A conversion of the input in hand ends with a code. -/
def State.adcEnd (s : State) (a : Fin 2) (i : Nat) (urgent : Bool) (sample : Nat) : State :=
  let code := if s.deadInput a i then 0 else sample
  let ref := s.refSel a
  let settled := s.regBit (adcA a 4) 1
  let res := BitVec.ofNat 32 (code + 2 ^ 12 * (!settled).toNat + 2 ^ 13 + 2 ^ 14 * ref)
  let s := if urgent then (s.setReg (adcA a 0x10) res).raise (1877 + a.val)
    else (s.setReg (hkA (0x9000 + 0x100 * a.val + 4 * i)) res).modAdc a fun d => { d with last := some i }
  let s := s.adcLimits a i code
  let good := settled && decide (ref = 0)
  let s := if good && decide (a = 0) then s.adcTemp i code else s
  let s := if h : a = 0 ∧ i < 8 ∧ good = true then s.readback ⟨i, h.2.1⟩ code else s
  s.adcNext a

/-- A write to HKA_a_CTL (R404, R405). -/
def State.adcCtl (s : State) (a : Fin 2) (v : Word) : State :=
  let old := s.reg (adcA a 0)
  let s := s.setReg (adcA a 0) (v &&& 0xF)
  let on := bit v 0 && !bit old 0
  let s := if on ∨ fld v 3 2 ≠ fld old 3 2 then s.setRegBit (adcA a 4) 1 false else s
  if bit v 0 = false then s.modAdc a fun d => { d with cur := none, last := none }
  else if on then (s.modAdc a fun d => { d with last := none }).adcNext a
  else if (s.adc a).cur.isNone then s.adcNext a
  else s

/-- A write to HKA_a_URGENT (R405). -/
def State.adcUrgent (s : State) (a : Fin 2) (v : Word) : State :=
  let d := s.adc a
  if d.urgent.isSome then s.setRegBit (adcA a 0x20) 0 true
  else
    let s := s.modAdc a fun d => { d with urgent := some (fld v 4 0) }
    if d.cur.isNone then s.adcNext a else s

/-- A write to HKA_a_SCAN_EN; an idle converter that scans goes on with it. -/
def State.adcScan (s : State) (a : Fin 2) (v : Word) : State :=
  let s := s.setReg (adcA a 8) v
  if (s.adc a).cur.isNone then s.adcNext a else s

/-- A register of HKA_ that shows the converter's own state. -/
def State.hkView (s : State) (o : Nat) : Option Word :=
  let st (a : Fin 2) : Word :=
    let d := s.adc a
    let c := match d.cur with
      | some p => 1 + 2 ^ 8 * p.1
      | none => 0
    BitVec.ofNat 32 (c + (if s.regBit (adcA a 4) 1 then 2 else 0) +
      (if d.urgent.isSome || (match d.cur with
        | some p => p.2
        | none => false) then 4 else 0))
  if o = 0x8104 then some (st 0) else if o = 0x8204 then some (st 1) else none

/-! Commands -/

/-- DAC_LOAD_EDGE: a falling edge of DAC_LOAD_N strobes the enabled groups (R396). -/
def execDacLoadEdge (s : State) : Out := run s fun s => s.dacStrobe (s.regFld (hkA 0x14) 3 0)

/-- DAC_QUEUE_STEP of channel c (R397). -/
def execDacQueueStep (c : Fin 8) (s : State) : Out := act s (s.regBit (dacA c 4) 3 = true) fun s => s.dacPlay c

/-- DEGLITCH_HOLD_END of channel c (R399, R400). -/
def execDeglitchHoldEnd (c : Fin 8) (s : State) : Out :=
  match (s.dac c).core with
  | none => .next s
  | some v => run s fun s =>
    let n := (s.dac c).next
    let s := (s.setRegBit (dacA c 4) 2 false).modDac c fun d => { d with core := none, next := none }
    let s := s.dacDrive c v
    if (s.dac c).range.isSome then s.rangeStart c
    else match n with
      | some w => s.dacUpdate c w
      | none => s

/-- RANGE_HOLD_END of channel c: the range switches, and IN, or the safe code, is driven (R394, R400). -/
def execRangeHoldEnd (c : Fin 8) (s : State) : Out :=
  match (s.dac c).range with
  | none => .next s
  | some r => act s ((s.dac c).rangeHold = true) fun s =>
    let code := (s.dac c).rangeCode
    let lim := s.reg (dacA c 0x10)
    let v := max (fld lim 15 0) (min (fld lim 31 16) (code.getD (s.regFld (dacA c 8) 15 0)))
    let s := if v = code.getD (s.regFld (dacA c 8) 15 0) then s else s.setRegBit (dacA c 4) 8 true
    let s := (s.setRegBit (dacA c 0) 6 r).setRegBit (dacA c 4) 2 false
    (s.modDac c fun d => { d with range := none, rangeHold := false, rangeCode := none }).dacDrive c v

/-- VDDA_HK_BROWNOUT (R394). -/
def execVddaHkBrownout (s : State) : Out :=
  act s (s.regBit (hkA 8) 0 = false) fun s =>
    let s := s.setRegBit (hkA 8) 0 true
    if s.regBit (hkA 4) 1 then s.allSafe 2 else s

/-- VDDA_HK_RECOVERY (R395). -/
def execVddaHkRecovery (s : State) : Out := act s (s.regBit (hkA 8) 0 = true) fun s => s.setRegBit (hkA 8) 0 false

/-- TONE_STEP (R401). -/
def execToneStep (s : State) : Out := run s fun s => s.toneStep

/-- ADC_CONVERSION of ADC a ends with a code (R402, R403, R405, R407). -/
def execAdcConversion (a : Fin 2) (code : BitVec 12) (s : State) : Out :=
  match (s.adc a).cur with
  | none => .next s
  | some (i, u) => run s fun s => s.adcEnd a i u code.toNat

/-- REF_SETTLED of ADC a (R404). -/
def execRefSettled (a : Fin 2) (s : State) : Out :=
  act s (s.regBit (adcA a 0) 0 = true) fun s => s.setRegBit (adcA a 4) 1 true

end Sys2Proof.Machine
end

