-- ==== Sys2Proof/Machine/Locks.lean ====
section
/-! DEFINITION. Ordered flows of a dispatcher (06_dispatcher.md R149 to R154). -/

namespace Sys2Proof.Machine

/-- Address of DPT_LOCKl_CFG. -/
def lockA (r : Fin 4) (l : Nat) : Nat := dptA r (0x4000 + 0x10 * l)

/-- NEXT_ENTER and NEXT_REL of a lock (R149). -/
def State.lockE (s : State) (r : Fin 4) (l : Nat) : Nat := s.regFld (lockA r l + 4) 15 0

/-- NEXT_REL of a lock (R149). -/
def State.lockR (s : State) (r : Fin 4) (l : Nat) : Nat := s.regFld (lockA r l + 4) 31 16

/-- Sequence numbers outstanding, n = (E − R) mod 65,536 (R149). -/
def State.lockN (s : State) (r : Fin 4) (l : Nat) : Nat := (s.lockE r l + 65536 - s.lockR r l) % 65536

/-- The lock is enabled. -/
def State.lockOn (s : State) (r : Fin 4) (l : Nat) : Bool := s.regBit (lockA r l) 31

/-- WINDOW in effect: 0 and values above 32,768 act as 32,768 (R159). -/
def State.lockWindow (s : State) (r : Fin 4) (l : Nat) : Nat :=
  let w := s.regFld (lockA r l) 15 0
  if w = 0 ∨ 32768 < w then 32768 else w

/-- Hold entries of a lock. -/
def State.holdsOf (s : State) (r : Fin 4) (l : Nat) : Nat := (s.dpts[r].holds.filter (fun h => decide (h.lock.toNat = l))).length

/-- A hold entry is free for the lock: fewer than 512 in use, and MAX_HOLD not reached (R150). -/
def State.holdFree (s : State) (r : Fin 4) (l : Nat) : Bool :=
  let q := s.regFld (lockA r l) 24 16
  decide (s.dpts[r].holds.length < 512) && (q = 0 || decide (s.holdsOf r l < q))

/-- DPT_ERR_INFO records a lock and a sequence number. -/
def State.lockInfo (s : State) (r : Fin 4) (l n : Nat) : State := s.setReg (dptA r 0x54) (BitVec.ofNat 32 (n % 65536 + l * 65536))

/-- A hold entry is taken; the peak in use is kept (R149, R159). -/
def State.takeHold (s : State) (r : Fin 4) (h : Hold) : State :=
  let s := s.modDpt r fun d => { d with holds := d.holds ++ [h] }
  s.setRegFld (dptA r 0x4C) 25 16 (max (s.regFld (dptA r 0x4C) 25 16) s.dpts[r].holds.length)

/-- The flume channel a FLUME action names (R153). -/
def relChannel (r : Fin 4) (t : Nat) : Option FlumeId :=
  if h : t < 96 then
    some (.ridge ⟨6 * r.val + t / 16, by omega⟩ ⟨t % 16, by omega⟩)
  else if h : t < 128 then some (.hub r ⟨t - 96, by omega⟩)
  else if h : t < 144 then some (.host ⟨t - 128, by omega⟩)
  else none

/-- The action and target of DPT_SELF_REL_ARG are ones R153 has. -/
def relArgOk (arg : Word) : Bool :=
  let a := fld arg 1 0
  let t := fld arg 11 2
  a = 0 || (a = 1) || (a = 2 && decide (t < 144)) || (a = 3 && decide (t < 64))

/-- A release action performed (R153). -/
def State.relAction (s : State) (r : Fin 4) (arg : Word) : State :=
  let t := fld arg 11 2
  match fld arg 1 0 with
  | 1 => s.post r t (fld arg 16 12) none
  | 2 => match relChannel r t with
    | some f => s.ringFlume f
    | none => s
  | 3 => s.hostq t
  | _ => s

/-- R advances by one (R150, R151). -/
def State.lockAdvance (s : State) (r : Fin 4) (l : Nat) : State :=
  s.setRegFld (lockA r l + 4) 31 16 (s.lockR r l + 1)

/-- A skip marker at the lock's head advances it, one behind it takes a hold entry, one without a free entry waits (R154). -/
def State.placeSkip (s : State) (r : Fin 4) (l n : Nat) : State :=
  if s.lockR r l = n then s.lockAdvance r l
  else if s.holdFree r l then s.takeHold r { lock := BitVec.ofNat 8 l, seq := BitVec.ofNat 16 n, arg := 0 }
  else s.modDpt r fun d => { d with skips := d.skips ++ [(BitVec.ofNat 8 l, BitVec.ofNat 16 n)] }

/-- The skip markers that wait are tried again, in order, n times over (R154). -/
def State.placeSkipsN (s : State) (r : Fin 4) : Nat → State
  | 0 => s
  | n + 1 =>
    let q := s.dpts[r].skips
    (q.foldl (fun t m => t.placeSkip r m.1.toNat m.2.toNat) (s.modDpt r fun d => { d with skips := [] })).placeSkipsN r n

/-- The skip markers that wait are tried again, as often as one of them can let another go on (R154). -/
def State.placeSkips (s : State) (r : Fin 4) : State := s.placeSkipsN r s.dpts[r].skips.length

/-- A release with action NONE made for a thread that was killed or exited (R154): counted and reported. -/
def State.skipMarker (s : State) (r : Fin 4) (l n : Nat) : State :=
  let s := s.countUp (dptA r 0xB8)
  let s := (s.lockInfo r l n).raise (dptEvent r 3)
  (s.placeSkip r l n).placeSkips r

/-- Each valid open entry of a thread is released as a skip marker (R148, R134). -/
def State.skipOpen (s : State) (r : Fin 4) (t : Nat) : State :=
  [36, 40].foldl (fun u off =>
    let e := u.tcb r t off
    if bit e 24 then (u.setTcb r t off 0).skipMarker r (fld e 23 16) (fld e 15 0) else u) s

/-- The result of a lock op in the core's DPT_SELF_RESULT (R157). -/
def State.lockResult (s : State) (x : Fin 192) (seq status : Nat) : State :=
  s.modCore x fun c => { c with result := BitVec.ofNat 32 (seq % 65536 + status * 65536) }

/-- A lock op refused with the lock-error event (R149, R150). -/
def State.lockError (s : State) (r : Fin 4) (l n : Nat) : State := (s.lockInfo r l n).raise (dptEvent r 5)

/-- LOCK_ENTER by thread t on core x (R149). The rule gives its refusals no order: the model tests LOCK_OFF, LOCK_FULL, TCB_FULL, so that
LOCK_FULL is given where TCB_FULL holds too (DESIGN CHOICE, log entry 118). -/
def State.lockEnter (s : State) (r : Fin 4) (x : Fin 192) (t l : Nat) : State :=
  let e := s.lockE r l
  let o0 := bit (s.tcb r t 36) 24
  let o1 := bit (s.tcb r t 40) 24
  if !s.lockOn r l then (s.lockError r l e).lockResult x 0 8
  else if s.lockN r l = s.lockWindow r l then s.lockResult x 0 2
  else if o0 ∧ o1 then (s.lockError r l e).lockResult x 0 3
  else
    let s := s.setTcb r t (if o0 then 40 else 36) (BitVec.ofNat 32 (e + l * 2 ^ 16 + 2 ^ 24))
    (s.setRegFld (lockA r l + 4) 15 0 (e + 1)).lockResult x e 0

/-- The open entry of a thread that holds (l, n) (R150). -/
def State.openEntry (s : State) (r : Fin 4) (t l n : Nat) : Option Nat :=
  [36, 40].find? fun off =>
    let e := s.tcb r t off
    bit e 24 && decide (fld e 23 16 = l) && decide (fld e 15 0 = n)

/-- LOCK_RELEASE of sequence number n on lock l by thread t on core x (R150, R153): the checks in order, then the action
or a hold entry. Where it is refused, DPT_SELF_RESULT holds the number asked for (DESIGN CHOICE, log entry 119). -/
def State.lockRelease (s : State) (r : Fin 4) (x : Fin 192) (t l n : Nat) : State :=
  let arg := s.cores[x].relArg
  let d := (n + 65536 - s.lockR r l) % 65536
  if !s.lockOn r l then (s.lockError r l n).lockResult x n 8
  else match s.openEntry r t l n with
  | none => (s.lockError r l n).lockResult x n 7
  | some off =>
    if !relArgOk arg then (s.lockError r l n).lockResult x n 9
    else if s.lockN r l ≤ d then (s.lockError r l n).lockResult x n 5
    else if s.dpts[r].holds.any (fun h => decide (h.lock.toNat = l) && decide (h.seq.toNat = n)) then
      (s.lockError r l n).lockResult x n 6
    else if d ≠ 0 ∧ !s.holdFree r l then (s.raise (dptEvent r 4)).lockResult x n 4
    else
      let s := s.setTcb r t off 0
      if d = 0 then (((s.relAction r arg).lockAdvance r l).placeSkips r).lockResult x n 0
      else (s.takeHold r { lock := BitVec.ofNat 8 l, seq := BitVec.ofNat 16 n, arg := arg }).lockResult x n 1

/-- The hold entry of a lock that holds R. -/
def State.headHold (s : State) (r : Fin 4) (l : Nat) : Option Hold :=
  s.dpts[r].holds.find? fun h => decide (h.lock.toNat = l) && decide (h.seq.toNat = s.lockR r l)

/-- The hold entry that holds R is performed and freed, and R advances (R151). -/
def State.performHeld (s : State) (r : Fin 4) (l : Nat) : State :=
  match s.headHold r l with
  | none => s
  | some h =>
    let s := s.modDpt r fun d => { d with
      holds := d.holds.filter (fun k => !(decide (k.lock = h.lock) && decide (k.seq = h.seq))) }
    ((s.relAction r h.arg).lockAdvance r l).placeSkips r

/-- A write to DPT_LOCKl_CFG (R152). -/
def State.lockCfgWrite (s : State) (r : Fin 4) (l : Nat) (v : Word) : State :=
  if s.lockOn r l then
    if bit v 31 then s
    else if s.lockN r l ≠ 0 ∨ s.holdsOf r l ≠ 0 then s.setRegBit (dptA r 0x50) 2 true
    else s.setRegBit (lockA r l) 31 false
  else s.setReg (lockA r l) (v &&& 0x81FFFFFF)

/-- A write to DPT_LOCKl_SEQ: while EN is 0 it sets E and R (R159). -/
def State.lockSeqWrite (s : State) (r : Fin 4) (l : Nat) (v : Word) : State :=
  if s.lockOn r l then s else s.setReg (lockA r l + 4) (BitVec.ofNat 32 (fld v 15 0 * 65537))

/-! Commands -/

/-- HELD_RELEASE_PERFORM of lock l of dispatcher r (R151). -/
def execHeldReleasePerform (r : Fin 4) (l : BitVec 8) (s : State) : Out :=
  act s (s.rinfOn r.val = true ∧ (s.headHold r l.toNat).isSome = true) fun s => s.performHeld r l.toNat

end Sys2Proof.Machine
end

