-- ==== Sys2Proof/Machine/Dispatcher.lean ====
section
/-! DEFINITION. Threads of a dispatcher (06_dispatcher.md R129 to R148, R155 to R160): commands, wait ops, ready and delay lists,
dispatch, deadlines, faults and kills. -/

namespace Sys2Proof.Machine

/-! Order of the ready lists (R138) -/

/-- Deadline of a thread, 48 bits. -/
def State.tDeadline (s : State) (r : Fin 4) (t : Nat) : Nat := (s.tcb r t 24).toNat + 2 ^ 32 * fld (s.tcb r t 28) 15 0

/-- Deadline a is earlier than deadline b (R138). -/
def dlEarlier (a b : Nat) : Bool := decide (2 ^ 47 ≤ (a + 2 ^ 48 - b) % 2 ^ 48)

/-- Thread a stands before thread b, whatever the order in which they became READY (R138). -/
def State.tBefore (s : State) (r : Fin 4) (a b : Nat) : Bool :=
  let la := fld (s.tcb r a 0) 13 8
  let lb := fld (s.tcb r b 0) 13 8
  let da := bit (s.tcb r a 0) 22
  let db := bit (s.tcb r b 0) 22
  decide (la < lb) || (la = lb && ((da && !db) || (da && db && dlEarlier (s.tDeadline r a) (s.tDeadline r b))))

/-- A thread put into an ordered list after every thread it does not stand before. -/
def State.insertReady (s : State) (r : Fin 4) (t : Nat) : List Nat → List Nat
  | [] => [t]
  | u :: us => if s.tBefore r t u then t :: u :: us else u :: s.insertReady r t us

/-- READY threads in the order dispatch considers them (R138). -/
def State.readyOrder (s : State) (r : Fin 4) : List Nat :=
  s.dpts[r].ready.foldl (fun l t => s.insertReady r t.toNat l) []

/-! Cores (R139) -/

/-- Core c of the range is in the thread's affinity. -/
def State.tAffine (s : State) (r : Fin 4) (t c : Nat) : Bool :=
  if c < 32 then bit (s.tcb r t 16) c else decide (c < 48) && bit (s.tcb r t 20) (c - 32)

/-- Core c's bit of DPT_CORE_EN. -/
def State.coreEn (s : State) (r : Fin 4) (c : Nat) : Bool :=
  if c < 32 then s.regBit (dptA r 0x10) c else s.regBit (dptA r 0x14) (c - 32)

/-- The device core. -/
def dev (r : Fin 4) (c : Fin 48) : Fin 192 := ⟨48 * r.val + c.val, by omega⟩

/-- Number of a core within its range. -/
def inRange (x : Fin 192) : Fin 48 := ⟨x.val % 48, by omega⟩

/-- The core is idle: no thread in its foreground bank. -/
def Core.isIdle (c : Core) : Bool := decide (c.run = .idle) && c.fgT.isNone

/-- Core c is eligible, idle and in the thread's affinity. -/
def State.idleFor (s : State) (r : Fin 4) (t : Nat) (c : Fin 48) : Bool :=
  s.coreEn r c.val && s.tAffine r t c.val && s.cores[dev r c].isIdle

/-- Rank of a core for a thread: HOME ridge, then ridges in RUN, DOZE and SLEEP (R139); an OFF ridge has none. -/
def State.coreRank (s : State) (r : Fin 4) (t : Nat) (c : Fin 48) : Option Nat :=
  let st := s.dom (6 * r.val + c.val / 8)
  if st = 4 then none
  else if fld (s.tcb r t 0) 26 24 = c.val / 8 then some 0
  else some (1 + st)

/-- The core whose ridge a READY thread waits for still stands ready for it (R139). -/
def State.waitsFor (s : State) (r : Fin 4) (t : Nat) : Bool :=
  (List.finRange 48).any fun c => decide ((t, c.val) ∈ s.dpts[r].wakePending) && s.idleFor r t c

/-- The idle core the dispatcher chooses for a thread: least rank, then least number; a thread that waits for a ridge goes only to a core
in RUN that is its chosen one or has become idle since (R139). -/
def State.chooseCore (s : State) (r : Fin 4) (t : Nat) (waits : Bool) : Option (Fin 48) :=
  let cs := (List.finRange 48).filter fun c =>
    s.idleFor r t c && (s.coreRank r t c).isSome && !s.voted (6 * r.val + c.val / 8) 1 &&
      (!waits || (decide (s.dom (6 * r.val + c.val / 8) = 0) && decide ((t, c.val) ∉ s.dpts[r].wakeIdle)))
  cs.foldl (fun b c => match b with
    | none => some c
    | some d => if (s.coreRank r t c).getD 9 < (s.coreRank r t d).getD 9 then some c else b) none

/-! Region sets (R143) -/

/-- Region i of set n of the dispatcher. -/
def State.rset (s : State) (r : Fin 4) (n i : Nat) : Region :=
  let a := dptA r (0x1000 + 0x200 * n + 0x20 * i)
  { base := BitVec.ofNat 40 (s.reg64 a), lim := BitVec.ofNat 40 (s.reg64 (a + 8)), attr := (s.reg (a + 16)).setWidth 7 }

/-- The region set applied at the bank exchange; set 15 leaves the regions unchanged (R143). -/
def State.applyRset (s : State) (r : Fin 4) (x : Fin 192) (n : Nat) : State :=
  if n = 15 then s
  else
    let v : Vector Region 16 := Vector.ofFn fun i => s.rset r n i.val
    s.modCore x fun c => { c with mpu := v, mpuP1 := v, mpuP2 := v, mpuF := v, mpuT := v }

/-! Bank exchange (R89, R134) -/

/-- The shadow bank of a core emptied: its thread is no longer PRELOADED (R141). -/
def State.emptyShadow (s : State) (r : Fin 4) (x : Fin 192) : State :=
  match s.cores[x].shT with
  | none => s
  | some t => (s.setTcbFld r t.toNat 0 4 4 0).modCore x fun c => { c with shT := none }

/-! Kills and faults (R147, R148) -/

/-- A kill with its LAST_END code (R148). -/
def State.kill (s : State) (r : Fin 4) (t code : Nat) : State :=
  let s := match s.fgCore r t with
    | some x =>
      if s.tState r t = 2 then s.modCore x fun c => { c with killReq := true, discard := true }
      else s.modCore x fun c => { c with discard := true }
    | none => s
  let s := match s.shCore r t with
    | some x => s.emptyShadow r x
    | none => s
  let s := (s.dropLists r t).skipOpen r t
  let s := (s.setTcb r t 4 0).setTcbFld r t 0 22 22 0
  let s := (s.setTState r t 0).setTcbFld r t 0 4 3 0
  let s := (s.setTcbFld r t 44 2 0 code).countUp (dptA r 0xAC)
  s.raise (dptEvent r 2)

/-- The thread becomes FAULTED, and is killed where FAULT_KILL is 1 (R147). -/
def State.faultThread (s : State) (r : Fin 4) (t : Nat) : State :=
  let s := s.dropLists r t
  let s := (s.setTState r t 5).setTcbFld r t 0 4 3 0
  let s := (s.setTcbFld r t 0 22 22 0).raise (dptEvent r 1)
  if bit (s.tcb r t 0) 23 then s.kill r t 4 else s

/-! Frames in the context store (R128, R129, R132) -/

/-- Codewords of a thread's frames, in the order they are moved (R142). -/
def State.frameCws (s : State) (r : Fin 4) (t : Nat) : List Nat :=
  ctxCws r.val (scalarOff t) 0x200 ++ (match s.tVframe r t with
    | some f => ctxCws r.val (vectorOff f) 0x800
    | none => [])

/-- A bank saved into its thread's frames, which are written whole (R132, 10_memory_protection.md R241). -/
def State.saveThread (s : State) (r : Fin 4) (t : Nat) (b : Bank) : State :=
  (s.saveFrames r.val t (s.tVframe r t) b).freshCtx (s.frameCws r t)

/-- A thread's frames read for a load: the state after, and the bank as read, none where a codeword failed (R129). -/
def State.readFrames (s : State) (r : Fin 4) (t : Nat) : State × Option Bank :=
  let q := s.readCtx r.val (s.frameCws r t)
  (q.1, q.2.map fun v => v.loadFrames r.val t (s.tVframe r t))

/-! The exchange (R89, R134) -/

/-- The thread in the shadow bank becomes RUNNING in the foreground (R134, R141, R143). -/
def State.enterThread (s : State) (r : Fin 4) (x : Fin 192) (t : Nat) : State :=
  let cfg := s.tcb r t 0
  let set := s.cores[x].shSet.toNat
  let s := s.dropLists r t
  let s := (s.setTState r t 2).setTcbFld r t 0 4 3 0
  let s := s.setTcbFld r t 44 21 16 (inRange x).val
  let s := s.modCore x fun c =>
    let c := c.exchange
    { c with
      fg := { c.fg with status := setBit c.fg.status 0 (bit cfg 5) }
      run := .running, fgT := some (BitVec.ofNat 10 t), shT := none
      switchReq := false, killReq := false, attnReq := false, discard := false }
  let s := s.modDpt r fun d => { d with wakeIdle := d.wakeIdle.filter fun p => decide (p.2 ≠ (inRange x).val) }
  (s.applyRset r x set).countUp (dptA r 0xA0)

/-- The outgoing bank saved; its thread is READY again where it was preempted (R134), or FAULTED, if RUNNING or READY, where the core stands
on a double fault (R134, R147). -/
def State.saveOut (s : State) (r : Fin 4) (x : Fin 192) : State :=
  match s.cores[x].fgT with
  | none => s
  | some t =>
    if s.cores[x].discard then s
    else
      let s := s.saveThread r t.toNat s.cores[x].drain.fg
      if s.cores[x].run = .faulted ∧ (s.tState r t.toNat = 1 ∨ s.tState r t.toNat = 2) then s.faultThread r t.toNat
      else if s.tState r t.toNat = 2 then s.makeReady r t.toNat else s

/-- The core exchanges banks: the outgoing bank is saved unless discarded, and the shadow bank's thread runs; with none, or
with dispatch disabled, the core stops idle (R89, R90, R134, R159). -/
def State.switchBanks (s : State) (x : Fin 192) : State :=
  let r := coreRange x
  let s := s.saveOut r x
  let s := s.modCore x fun c => { c with fgT := none }
  let s := if s.regBit (dptA r 4) 0 then s else s.emptyShadow r x
  match s.cores[x].shT with
  | some t => s.enterThread r x t.toNat
  | none => s.modCore x fun c =>
      { c.exchange with run := .idle, switchReq := false, killReq := false, attnReq := false, discard := false }

/-- The dispatcher sends SWITCH to the thread's core (R134). -/
def State.release (s : State) (x : Fin 192) (discard : Bool) : State :=
  s.modCore x fun c => { c with switchReq := true, discard := discard }

/-- A bank put into a core's shadow bank as a thread's, its region set staged alongside (R133, R141). -/
def State.holdShadow (s : State) (r : Fin 4) (x : Fin 192) (t : Nat) (b : Bank) : State :=
  let s := s.emptyShadow r x
  let s := match s.shCore r t with
    | some y => s.emptyShadow r y
    | none => s
  let s := s.setTcbFld r t 0 4 4 1
  s.modCore x fun c => { c with
    sh := b, shT := some (BitVec.ofNat 10 t), shSet := BitVec.ofNat 4 (fld (s.tcb r t 0) 31 28) }

/-- A load of frames met an uncorrectable codeword (R129). -/
def State.frameError (s : State) (r : Fin 4) (t : Nat) : State :=
  let s := match s.shCore r t with
    | some x => s.emptyShadow r x
    | none => s
  ((s.setRegBit (dptA r 0x50) 1 true).raise (dptEvent r 7)).faultThread r t

/-- A thread's frames are loaded into a core's shadow bank and `next` follows; where a codeword fails, the thread becomes FAULTED instead
(R129, R141). -/
def State.loadShadow (s : State) (r : Fin 4) (x : Fin 192) (t : Nat) (next : State → State) : State :=
  match s.readFrames r t with
  | (s, some b) => next (s.holdShadow r x t b)
  | (s, none) => s.frameError r t

/-! Dispatch (R139 to R141) -/

/-- The thread stands in a bank that a core is about to exchange: its foreground, or its shadow with SWITCH or KILL sent (R89, R140). -/
def State.inExchange (s : State) (r : Fin 4) (t : Nat) : Bool :=
  (s.fgCore r t).isSome || (match s.shCore r t with
    | some x => s.cores[x].switchReq || s.cores[x].killReq
    | none => false)

/-- The READY thread and idle core of the next dispatch. A thread whose registers still stand in a foreground bank waits for its save, and
one whose core has been sent SWITCH enters there. A dispatcher that has accepted a PREPARE dispatches nothing for it (R355). -/
def State.nextDispatch (s : State) (r : Fin 4) : Option (Nat × Fin 48) :=
  if s.voted (52 + r.val) 1 then none
  else (s.readyOrder r).findSome? fun t =>
    if s.inExchange r t then none
    else (s.chooseCore r t (s.waitsFor r t)).map fun c => (t, c)

/-- A READY thread waits for the ridge of a core it has chosen; the cores idle for it now do not become idle later (R139). -/
def State.awaitRidge (s : State) (r : Fin 4) (t : Nat) (c : Fin 48) : State :=
  let idle := (List.finRange 48).filter fun k => decide (k ≠ c) && s.idleFor r t k
  s.modDpt r fun q => { q with
    wakePending := q.wakePending.filter (fun p => decide (p.1 ≠ t)) ++ [(t, c.val)]
    wakeIdle := q.wakeIdle.filter (fun p => decide (p.1 ≠ t)) ++ idle.map fun k => (t, k.val) }

/-- The first READY thread sent to an idle core; a core in DOZE or SLEEP is woken first (R139). -/
def State.dispatch (s : State) (r : Fin 4) : State :=
  match s.nextDispatch r with
  | none => s
  | some (t, c) =>
    let d := 6 * r.val + c.val / 8
    if s.dom d ≠ 0 then (s.awaitRidge r t c).wakeReq d
    else s.loadShadow r (dev r c) t fun u => u.enterThread r (dev r c) t

/-- Level of the thread a core runs. -/
def State.runLevel (s : State) (r : Fin 4) (x : Fin 192) : Option (Nat × Nat) :=
  s.cores[x].fgT.bind fun t =>
    if s.tState r t.toNat = 2 then some (t.toNat, fld (s.tcb r t.toNat 0) 13 8) else none

/-- Of two running threads, a is preempted rather than b: greater level, then later deadline (R140). -/
def State.rather (s : State) (r : Fin 4) (a b : Nat × Nat) : Bool :=
  if a.2 ≠ b.2 then decide (b.2 < a.2)
  else
    let da := bit (s.tcb r a.1 0) 22
    let db := bit (s.tcb r b.1 0) 22
    if !da then true else if !db then false else !dlEarlier (s.tDeadline r a.1) (s.tDeadline r b.1)

/-- The core whose thread a READY thread preempts: the highest core number last (R140). -/
def State.victim (s : State) (r : Fin 4) (t : Nat) : Option (Fin 48) :=
  let p := fld (s.tcb r t 0) 13 8
  let cs := (List.finRange 48).filter fun c =>
    s.coreEn r c.val && s.tAffine r t c.val && !s.cores[dev r c].switchReq &&
      (match s.runLevel r (dev r c) with
       | some (_, l) => decide (p < l)
       | none => false)
  cs.foldl (fun b c => match b, s.runLevel r (dev r c) with
    | none, _ => some c
    | some d, some k => (match s.runLevel r (dev r d) with
        | some m => if s.rather r k m then some c else some d
        | none => some c)
    | some d, none => some d) none

/-- The READY thread and core of the next preemption: no eligible core is idle for the thread (R140). -/
def State.nextPreempt (s : State) (r : Fin 4) : Option (Nat × Fin 48) :=
  (s.readyOrder r).findSome? fun t =>
    if s.inExchange r t || (List.finRange 48).any (fun c => s.idleFor r t c && s.dom (6 * r.val + c.val / 8) ≠ 4) then none
    else (s.victim r t).map fun c => (t, c)

/-- A READY thread preempts a running one: its frames are in the shadow bank and SWITCH is sent (R140, R142). -/
def State.preempt (s : State) (r : Fin 4) : State :=
  match s.nextPreempt r with
  | none => s
  | some (t, c) =>
    let x := dev r c
    let go (u : State) : State := (u.release x false).countUp (dptA r 0xA4)
    if s.cores[x].shT = some (BitVec.ofNat 10 t) then go s else s.loadShadow r x t go

/-- The thread that would next take a running core: the first READY thread that would preempt, else the first whose
affinity includes the core (R141). -/
def State.shadowChoice (s : State) (r : Fin 4) (c : Fin 48) : Option Nat :=
  let x := dev r c
  let cand := (s.readyOrder r).filter fun t =>
    s.tAffine r t c.val && (s.fgCore r t).isNone &&
      (match s.shCore r t with
       | some y => decide (y = x)
       | none => true)
  match s.runLevel r x with
  | none => cand.head?
  | some (_, l) =>
    match cand.find? (fun t => s.regBit (dptA r 4) 1 && decide (fld (s.tcb r t 0) 13 8 < l)) with
    | some t => some t
    | none => cand.head?

/-! Waits (R134, R136, R144) -/

/-- Tick w is due at tick n (R144). -/
def tickDue (n w : Word) : Bool := decide ((n - w).toNat < 2 ^ 31)

/-- An entry of the delay list put after every entry that is not later (R144). -/
def insertDelay (w : Word) (t : BitVec 10) : List (Word × BitVec 10) → List (Word × BitVec 10)
  | [] => [(w, t)]
  | e :: es => if 2 ^ 31 ≤ (w - e.1).toNat then (w, t) :: e :: es else e :: insertDelay w t es

/-- The thread enters the delay list. -/
def State.enterDelay (s : State) (r : Fin 4) (t : Nat) (w : Word) : State :=
  (s.setTcb r t 32 w).modDpt r fun d => { d with delay := insertDelay w (BitVec.ofNat 10 t) d.delay }

/-- WAIT and WAIT_UNTIL (R134, R136): satisfied at once, timed out at once, or the core is released. -/
def State.opWait (s : State) (r : Fin 4) (x : Fin 192) (t : Nat) (all timed : Bool) : State :=
  let s := s.setTcbFld r t 0 6 6 all.toNat
  let w := s.tcb r t 48
  if waitMet (s.tcb r t 4) (s.tcb r t 8) all then (s.consume r t).setWake r t 0
  else if timed ∧ tickDue s.dpts[r].tick w then s.setWake r t 6
  else
    let s := (s.setTState r t 3).setTcbFld r t 0 3 3 timed.toNat
    let s := if timed then s.enterDelay r t w else s
    s.release x false

/-- SLEEP_UNTIL (R134, R144). -/
def State.opSleep (s : State) (r : Fin 4) (x : Fin 192) (t : Nat) : State :=
  let w := s.tcb r t 48
  if tickDue s.dpts[r].tick w then s.setWake r t 5
  else (((s.setTState r t 4).setTcbFld r t 0 3 3 0).enterDelay r t w).release x false

/-- YIELD (R134, R138): re-entered after its equals; the thread keeps the core if it is still first for it. -/
def State.opYield (s : State) (r : Fin 4) (x : Fin 192) (t : Nat) : State :=
  let s := s.makeReady r t
  if (s.readyOrder r).find? (fun u => s.tAffine r u (inRange x).val) = some t then
    (s.dropLists r t).setTState r t 2
  else s.release x false

/-- EXIT (R134, R154). -/
def State.opExit (s : State) (r : Fin 4) (x : Fin 192) (t : Nat) : State :=
  let s := (s.setTcbFld r t 0 22 22 0).skipOpen r t
  let s := (s.dropLists r t).setTState r t 0
  (s.setTcbFld r t 44 2 0 1).release x true

/-- DONE disarms the deadline first (R146, R157). -/
def State.opDone (s : State) (r : Fin 4) (t : Nat) : State := s.setTcbFld r t 0 22 22 0

/-- The thread a core of the range runs, for its self port (R157): only a RUNNING thread is acted on (R134). -/
def State.selfThread (s : State) (x : Fin 192) : Option Nat :=
  s.cores[x].fgT.bind fun t => if s.tState (coreRange x) t.toNat = 2 then some t.toNat else none

/-- A store of core x to DPT_SELF_OP (R157). -/
def State.selfOp (s : State) (x : Fin 192) (v : Word) : State :=
  let r := coreRange x
  match s.selfThread x with
  | none => s
  | some t =>
    let op := fld v 3 0
    if op = 0 ∨ 5 < op then s
    else
      let s := if bit v 5 then s.opDone r t else s
      if op = 1 then s.opWait r x t (bit v 4) false
      else if op = 2 then s.opWait r x t (bit v 4) true
      else if op = 3 then s.opSleep r x t
      else if op = 4 then s.opYield r x t
      else s.opExit r x t

/-- A store to DPT_SELF_DL_HI: the deadline is loaded and DL_EN set to EN (R157). -/
def State.selfDeadline (s : State) (r : Fin 4) (t : Nat) (v : Word) : State :=
  let s := s.setTcb r t 24 (s.tcb r t 52)
  (s.setTcbFld r t 28 15 0 (fld v 15 0)).setTcbFld r t 0 22 22 (bit v 16).toNat

/-- A store of core x to its self port at offset o (R157). -/
def State.selfWrite (s : State) (x : Fin 192) (o : Nat) (v : Word) : State :=
  let r := coreRange x
  if o = 0x7024 then s.modCore x fun c => { c with relArg := v &&& 0x1FFFF }
  else if o = 0x7010 then s.selfOp x v
  else match s.cores[x].fgT with
  | none => s
  | some t =>
    let t := t.toNat
    if o = 0x7004 then s.setTcb r t 4 (s.tcb r t 4 &&& ~~~v)
    else if o = 0x7008 then s.setTcb r t 8 v
    else if o = 0x700C then s.setTcb r t 12 v
    else if o = 0x7014 then s.setTcb r t 48 v
    else if o = 0x7018 then s.setTcb r t 52 v
    else if o = 0x701C then s.selfDeadline r t v
    else if o = 0x7020 then s.lockEnter r x t (fld v 7 0)
    else if o = 0x7028 then s.lockRelease r x t (fld v 23 16) (fld v 15 0)
    else if o = 0x7038 then s.setTcbFld r t 0 13 8 (fld v 5 0)
    else s

/-- A load of core x from its self port at offset o (R157). -/
def State.selfRead (s : State) (x : Fin 192) (o : Nat) : Word :=
  let r := coreRange x
  if o = 0x7024 then s.cores[x].relArg
  else if o = 0x702C then s.cores[x].result
  else match s.cores[x].fgT with
  | none => if o = 0x7000 then BitVec.ofNat 32 ((inRange x).val * 2 ^ 16) else 0
  | some t =>
    let t := t.toNat
    if o = 0x7000 then BitVec.ofNat 32 (t + (inRange x).val * 2 ^ 16)
    else if o = 0x7004 then s.tcb r t 4
    else if o = 0x7008 then s.tcb r t 8
    else if o = 0x700C then s.tcb r t 12
    else if o = 0x7014 then s.tcb r t 48
    else if o = 0x7018 then s.tcb r t 52
    else if o = 0x701C then BitVec.ofNat 32 (fld (s.tcb r t 28) 15 0 + 2 ^ 16 * fld (s.tcb r t 0) 22 22)
    else if o = 0x7030 then sget (fun _ => 0) s.dpts[r].wake t
    else if o = 0x7034 then sget (fun _ => 0) s.dpts[r].consumed t
    else if o = 0x7038 then BitVec.ofNat 32 (fld (s.tcb r t 0) 13 8)
    else 0

/-! TCB commands (R131, R134, R160) -/

/-- Another TCB that is not DORMANT names the vector frame (R133). -/
def State.frameTaken (s : State) (r : Fin 4) (t : Nat) : Bool :=
  match s.tVframe r t with
  | none => false
  | some f => (List.range 1024).any fun u =>
      decide (u ≠ t) && decide (s.tState r u ≠ 0) && decide (s.tVframe r u = some f)

/-- A TCB command refused (R160). -/
def State.cmdRefused (s : State) (r : Fin 4) (code : Nat) : State :=
  (s.setRegFld (dptA r 0x2C) 2 0 code).setRegBit (dptA r 0x50) 3 true

/-- START (R131, R134). -/
def State.tcbStart (s : State) (r : Fin 4) (t : Nat) : State :=
  if s.tState r t ≠ 0 then s.cmdRefused r 1
  else if s.tcb r t 16 = 0 ∧ fld (s.tcb r t 20) 15 0 = 0 then s.cmdRefused r 2
  else if s.frameTaken r t then s.cmdRefused r 3
  else
    let s := s.setTcb r t 0 (s.tcb r t 0 &&& ~~~(0x5F : Word))
    let s := [32, 36, 40, 48, 52].foldl (fun u off => u.setTcb r t off 0) s
    let s := s.setTcbFld r t 44 27 24 (fld (s.tcb r t 44) 27 24 + 1)
    let s := ((s.setTcbFld r t 44 2 0 0).makeReady r t).setWake r t 3
    s.setRegFld (dptA r 0x2C) 2 0 0

/-- KILL; of a DORMANT TCB it reports OK (R148, R160). -/
def State.tcbKill (s : State) (r : Fin 4) (t : Nat) : State :=
  let s := if s.tState r t = 0 then s else s.kill r t 2
  s.setRegFld (dptA r 0x2C) 2 0 0

/-- RESTART: the thread resumes from its saved frames (R134). -/
def State.tcbRestart (s : State) (r : Fin 4) (t : Nat) : State :=
  if s.tState r t ≠ 5 then s.cmdRefused r 1
  else (s.makeReady r t).setRegFld (dptA r 0x2C) 2 0 0

/-- A write to DPT_TCB_CMD (R160); while the context store is being cleared it reports WRONG_STATE (R360). -/
def State.tcbCmd (s : State) (r : Fin 4) (v : Word) : State :=
  let t := fld v 9 0
  let go (f : State) : State := if 52 + r.val ∈ s.slc.clearing then s.cmdRefused r 1 else f
  match fld v 13 12 with
  | 1 => go (s.tcbStart r t)
  | 2 => go (s.tcbKill r t)
  | 3 => go (s.tcbRestart r t)
  | _ => s

/-- The store word belongs to a TCB in use, its scalar frame, or a vector frame such a TCB names (R130). -/
def State.csBusy (s : State) (r : Fin 4) (a : Nat) : Bool :=
  let used (t : Nat) : Bool := decide (s.tState r t ≠ 0 ∧ s.tState r t ≠ 5)
  if a < 0x20000 then used (a / 0x80)
  else if a < 0xA0000 then used ((a - 0x20000) / 0x200)
  else (List.range 1024).any fun t => used t && decide (s.tVframe r t = some ((a - 0xA0000) / 0x800))

/-- Bits of the word at an offset of the context store that are not reserved (R8, R131, R132). -/
def ctxMask (a : Nat) : Word :=
  if a < 0x20000 then
    let o := a % 0x80
    if o = 0 then 0xF7FFFFFF else if o = 20 then 0x03FFFFFF else if o = 36 ∨ o = 40 then 0x01FFFFFF
    else if o = 44 then 0x0F3F0007 else if o < 56 then 0xFFFFFFFF else 0
  else if a < 0xA0000 ∧ 0x1D4 ≤ (a - 0x20000) % 0x200 then 0
  else 0xFFFFFFFF

/-- The codeword at DPT_CS_ADDR read: the state after, and a copy that holds it as read, none where it failed (R129, R130). -/
def State.csCell (s : State) (r : Fin 4) : State × Option State := s.readCtx r.val [ctxCw r.val (s.reg (dptA r 0x20)).toNat]

/-- A write to DPT_CS_DATA (R130): the word merges into its codeword, which stays as it is where it is poisoned or uncorrectable
(10_memory_protection.md R241; log entry 117). -/
def State.csWrite (s : State) (r : Fin 4) (v : Word) : State :=
  let a := (s.reg (dptA r 0x20)).toNat
  let t :=
    if s.csBusy r a then (s.setRegBit (dptA r 0x50) 0 true).raise (dptEvent r 8)
    else match s.csCell r with
      | (t, some u) => ({ t with ctx := u.ctx }.setCwError (ctxCw r.val a) 0).setCtxW r.val a (v &&& ctxMask a)
      | (t, none) => t
  t.setReg (dptA r 0x20) (BitVec.ofNat 32 ((a + 4) % 0x200000))

/-- A write to DPT_CS_DATA ends as a bus error: its codeword cannot be merged (10_memory_protection.md R243, R246). -/
def State.csFails (s : State) (r : Fin 4) : Bool := !s.csBusy r (s.reg (dptA r 0x20)).toNat && (s.csCell r).2.isNone

/-- A write to DPT_CORE_EN_LO or _HI: a core whose bit is cleared loses its shadow bank and its thread is preempted (R160), which
DPT_STAT_PREEMPT does not count: it counts the preemptions of R140 (DESIGN CHOICE, log entry 120). -/
def State.coreEnWrite (s : State) (r : Fin 4) (hi : Bool) (v : Word) : State :=
  let old := (List.finRange 48).filter fun c => s.coreEn r c.val
  let s := s.setReg (dptA r (if hi then 0x14 else 0x10)) (if hi then v &&& 0xFFFF else v)
  (old.filter (fun c => !s.coreEn r c.val)).foldl (fun u c =>
    let u := u.emptyShadow r (dev r c)
    if u.cores[dev r c].fgT.isSome then u.release (dev r c) u.cores[dev r c].discard else u) s

/-! Ticks (R144, R145) -/

/-- A due entry leaves the delay list and its thread wakes (R134, R144). -/
def State.wakeDelayed (s : State) (r : Fin 4) (t : Nat) (late : Bool) : State :=
  let cause := if s.tState r t = 4 then 1 else 2
  (s.makeReady r t).setWake r t (BitVec.ofNat 32 (cause + if late then 4 else 0))

/-- Entries of the delay list due at the tick delivered. -/
def State.dueEntries (s : State) (r : Fin 4) : List (Word × BitVec 10) :=
  s.dpts[r].delay.filter fun e => tickDue s.dpts[r].tick e.1

/-- DPT_TICK records the tick delivered once no entry due at it is in the list (R144). -/
def State.recordTick (s : State) (r : Fin 4) : State :=
  if (s.dueEntries r).isEmpty then s.setReg (dptA r 0x40) s.dpts[r].tick else s

/-- A tick delivered to dispatcher r (R144). -/
def State.deliverTick (s : State) (r : Fin 4) (n : Word) : State :=
  if s.rinfOn r.val then ((s.recordTick r).modDpt r fun d => { d with tick := n }).recordTick r else s

/-- Ticks first to last jumped over by a step, delivered at once in order (R145): entries they wake carry LATE and are
counted, and each tick that wakes an entry raises the late-wake event once. An entry that an earlier tick had made due leaves before
them, as that tick's (R144). -/
def State.jumpTicks (s : State) (r : Fin 4) (first last : Nat) : State :=
  if s.rinfOn r.val then
    let n := BitVec.ofNat 32 last
    let due := s.dpts[r].delay.filter fun e => tickDue n e.1
    let old (e : Word × BitVec 10) : Bool := tickDue s.dpts[r].tick e.1
    let at_ (e : Word × BitVec 10) : Word := if tickDue (BitVec.ofNat 32 first) e.1 then BitVec.ofNat 32 first else e.1
    let marks := ((due.filter fun e => !old e).map at_).eraseDups
    let s := due.foldl (fun u e =>
      if old e then u.wakeDelayed r e.2.toNat false else (u.wakeDelayed r e.2.toNat true).countUp (dptA r 0xB4)) s
    let s := marks.foldl (fun u _ => u.raise (dptEvent r 6)) s
    (s.modDpt r fun d => { d with tick := n }).recordTick r
  else s

/-! Deadlines (R146) -/

/-- The thread's deadline is missed (R146). -/
def State.missed (s : State) (r : Fin 4) (t : Nat) : Bool :=
  bit (s.tcb r t 0) 22 && decide (s.tState r t ≠ 0 ∧ s.tState r t ≠ 5) &&
    decide (((s.replica (.dpt r)).toNat + 2 ^ 48 - s.tDeadline r t) % 2 ^ 48 < 2 ^ 47)

/-- A deadline miss and its policy (R146). -/
def State.miss (s : State) (r : Fin 4) (t : Nat) : State :=
  let s := s.setTcbFld r t 28 31 16 (min 65535 (fld (s.tcb r t 28) 31 16 + 1))
  let s := (s.countUp (dptA r 0xA8)).setReg (dptA r 0x58) (BitVec.ofNat 32 t)
  let s := s.raise (dptEvent r 0)
  let cfg := s.tcb r t 0
  match fld cfg 21 20 with
  | 0 => s.setTcbFld r t 0 22 22 0
  | 1 =>
    let s := (s.setTcbFld r t 0 22 22 0).setTcbFld r t 0 13 8 (fld cfg 19 14)
    if s.tState r t = 1 then s.modDpt r fun d =>
      { d with ready := d.ready.filter (fun u => decide (u ≠ BitVec.ofNat 10 t)) ++ [BitVec.ofNat 10 t] }
    else s
  | _ => s.kill r t 3

/-! Next-work report (R155) -/

/-- Tick a device time counts as (R156). -/
def State.tickOf (s : State) (t : Nat) : Word := BitVec.ofInt 32 (((t : Int) - s.frameOfs) / (s.tb.div.toNat : Int))

/-- Ticks at which ridge k's waiting threads have work (R155). -/
def State.nextTicks (s : State) (r : Fin 4) (k : Nat) : List Word :=
  let home (t : Nat) : Bool := decide (fld (s.tcb r t 0) 26 24 = k)
  (s.dpts[r].delay.filter (fun e => home e.2.toNat)).map (·.1) ++
    (List.finRange 16).filterMap fun i =>
      let t := s.regFld (dptA r (0x6020 + 0x40 * i.val)) 9 0
      if s.armed (.tp r i) ∧ s.tState r t = 3 ∧ home t then some (s.tickOf (s.target (CmpId.tp r i).base).toNat) else none

/-- The report: 1 NOW, 2 AT and its tick, 0 NONE (R155). -/
def State.nextWork (s : State) (r : Fin 4) (k : Nat) : Nat × Word :=
  let busy := (List.finRange 48).any fun c =>
    decide (c.val / 8 = k) && ((s.cores[dev r c].fgT).isSome || (s.cores[dev r c].shT).isSome)
  if busy || s.dpts[r].wakePending.any (fun p => decide (p.2 / 8 = k)) then (1, 0)
  else match s.nextTicks r k with
  | [] => (0, 0)
  | w :: ws => (2, ws.foldl (fun b u => if 2 ^ 31 ≤ (u - b).toNat then u else b) w)

/-! Registers that show the dispatcher (R159) -/

/-- DPT_COREc_STATE. -/
def State.coreState (s : State) (r : Fin 4) (c : Fin 48) : Word :=
  let k := s.cores[dev r c]
  BitVec.ofNat 32 (((k.fgT.map BitVec.toNat).getD 0) + 2 ^ 10 * k.fgT.isSome.toNat
    + 2 ^ 16 * ((k.shT.map BitVec.toNat).getD 0) + 2 ^ 26 * k.shT.isSome.toNat
    + 2 ^ 27 * (s.coreEn r c.val).toNat
    + 2 ^ 28 * (s.dpts[r].wakePending.any (fun p => decide (p.2 / 8 = c.val / 8))).toNat)

/-- A register of DPT_ that shows the dispatcher's own state. -/
def State.dptView (s : State) (r : Fin 4) (o : Nat) : Option Word :=
  if o = 0x24 then some (s.ctxW r.val (s.reg (dptA r 0x20)).toNat)
  else if o = 0x40 then some (if (s.dueEntries r).isEmpty then s.dpts[r].tick else s.reg (dptA r 0x40))
  else if o = 0x44 then some (BitVec.ofNat 32 s.dpts[r].ready.length)
  else if o = 0x48 then some (BitVec.ofNat 32 s.dpts[r].delay.length)
  else if o = 0x4C then some (setFld (s.reg (dptA r 0x4C)) 9 0 s.dpts[r].holds.length)
  else if 0x60 ≤ o ∧ o < 0x90 ∧ o % 4 = 0 then
    let w := s.nextWork r ((o - 0x60) / 8)
    some (if o % 8 = 0 then BitVec.ofNat 32 w.1 else w.2)
  else if 0x4000 ≤ o ∧ o < 0x5000 ∧ o % 16 = 8 then some (BitVec.ofNat 32 (s.holdsOf r ((o - 0x4000) / 16)))
  else if h : 0x8000 ≤ o ∧ o < 0x8300 ∧ o % 16 = 0 then some (s.coreState r ⟨(o - 0x8000) / 16, by omega⟩)
  else none

/-! Commands -/

/-- THREAD_DISPATCH of dispatcher r (R139); `upset`: an error that struck its context store before the load (R129). -/
def execThreadDispatch (r : Fin 4) (upset : Option (BitVec 16 × BitVec 288)) (s : State) : Out :=
  act s (s.rinfOn r.val = true ∧ s.regBit (dptA r 4) 0 = true) fun s => (s.upsetCtx r.val upset).dispatch r

/-- PREEMPT by dispatcher r (R140). -/
def execPreempt (r : Fin 4) (upset : Option (BitVec 16 × BitVec 288)) (s : State) : Out :=
  act s (s.rinfOn r.val = true ∧ s.regBit (dptA r 4) 0 = true ∧ s.regBit (dptA r 4) 1 = true) fun s => (s.upsetCtx r.val upset).preempt r

/-- SHADOW_PRELOAD of core c of range r (R141). -/
def execShadowPreload (r : Fin 4) (c : Fin 48) (upset : Option (BitVec 16 × BitVec 288)) (s : State) : Out :=
  act s (s.rinfOn r.val = true ∧ s.regBit (dptA r 4) 0 = true ∧ s.coreEn r c.val = true ∧
      s.cores[dev r c].fgT.isSome = true ∧ s.cores[dev r c].switchReq = false) fun s =>
    let s := s.upsetCtx r.val upset
    match s.shadowChoice r c with
    | none => s
    | some t => if s.cores[dev r c].shT = some (BitVec.ofNat 10 t) then s else s.loadShadow r (dev r c) t id

/-- DELAY_ENTRY_DUE: the first due entry of dispatcher r leaves the delay list (R144). -/
def execDelayEntryDue (r : Fin 4) (s : State) : Out :=
  act s (s.rinfOn r.val = true) fun s =>
    match s.dueEntries r with
    | [] => s
    | e :: _ => (s.wakeDelayed r e.2.toNat false).recordTick r

/-- DEADLINE_MISS of thread t of dispatcher r (R146). -/
def execDeadlineMiss (r : Fin 4) (t : BitVec 10) (s : State) : Out :=
  act s (s.rinfOn r.val = true ∧ s.missed r t.toNat = true) fun s => s.miss r t.toNat

/-- THREAD_FAULT: core x, stopped by a double fault, reports its thread: the bank is saved, the thread FAULTED, and the core exchanges banks
(R147). -/
def execThreadFault (x : Fin 192) (s : State) : Out :=
  act s (s.rinfOn (coreRange x).val = true ∧ s.cores[x].run = .faulted ∧ s.cores[x].fgT.isSome = true) fun s => s.switchBanks x

end Sys2Proof.Machine
end

