-- ==== Sys2Proof/Machine/Sluice.lean ====
section
/-! DEFINITION. The sluice controller (15_sluices_power.md): choice of a domain's state, the two-phase entry and its votes, power-off,
wake and exit, clocks, retention, stacks and lane limits; with it the endpoints and flips it asks of the fabric manager
(11_leat_fabric.md R269, R271, R274). -/

namespace Sys2Proof.Machine

/-- Address of an SLC_ register. -/
def slcA (off : Nat) : Nat := Block.slc.base + off

/-- Address of SLC_DOMd_CFG. -/
def domCfg (d : Nat) : Nat := slcA (0x100 + 8 * d)

/-- The state with the controller changed. -/
def State.modSlc (s : State) (f : Slc → Slc) : State := { s with slc := f s.slc }

/-! Classes and states (R345, R346, R349) -/

/-- The class of the domain has the state (R346). -/
def classHas (d x : Nat) : Bool :=
  if d < 24 then decide (x = 0 ∨ x = 1 ∨ x = 2 ∨ x = 4)
  else if d < 52 then decide (x = 0 ∨ x = 4)
  else if d < 56 then decide (x = 0 ∨ x = 3 ∨ x = 4)
  else if d < 60 then decide (x = 0 ∨ x = 1 ∨ x = 4)
  else decide (x = 0 ∨ x = 2)

/-- Range of a domain; a stack is in none. -/
def domRange (d : Nat) : Option Nat :=
  if d < 24 then some (d / 6)
  else if d < 48 then some ((d - 24) / 6)
  else if d < 60 then some (d % 4)
  else none

/-- The domain is not fused off (R348). -/
def State.domPresent (s : State) (d : Nat) : Bool :=
  match domRange d with
  | some r => s.hasRange r
  | none => true

/-- FORCE of a domain; none with NONE (R349, R369: 5 and 6 act as 7). -/
def State.force (s : State) (d : Nat) : Option Nat :=
  let f := s.regFld (domCfg d) 2 0
  if f < 5 then some f else none

/-- MAXDEPTH of a domain. -/
def State.maxDepth (s : State) (d : Nat) : Nat := s.regFld (domCfg d) 6 4

/-- The state the controller wants a domain in: FORCE, else the one it has chosen (R349). -/
def State.want (s : State) (d : Nat) : Nat := (s.force d).getD (sget (fun _ => 0) s.slc.choice d)

/-- The open transaction of a domain. -/
def State.txn (s : State) (d : Nat) : Option SlcTxn := s.slc.txns.find? fun t => decide (t.dom = d)

/-- A domain reaches a state; the laps of its scrubber stand still while its memory is not clocked (R369, 10_memory_protection.md
R248, R249). The core cycle counts of a ridge start at 0 (03_tarn_scalar.md R53). -/
def State.setDom (s : State) (d x : Nat) : State :=
  let k := if d < 24 then some d else if 60 ≤ d then some (24 + (d - 60)) else none
  let s := match k with
    | none => s
    | some k =>
      if s.dom d = 0 ∧ x ≠ 0 then
        let t := s.tb.cycles - sget (fun _ => 0) s.prot.lapStart k
        { s with prot := { s.prot with lapHeld := sset (fun _ => 0) s.prot.lapHeld k t } }
      else if s.dom d ≠ 0 ∧ x = 0 then
        let t := s.tb.cycles - sget (fun _ => 0) s.prot.lapHeld k
        { s with prot := { s.prot with lapStart := sset (fun _ => 0) s.prot.lapStart k t } }
      else s
  let s := if d < 24 ∧ x = 0 ∧ s.dom d ≠ 0 then
      ((List.finRange 192).filter fun y => decide (y.val / 8 = d)).foldl (fun t y => t.modCore y fun c => { c with cycle := 0 }) s
    else s
  (((s.setRegFld (domState d) 2 0 x).setRegFld (domState d) 6 4 x)).setRegBit (domState d) 3 false

/-- SLC_ERR bit i. -/
def State.slcErr (s : State) (i : Nat) : State := s.setRegBit (slcA 0xC) i true

/-- The SLC comparator of a domain: of a ridge, BFA or RINF (R369). -/
def slcCmp (d : Nat) : Option (Fin 32) :=
  if h : d < 24 then some ⟨d, by omega⟩
  else if h : 56 ≤ d ∧ d < 60 then some ⟨24 + (d - 56), by omega⟩
  else if h : 52 ≤ d ∧ d < 56 then some ⟨28 + (d - 52), by omega⟩
  else none

/-- Domain that a comparator wakes (R369). -/
def cmpDomain (i : Fin 32) : Nat := if i.val < 24 then i.val else if i.val < 28 then 56 + (i.val - 24) else 52 + (i.val - 28)

/-- The controller arms a comparator at a time (R350). -/
def State.slcArm (s : State) (i : Fin 32) (t : Int) : State :=
  let s := s.armAt (CmpId.slc i).base (BitVec.ofInt 64 (max 0 t))
  s.modSlc fun c => { c with used := withIn c.used i.val }

/-- The controller no longer uses a comparator. -/
def State.slcDisarm (s : State) (i : Fin 32) : State :=
  if i.val ∈ s.slc.used then
    (s.disarm (CmpId.slc i).base).modSlc fun c => { c with used := without c.used i.val }
  else s

/-! Lane limits (R364, R365) -/

/-- LIMIT of lane j of hub h: that of SLC_HUBh_LIM, or OFF (3) while RFAB h is OFF or being switched off. -/
def State.limitOf (s : State) (h : Fin 4) (j : Nat) : Nat :=
  if s.hasRange h.val = false ∨ s.dom (48 + h.val) = 4 ∨ (s.txn (48 + h.val)).isSome then 3
  else
    let a := slcA (0x500 + 8 * h.val + if j < 16 then 0 else 4)
    s.regFld a (2 * (j % 16) + 1) (2 * (j % 16))

/-- The limits reach the lanes of a hub. -/
def State.applyLimits (s : State) (h : Fin 4) : State :=
  (List.range 24).foldl (fun t j => match hubLane h j with
    | some l => if t.regFld (lnA l 4) 9 8 = t.limitOf h j then t else t.setLimit l (t.limitOf h j)
    | none => t) s

/-- The limits of the hub of an RFAB domain, after a change of its transaction or state. -/
def State.domLimits (s : State) (d : Nat) : State :=
  if 48 ≤ d ∧ d < 52 then s.applyLimits ⟨d % 4, Nat.mod_lt d (by decide)⟩ else s

/-! Writes to SLC_DOMd_CFG (R349, R358) -/

/-- FORCE takes effect: a retry of the old one is dropped, automatic choice starts afresh. -/
def State.applyForce (s : State) (d : Nat) (f : Nat) : State :=
  let s := s.setRegFld (domCfg d) 2 0 f
  let s := s.modSlc fun c => { c with retry := without c.retry d, choice := sset (fun _ => 0) c.choice d 0 }
  match slcCmp d with
  | some i => s.slcDisarm i
  | none => s

/-- A write to SLC_DOMd_CFG. -/
def State.forceWrite (s : State) (d : Nat) (v : Word) : State :=
  let f := fld v 2 0
  let m := fld v 6 4
  if s.domPresent d = false then s.slcErr 2
  else
    let okF : Bool := 5 ≤ f || classHas d f
    let s := if classHas d m then s.setRegFld (domCfg d) 6 4 m else s.slcErr 2
    if okF = false then s.slcErr 2
    else if (s.txn d).isSome then
      s.modSlc fun c => { c with held := c.held.filter (fun p => decide (p.1 ≠ d)) ++ [(d, v)] }
    else if s.regFld (domCfg d) 2 0 = f then s
    else s.applyForce d f

/-- The end of a domain's transaction: a FORCE held meanwhile applies (R358). -/
def State.endTxn (s : State) (d : Nat) : State :=
  let h := s.slc.held.find? fun p => decide (p.1 = d)
  let s := s.modSlc fun c => { c with
    txns := c.txns.filter (fun t => decide (t.dom ≠ d))
    held := c.held.filter (fun p => decide (p.1 ≠ d)) }
  let s := s.setRegBit (domState d) 3 false
  match h with
  | some p => s.applyForce d (fld p.2 2 0)
  | none => s

/-! PREPARE, votes, ABORT and COMMIT (R355 to R358) -/

/-- Voters of a transaction, in the order of the table (R355, R369). -/
def votersOf (d target : Nat) : List Nat :=
  if d < 24 then [1, 2, 3, 4, 5]
  else if d < 52 then [10, 9]
  else if d < 56 then (if target = 3 then [1, 6] else [1, 7, 8])
  else [6]

/-- Ridges of a range in a set of states. -/
def State.ridgesIn (s : State) (r : Nat) (p : Nat → Bool) : Bool := (List.range 6).all fun k => p (s.dom (6 * r + k))

/-- The order in which the domains of a range go off is broken (R355). -/
def State.orderBad (s : State) (d target : Nat) : Bool :=
  let units := s.ridgesIn (d % 4) (fun x => decide (x = 4)) && decide (s.dom (56 + d % 4) = 4)
  if 48 ≤ d ∧ d < 52 then !units || decide (s.dom (52 + d % 4) ≠ 4) || decide (d = 48)
  else if 52 ≤ d ∧ d < 56 ∧ target = 4 then !units
  else false

/-- Vote of the dispatcher on a ridge. -/
def State.ridgeVote (s : State) (n : Fin 24) : Nat :=
  let r := ridgeRange n
  let cs := (List.finRange 192).filter fun x => x.val / 8 = n.val
  let busy := cs.any (fun x => (s.cores[x]).fgT.isSome || (s.cores[x]).shT.isSome || decide ((s.cores[x]).run = .running)) ||
    s.dpts[r].wakePending.any (fun p => decide (6 * r.val + p.2 / 8 = n.val))
  if busy then 1
  else if cs.any (fun x => decide ((s.cores[x]).run = .halted)) then 9
  else 0

/-- Vote of the hub on its range fabric: a user or a schedule is enabled, or a flume channel is not DISABLED. -/
def State.hubVote (s : State) (h : Fin 4) : Nat :=
  let busy :=
    (List.range 24).any (fun p => s.regBit (ethA h p 0) 0) || (List.range 12).any (fun k => s.regBit (cpriA h k 0) 0) ||
    (List.range 24).any (fun g => s.regBit (trkA h g 0) 0) || (List.range 16).any (fun i => s.regBit (schA h i 0) 0) ||
    (List.finRange 32).any (fun c => decide (s.chState (.hub h c) ≠ 0))
  if busy then 7 else 0

/-- Vote of the dispatcher on RINF OFF. -/
def State.threadsVote (s : State) (r : Fin 4) : Nat :=
  if (List.range 1024).any (fun t => decide (s.tState r t ≠ 0)) || (List.range 256).any (fun l => s.lockOn r l) ||
    (List.finRange 16).any (fun i => s.armed (.tp r i)) then 8 else 0

/-- Vote of an engine: it has a command. -/
def State.engVote (s : State) (e : EngId) : Nat := if (s.eng e).queue = [] then 0 else 2

/-- Reason a voter refuses for, 0 where it accepts (R355). -/
def State.voteOf (s : State) (d target voter : Nat) : Nat :=
  if h : d < 24 then
    let n : Fin 24 := ⟨d, h⟩
    match voter with
    | 1 => s.ridgeVote n
    | 2 => s.engVote (.codec n)
    | 3 => s.engVote (.fft n)
    | 4 => s.engVote (.eq n)
    | _ => if (List.finRange 16).any (fun c => s.flumeBusy (.ridge n c)) then 3 else 0
  else
    let r : Fin 4 := ⟨d % 4, Nat.mod_lt d (by decide)⟩
    if d < 52 then
      (if voter = 10 then s.hubVote r else if (s.flipPlan (s.rangesOn - 2 ^ r.val)).isNone then 5 else 0)
    else if d < 56 then
      (if target = 3 then
        (if voter = 1 then (if s.ridgesIn r.val (fun x => decide (2 ≤ x)) then 0 else 1)
         else if s.dom (56 + r.val) = 0 then 2 else 0)
       else if voter = 1 then s.threadsVote r
       else if voter = 7 then (if s.regBit (EngId.turbo r).base 0 = false ∧ (s.eng (.turbo r)).queue = [] then 0 else 2)
       else (if s.regBit (EngId.nbe r).base 0 = false ∧ (s.eng (.nbe r)).queue = [] then 0 else 2))
    else if s.bfas[r].queue ≠ [] ∨ s.bfas[r].run.isSome ∨ (List.range 4).any (fun h => s.seqRun r h) then 2 else 0

/-- ABORT: the refusal is logged and counted, and the entry is tried again later (R356). -/
def State.slcAbort (s : State) (d reason voter : Nat) : State :=
  let s := s.setReg (slcA 0x18) (BitVec.ofNat 32 (d + 2 ^ 8 * reason + 2 ^ 12 * voter))
  let s := (s.countUp (slcA 0x28)).raise 1665
  let s := s.setRegFld (domState d) 6 4 (s.dom d)
  let s := s.modSlc fun c => { c with retry := withIn c.retry d }
  (s.endTxn d).domLimits d

/-- COMMIT (R357). -/
def State.slcCommit (s : State) (d : Nat) : State :=
  s.modSlc fun c => { c with txns := c.txns.map fun t => if t.dom = d then { t with commit := true } else t }

/-- A vote reaches the controller; with every vote in, ABORT or COMMIT follows (R356, R357). -/
def State.takeVote (s : State) (t : SlcTxn) (voter reason : Nat) : State :=
  let vs := t.votes ++ [(voter, reason)]
  let s := s.modSlc fun c => { c with txns := c.txns.map fun u => if u.dom = t.dom then { u with votes := vs } else u }
  let order := votersOf t.dom t.target
  if order.all (fun v => vs.any (fun p => decide (p.1 = v))) then
    match order.findSome? (fun v => vs.find? (fun p => decide (p.1 = v ∧ p.2 ≠ 0))) with
    | some p => s.slcAbort t.dom p.2 p.1
    | none => s.slcCommit t.dom
  else s

/-- A transaction may open for the domain (R349, R355, R358: those of one range run one after another). -/
def State.mayPrepare (s : State) (d : Nat) : Bool :=
  let w := s.want d
  s.domPresent d && decide (2 ≤ w ∧ w ≤ 4) && decide (s.dom d < w) && decide (d < 24 ∨ (48 ≤ d ∧ d < 60)) &&
  !s.slc.txns.any (fun t => decide (t.dom = d) || decide (domRange t.dom = domRange d)) &&
  decide (d ∉ s.slc.retry ∧ d ∉ s.slc.wakeAct) && !s.slc.up.any (fun p => decide (p.1 = d))

/-- PREPARE: the order is checked, and the voters are asked (R355, R364). -/
def State.prepare (s : State) (d : Nat) : State :=
  let w := s.want d
  let s := s.modSlc fun c => { c with txns := c.txns ++ [{ dom := d, target := w, auto := (s.force d).isNone }] }
  let s := (s.setRegBit (domState d) 3 true).setRegFld (domState d) 6 4 w
  let s := s.domLimits d
  if s.orderBad d w then s.slcAbort d 6 0 else s

/-! Endpoints of a domain (R357, R364, 11_leat_fabric.md R269, R271, R274) -/

/-- Endpoints of a domain. -/
def domEndpoints (d : Nat) : List Nat :=
  if d < 24 then [ridgeNode d]
  else if 48 ≤ d ∧ d < 52 then (List.range 36).filter fun e => epRange e = d - 48
  else if 56 ≤ d ∧ d < 60 then [midNode (d - 56) 1]
  else []

/-- Nodes of a range. -/
def rangeNodes (r : Nat) : List Nat := (List.range 36).filter fun e => epRange e = r

/-- The transaction that has an endpoint fenced now: to OFF, or to ASLEEP (R269, R357). -/
def State.fencing (s : State) (e : Nat) : Option SlcTxn :=
  s.slc.txns.find? fun t => t.commit && decide (e ∈ domEndpoints t.dom) &&
    (decide (s.epState e = 0) || (decide (s.epState e = 2) && decide (t.target = 4)))

/-- The domain has reached its state: endpoints fenced, and for a range fabric its routers closed after a flip (R357). -/
def State.entryReady (s : State) (t : SlcTxn) : Bool :=
  t.commit && (domEndpoints t.dom).all (fun e => if t.target = 4 then decide (s.epState e = 3) else decide (2 ≤ s.epState e)) &&
  (if 48 ≤ t.dom ∧ t.dom < 52 then
    (rangeNodes (t.dom - 48)).all (fun n => s.routerClosed n) && !s.coveredRanges.testBit (t.dom - 48) && s.fabric.flip.isNone
   else true)

/-- The state entered (R357 steps 3 to 5, R362). -/
def State.enterDom (s : State) (t : SlcTxn) : State :=
  let d := t.dom
  let s := if d < 24 then
      let keep := if t.target = 2 then s.regFld (slcA (0x400 + 4 * d)) 15 0 else 0
      let s := s.modSlc fun c => { c with
        retained := sset (fun _ => 0) c.retained d keep, retLost := sset (fun _ => 0) c.retLost d 0 }
      let s := s.setRegBit (domState d) 8 (decide (keep ≠ 0))
      if t.target = 2 then s.countUp (slcA 0x24) else s
    else s
  let s := if 52 ≤ d ∧ d < 56 ∧ t.target = 3 then
      let a := slcA (0x480 + 0x10 * (d - 52))
      ((s.setRegBit a 0 true).setRegBit a 3 true).setRegBit a 2 false
    else s
  let s := s.setDom d t.target
  let s := s.raiseIf (!t.auto) 1664
  let late := d ∈ s.slc.lateWakes
  let s := s.modSlc fun c => { c with
    lateWakes := without c.lateWakes d
    wakeAct := if late then withIn c.wakeAct d else c.wakeAct
    switching := without c.switching (if 52 ≤ d ∧ d < 56 then d - 52 else 4) }
  (s.endTxn d).domLimits d

/-! Wakes (R350, R354, R358) -/

/-- The exit of a domain is asked for, where it is not on its way to RUN; a ridge or BFA also wakes the RINF of its range from DEEP (R354). FORCE = OFF is not woken
(R349). -/
def State.askWake (s : State) (d : Nat) : State :=
  if s.dom d = 0 ∨ s.force d = some 4 ∨ s.domPresent d = false ∨ s.slc.up.any (fun p => decide (p.1 = d)) = true then s
  else
    let s := s.modSlc fun c => { c with wakeAct := withIn c.wakeAct d }
    let r := (domRange d).getD 0
    if (d < 24 ∨ 56 ≤ d) ∧ d < 60 ∧ s.dom (52 + r) = 3 then s.modSlc fun c => { c with wakeAct := withIn c.wakeAct (52 + r) } else s

/-- A wake request reaches the controller (R354, R358). -/
def State.demandWake (s : State) (d : Nat) : State :=
  let s := { s with wakes := without s.wakes d }
  match s.txn d with
  | some t =>
    if t.commit then (if t.target = 4 then s else s.modSlc fun c => { c with lateWakes := withIn c.lateWakes d })
    else (s.slcAbort d 10 11).askWake d
  | none => s.askWake d

/-- A ridge that is not in RUN when the time of its work has come: the late wake is counted once (R350). -/
def State.lateCheck (s : State) (d : Nat) : State :=
  match s.slc.due.find? (fun p => decide (p.1 = d)) with
  | none => s
  | some (_, t) =>
    if s.dom d ≠ 0 ∧ t.toNat ≤ (s.replica .slc).toNat then
      let s := s.modSlc fun c => { c with due := c.due.filter (fun p => decide (p.1 ≠ d)) }
      (s.countUp (slcA 0x2C)).raise 1667
    else s

/-- The action of an SLC comparator's fire: its domain wakes (R346, R350). -/
def State.slcFire (s : State) (i : Fin 32) : State :=
  let d := cmpDomain i
  let s := s.modSlc fun c => { c with used := without c.used i.val }
  let s := s.lateCheck d
  match s.txn d with
  | some t => if t.commit && decide (t.target ≠ 4) then s.modSlc fun c => { c with lateWakes := withIn c.lateWakes d } else s
  | none => s.askWake d

/-! Automatic choice (R350, R351, R353) -/

/-- Bound of the exit from a state to RUN, in tu (R346). -/
def exitTime (x : Nat) : Nat := if x = 1 then 492 else 7864

/-- SLC_MARGIN. -/
def State.margin (s : State) : Nat := s.regFld (slcA 0x10) 19 0

/-- The choice for a domain that can sleep until time T, NOW or without end: the target, and the time its comparator is armed
at (R350). `cur` is the state it is in; a domain asleep goes on to no shallower state than RUN. -/
def pickState (cur : Nat) (sleepOk dozeOk : Bool) (margin : Nat) (now : Nat) (g : Option Int) : Nat × Option Int :=
  match g with
  | none =>
    let x := if sleepOk then 2 else if dozeOk then 1 else 0
    (if x = 0 then 0 else max x cur, none)
  | some g =>
    let x := if sleepOk && decide (11797 + (margin : Int) ≤ g) then 2 else if dozeOk && decide (689 + (margin : Int) ≤ g) then 1 else 0
    if x = 0 then (0, none) else (max x cur, some ((now : Int) + g - exitTime (max x cur) - margin))

/-- The chosen state and comparator of a domain take effect. -/
def State.choose (s : State) (d : Nat) (i : Fin 32) (p : Nat × Option Int) : State :=
  let s := s.modSlc fun c => { c with choice := sset (fun _ => 0) c.choice d p.1 }
  match p.2 with
  | some t => s.slcArm i t
  | none => s.slcDisarm i

/-- The evaluation of a ridge (R350). -/
def State.evalRidge (s : State) (n : Fin 24) (i : Fin 32) : State :=
  let r := ridgeRange n
  let d := n.val
  let s := s.lateCheck d
  let now := (s.replica .slc).toNat
  let m := s.maxDepth d
  let sleepOk := s.regBit (slcA 4) 1 && decide (m = 2 ∨ m = 4)
  let dozeOk := s.regBit (slcA 4) 0 && decide (m ≠ 0)
  let rep := s.nextWork r (d % 6)
  let dt := (rep.2 - s.tickOf now).toNat
  let e : Int := ((now : Int) - s.frameOfs) % (s.tb.div.toNat : Int)
  let g : Int := (dt * s.tb.div.toNat : Nat) - e
  let drop := s.modSlc fun c => { c with due := c.due.filter (fun p => decide (p.1 ≠ d)) }
  if rep.1 = 1 ∨ (rep.1 = 2 ∧ 2 ^ 31 ≤ dt) then drop.choose d i (0, none)
  else if rep.1 = 0 then drop.choose d i (pickState (s.dom d) sleepOk dozeOk s.margin now none)
  else
    let s := drop.modSlc fun c => { c with due := c.due ++ [(d, BitVec.ofInt 64 ((now : Int) + g))] }
    s.choose d i (pickState (s.dom d) sleepOk dozeOk s.margin now (some g))

/-- The evaluation of a BFA: DOZE until its earliest armed entry (R351). -/
def State.evalBfa (s : State) (r : Fin 4) (i : Fin 32) : State :=
  let d := 56 + r.val
  let now := (s.replica .slc).toNat
  let dozeOk := s.regBit (slcA 4) 3 && decide (s.maxDepth d ≠ 0)
  let busy := decide (s.bfas[r].queue ≠ []) || s.bfas[r].run.isSome
  if busy then s.choose d i (0, none)
  else s.choose d i (pickState (s.dom d) false dozeOk s.margin now ((s.bfaNext r).map fun (t : Nat) => (t : Int) - now))

/-- Earliest wake comparator of the ridges and the BFA of a range (R353). -/
def State.firstWake (s : State) (r : Fin 4) : Option Nat :=
  let is := ((List.finRange 32).filter fun i => decide (i.val < 24 ∧ i.val / 6 = r.val) || decide (i.val = 24 + r.val)).filter fun i => s.armed (.slc i)
  (is.map fun i => (s.target (CmpId.slc i).base).toNat).foldl (fun b t => match b with
    | none => some t
    | some u => some (min t u)) none

/-- The evaluation of a range infrastructure (R353). -/
def State.evalRinf (s : State) (r : Fin 4) (i : Fin 32) : State :=
  let d := 52 + r.val
  let now := (s.replica .slc).toNat
  let ok := s.regBit (slcA 4) 2 && decide (s.maxDepth d = 3) && s.ridgesIn r.val (fun x => decide (x = 2 ∨ x = 4)) &&
    decide (s.dom (56 + r.val) ≠ 0)
  let first := s.firstWake r
  let far := match first with
    | none => true
    | some t => decide (s.dom d = 3) || decide (now + 62916 + s.margin ≤ t)
  if ok && far then s.choose d i (3, first.map fun (t : Nat) => (t : Int) - 58983 - s.margin) else s.choose d i (0, none)

/-- An evaluation of a domain under automatic choice, outside a transaction. -/
def State.evaluate (s : State) (i : Fin 32) : State :=
  if h : i.val < 24 then s.evalRidge ⟨i.val, h⟩ i
  else if i.val < 28 then s.evalBfa ⟨i.val % 4, Nat.mod_lt _ (by decide)⟩ i
  else s.evalRinf ⟨i.val % 4, Nat.mod_lt _ (by decide)⟩ i

/-- The domain is quiescent (R351). -/
def State.quiescent (s : State) (i : Fin 32) : Bool :=
  let ep := (domEndpoints (cmpDomain i)).getD 0 0
  let idle := s.fabric.txns.all fun t => decide (t.init ≠ ep ∧ t.dest ≠ ep)
  if h : i.val < 24 then
    let n : Fin 24 := ⟨i.val, h⟩
    decide ((s.nextWork (ridgeRange n) (n.val % 6)).1 ≠ 1) && decide (s.engVote (.codec n) = 0) && decide (s.engVote (.fft n) = 0) &&
    decide (s.engVote (.eq n) = 0) &&
    (List.finRange 16).all (fun c => decide (s.chState (.ridge n c) ∈ [0, 1, 2, 9])) && idle
  else if i.val < 28 then
    let r : Fin 4 := ⟨i.val % 4, Nat.mod_lt _ (by decide)⟩
    decide (s.bfas[r].queue = []) && s.bfas[r].run.isNone && idle
  else false

/-! Power-up (R359, R360) -/

/-- The registers of a window, and the targets of its comparators, at reset. -/
def State.resetWindow (s : State) (lo hi : Nat) : State :=
  { s.resetRegs lo hi with targets := s.targets.filter fun e => decide (e.1 < lo ∨ hi ≤ e.1) }

/-- A register of a window that a reset of the window leaves: a LOCK, which only PORST_N and SYSRST_N clear (00_scope.md R7; log entry
112), or the position of a scrubber that stood still (10_memory_protection.md R248). -/
def State.keepReg (s t : State) (a : Nat) : State := t.setReg a (s.reg a)

/-- What a ridge holds after its supply was off: nothing but its retained banks (R244, R236, R359, R360). -/
def State.ridgeUp (s : State) (n : Fin 24) (was : Nat) : State :=
  let b := ridgeBase n.val
  let t := s.resetWindow (b + 0xC00000) (b + 0xC70000)
  let s := if was = 2 then s.keepReg t (memA n.val 0x9C) else { t with
    prot := { t.prot with lapHeld := sset (fun _ => 0) t.prot.lapHeld n.val 0 } }
  let cs := (List.finRange 192).filter fun x => x.val / 8 = n.val
  let s := cs.foldl (fun t x => (t.modCore x fun _ => {}).setReplica (.core x) 0) s
  let s := ([.codec n, .fft n, .eq n] : List EngId).foldl (fun t e => t.modEng e fun _ => {}) s
  let own (k : Nat) : Bool := decide (k / 8 = n.val) || decide ((k - 1000) / 3 = n.val ∧ 1000 ≤ k ∧ k < 1072)
  let s := { s with
    chans := s.chans.filter fun c => decide (c.1 / 16 ≠ n.val)
    prot := { s.prot with
      lines := s.prot.lines.filter fun l => !own l.owner
      fetchErr := s.prot.fetchErr.filter fun c => !own c.1 } }
  let s := (s.setFlip n.val none).setReplica (.ridge n) 0
  let s := s.clearRegion b 0x400000
  let keep := if was = 2 then sget (fun _ => 0) s.slc.retained n.val else 0
  let lost := Nat.land (sget (fun _ => 0) s.slc.retLost n.val) keep
  let s := (List.range 16).foldl (fun t k => if keep.testBit k && !lost.testBit k then t else t.poisonBank (16 * n.val + k)) s
  let s := if lost ≠ 0 then
      ((s.setReg (memA n.val 0xA0) (BitVec.ofNat 32 lost)).setRegBit (memA n.val 8) 5 true).raise (1728 + 2 * n.val) else s
  let s := s.modSlc fun c => { c with
    retained := sset (fun _ => 0) c.retained n.val 0, retLost := sset (fun _ => 0) c.retLost n.val 0 }
  (s.setRegBit (domState n.val) 8 false).setRegBit (domState n.val) 9 false

/-- What a BFA holds after it was off: cleared memories, undefined program memory (R360). -/
def State.bfaUp (s : State) (r : Fin 4) : State :=
  let s := s.resetWindow (bfaA r 0) (bfaA r 0x10000)
  let s := (s.modBfa r fun _ => {}).setReplica (.bfa r) 0
  let s := (s.clearRegion (spacePages r.val) (2 ^ 40)).clearRegion (spaceWeights r.val) (2 ^ 40)
  let t := s.draw
  let t := (List.range 8192).foldl (fun u i => u.setReg (bfaA r (0x8000 + 4 * i)) (BitVec.ofNat 32 (s.free i))) t
  t.modSlc fun c => { c with clearing := withIn c.clearing (56 + r.val) }

/-- What a range infrastructure holds after it was off (R360). -/
def State.rinfUp (s : State) (r : Fin 4) : State :=
  let s := s.keepReg (s.resetWindow (dptA r 0) (dptA r 0x10000)) (dptA r 8)
  let s := s.resetWindow (EngId.turbo r).base ((EngId.turbo r).base + 0x10000)
  let s := s.modDpt r fun _ => {}
  let s := ([.turbo r, .nbe r] : List EngId).foldl (fun t e => t.modEng e fun _ => {}) s
  let s := { s with
    ctx := s.ctx.filter fun e => decide (e.1 / 2 ^ 21 ≠ r.val)
    prot := { s.prot with
      lines := s.prot.lines.filter fun l => decide (l.owner ≠ 1072 + 2 * r.val ∧ l.owner ≠ 1073 + 2 * r.val)
      fetchErr := s.prot.fetchErr.filter fun c => decide (c.1 ≠ 1072 + 2 * r.val ∧ c.1 ≠ 1073 + 2 * r.val) } }
  let s := s.clearRegion (spaceCtx r.val) (2 ^ 21)
  let s := (List.range 96).foldl (fun t k => t.poisonBank (96 * r.val + k)) s
  let s := s.setReplica (.dpt r) 0
  let a := slcA (0x480 + 0x10 * r.val)
  let s := ((s.setRegBit a 2 false).setRegBit a 3 true).setRegBit a 0 true
  s.modSlc fun c => { c with clearing := withIn c.clearing (52 + r.val) }

/-- What a range fabric holds after it was off; its routers train their links (R273, R364). -/
def State.rfabUp (s : State) (r : Fin 4) : State :=
  let hb := (Block.hub r.val 0).base
  let s := s.resetWindow (hb + 0x10000) (hb + 0x40000)
  let s := (List.range 6).foldl (fun t k =>
    let b := ridgeBase (6 * r.val + k)
    t.keepReg (t.resetWindow (b + 0xC70000) (b + 0xD00000)) (b + 0xC70004)) s
  let s := (s.modHub r fun _ => {}).setReplica (.hub r) 0
  { s with
    chans := s.chans.filter fun c => decide (c.1 < 384 + 32 * r.val ∨ 416 + 32 * r.val ≤ c.1)
    fabric := { s.fabric with training := s.fabric.training ++ rangeNodes r.val } }

/-- The supply of a domain comes on, its clock starts, its replica is loaded, its memories are brought to a defined state. -/
def State.powerUp (s : State) (d : Nat) : State :=
  let was := s.dom d
  let s := s.modSlc fun c => { c with wakeAct := without c.wakeAct d, up := c.up ++ [(d, was)] }
  if h : d < 24 then (if was = 1 then s else s.ridgeUp ⟨d, h⟩ was)
  else
    let r : Fin 4 := ⟨d % 4, Nat.mod_lt d (by decide)⟩
    if was ≠ 4 then s
    else if d < 52 then s.rfabUp r
    else if d < 56 then s.rinfUp r
    else s.bfaUp r

/-- A domain's exit starts: it was asked for, or FORCE or the choice says RUN, or FORCE a shallower state. -/
def State.wakeDue (s : State) (d : Nat) : Bool :=
  let r := (domRange d).getD 0
  let asked := decide (d ∈ s.slc.wakeAct) || decide (s.want d = 0) || ((s.force d).isSome && decide (s.want d < s.dom d))
  let above :=
    if d < 24 ∨ (56 ≤ d ∧ d < 60) then s.rfabOn r && s.rinfOn r
    else if 52 ≤ d ∧ d < 56 then s.rfabOn r
    else true
  asked && above && s.domPresent d && decide (s.dom d ≠ 0) && decide (d < 24 ∨ 48 ≤ d) && (s.txn d).isNone &&
    !s.slc.up.any (fun p => decide (p.1 = d))

/-- The steps of a domain's exit before RUN are done (R359, R361, R364). -/
def State.exitReady (s : State) (d : Nat) : Bool :=
  match s.slc.up.find? (fun p => decide (p.1 = d)) with
  | none => false
  | some (_, was) =>
    if 48 ≤ d ∧ d < 52 then
      (rangeNodes (d - 48)).all (fun n => !s.routerClosed n) && s.coveredRanges.testBit (d - 48) && s.fabric.flip.isNone
    else if 52 ≤ d ∧ d < 56 ∧ was = 3 then !s.regBit (slcA (0x480 + 0x10 * (d - 52))) 3
    else true

/-- Endpoints a domain reopens as it reaches RUN: those of a range fabric that are no other domain's (R364). -/
def exitEndpoints (d : Nat) : List Nat :=
  if 48 ≤ d ∧ d < 52 then [midNode (d - 48) 0, midNode (d - 48) 2] else domEndpoints d

/-- Divider code of the range clocks (R367, R369). -/
def State.divCode (s : State) : Nat :=
  if s.regBit (slcA 8) 1 then (if s.regFld (slcA 0x1C) 1 0 = 2 then 2 else 1) else 0

/-- The domain is in RUN (R359). -/
def State.exitDom (s : State) (d : Nat) : State :=
  let s := s.lateCheck d
  let s := s.setDom d 0
  let s := s.modSlc fun c => { c with up := c.up.filter (fun p => decide (p.1 ≠ d)) }
  let s := (exitEndpoints d).foldl (fun t e => t.reopenReq e) s
  let s := if 52 ≤ d ∧ d < 56 then s.setRegFld (slcA (0x480 + 0x10 * (d - 52))) 5 4 s.divCode else s
  (s.domLimits d).raiseIf (decide (s.force d = some 0)) 1664

/-! Clocks (R361) -/

/-- Address of SLC_RANGEr_CLK. -/
def rangeClk (r : Nat) : Nat := slcA (0x480 + 0x10 * r)

/-- A write to SLC_RANGEr_CLK. -/
def State.clkWrite (s : State) (r : Nat) (v : Word) : State :=
  let a := rangeClk r
  if bit v 0 then
    (((s.setRegFld a 1 0 (fld v 1 0)).setRegBit a 3 true)).modSlc fun c => { c with switching := without c.switching r }
  else if s.regBit a 2 = false then s.slcErr 1
  else
    let s := s.setRegFld a 1 0 (fld v 1 0)
    if s.regBit a 3 then s.modSlc fun c => { c with switching := withIn c.switching r } else s

/-- A divider for the ranges in RUN, or whose PLL is coming on (R367). -/
def State.setDiv (s : State) : State :=
  (List.range 4).foldl (fun t r =>
    if t.hasRange r && (decide (t.dom (52 + r) = 0) || t.slc.up.any (fun p => decide (p.1 = 52 + r)))
    then t.setRegFld (rangeClk r) 5 4 t.divCode else t) s

/-! Stacks (R251, R366) -/

/-- No request is outstanding at a stack's ports. -/
def State.stackIdle (s : State) (i : Nat) : Bool :=
  !s.regBit (stackA i + 4) 1 && s.fabric.txns.all fun t =>
    !decide (t.st = .sent ∧ t.carry = .access ∧ t.addr / 2 ^ 34 = i)

/-- The stack is to sleep once idle (R366). -/
def State.stackSleeps (s : State) (i : Nat) : Bool :=
  match s.force (60 + i) with
  | some 2 => true
  | some _ => false
  | none => s.regBit (slcA (0x600 + 4 * i)) 31 && decide (s.maxDepth (60 + i) = 2)

/-- A sleeping stack is awake again (R251). -/
def State.stackAwake (s : State) (i : Nat) : State :=
  let t := s.tb.cycles - sget (fun _ => 0) s.prot.holdSince i
  let a := stackA i
  let held := s.regBit (a + 4) 1
  let s := if held then
      let s := s.countUp (a + 0x50)
      s.setReg (a + 0x54) (BitVec.ofNat 32 (max (min t (2 ^ 32 - 1)) (s.reg (a + 0x54)).toNat))
    else s
  let s := (s.setRegBit (a + 4) 1 false).setRegBit (a + 4) 0 true
  let s := { s with wakes := without s.wakes (60 + i) }
  (s.modSlc fun c => { c with wakeAct := without c.wakeAct (60 + i) }).setDom (60 + i) 0

/-- A register of SLC_ that shows the controller's own state. -/
def State.slcView (s : State) (o : Nat) : Option Word :=
  if o = 8 then some (setBit (s.reg (slcA 8)) 0 (decide (s.slc.txns ≠ []))) else none

/-! Commands -/

/-- FLIP_REQUEST for range r: the routing leaves it as it goes off, or takes it in as it comes on (R271, R274). -/
def execFlipRequest (r : Fin 4) (s : State) : Out :=
  let d := 48 + r.val
  let off := match s.txn d with
    | some t => t.commit && (rangeNodes r.val).all (fun e => decide (s.epState e = 3)) && s.coveredRanges.testBit r.val
    | none => false
  let on := s.slc.up.any (fun p => decide (p.1 = d)) && !s.coveredRanges.testBit r.val &&
    (rangeNodes r.val).all (fun n => !s.routerClosed n)
  act s (s.fabric.flip = none ∧ (off = true ∨ on = true)) fun s =>
    s.flipRequest (if off then s.rangesOn - 2 ^ r.val else s.rangesOn + 2 ^ r.val)

/-- SLUICE_EVALUATE of the domain of comparator i (R350, R351, R353). -/
def execSluiceEvaluate (i : Fin 32) (s : State) : Out :=
  let d := cmpDomain i
  act s (s.domPresent d = true ∧ s.force d = none ∧ s.txn d = none ∧ s.dom d ≠ 4 ∧ s.slc.up.any (fun p => decide (p.1 = d)) = false)
    fun s => s.evaluate i

/-- DOZE_ENTRY of the ridge or BFA of comparator i (R351). -/
def execDozeEntry (i : Fin 32) (s : State) : Out :=
  let d := cmpDomain i
  act s (i.val < 28 ∧ s.domPresent d = true ∧ s.want d = 1 ∧ s.dom d = 0 ∧ s.txn d = none ∧ d ∉ s.wakes ∧ s.quiescent i = true) fun s =>
    let s := (domEndpoints d).foldl (fun t e => (t.fence e false).fenceComplete e) s
    (((s.countUp (slcA 0x20)).setDom d 1)).raiseIf (s.force d).isSome 1664

/-- PREPARE of domain d (R355). -/
def execPrepare (d : Fin 62) (s : State) : Out := act s (s.mayPrepare d.val = true) fun s => s.prepare d.val

/-- VOTE of a voter on domain d (R355 to R357); the fabric manager, without a plan for the ranges that remain, refuses with NO_PLAN
(11_leat_fabric.md R271, R276). -/
def execVote (d : Fin 62) (voter : Fin 16) (s : State) : Out :=
  match s.txn d.val with
  | some t => act s (t.commit = false ∧ voter.val ∈ votersOf d.val t.target ∧ ∀ p ∈ t.votes, p.1 ≠ voter.val) fun s =>
      let why := s.voteOf d.val t.target voter.val
      (if why = 5 then s.noPlan else s).takeVote t voter.val why
  | none => .next s

/-- VOTE_TIMEOUT of a voter on domain d (R355). -/
def execVoteTimeout (d : Fin 62) (voter : Fin 16) (s : State) : Out :=
  match s.txn d.val with
  | some t => act s (t.commit = false ∧ voter.val ∈ votersOf d.val t.target ∧ ∀ p ∈ t.votes, p.1 ≠ voter.val) fun s =>
      (s.slcErr 3).takeVote t voter.val 4
  | none => .next s

/-- DOMAIN_ENTRY_COMPLETE of domain d (R357). -/
def execDomainEntryComplete (d : Fin 62) (s : State) : Out :=
  match s.txn d.val with
  | some t => act s (s.entryReady t = true) fun s => s.enterDom t
  | none => .next s

/-- SLUICE_RETRY of domain d: the aborted entry may be tried again, after a new evaluation of an automatic choice (R356). -/
def execSluiceRetry (d : Fin 62) (s : State) : Out :=
  act s (d.val ∈ s.slc.retry) fun s =>
    let s := s.modSlc fun c => { c with retry := without c.retry d.val }
    match slcCmp d.val with
    | some i => if s.force d.val = none then s.evaluate i else s
    | none => s

/-- DEMAND_WAKE of domain d (R354, R358). -/
def execDemandWake (d : Fin 62) (s : State) : Out := act s (d.val ∈ s.wakes) fun s => s.demandWake d.val

/-- DOMAIN_WAKE of domain d (R359, R360). -/
def execDomainWake (d : Fin 62) (s : State) : Out := act s (d.val < 60 ∧ s.wakeDue d.val = true) fun s => s.powerUp d.val

/-- BFA_CLEAR_DONE of BFA r (R360). -/
def execBfaClearDone (r : Fin 4) (s : State) : Out :=
  act s (56 + r.val ∈ s.slc.clearing) fun s => s.modSlc fun c => { c with clearing := without c.clearing (56 + r.val) }

/-- CONTEXT_STORE_CLEAR_DONE of range r (R360). -/
def execContextStoreClearDone (r : Fin 4) (s : State) : Out :=
  act s (52 + r.val ∈ s.slc.clearing) fun s => s.modSlc fun c => { c with clearing := without c.clearing (52 + r.val) }

/-- RANGE_PLL_LOCK of range r as its RINF comes out of DEEP or OFF (R361). -/
def execRangePllLock (r : Fin 4) (s : State) : Out :=
  act s (s.regBit (rangeClk r.val) 2 = false ∧
      (s.slc.up.any (fun p => decide (p.1 = 52 + r.val)) = true ∨ (s.hasRange r.val = true ∧ s.dom (52 + r.val) = 0))) fun s =>
    let s := (s.setRegBit (rangeClk r.val) 2 true).raise (1668 + r.val)
    if s.regBit (rangeClk r.val) 1 then
      (s.setRegBit (rangeClk r.val) 0 false).modSlc fun c => { c with switching := withIn c.switching r.val }
    else s

/-- CLOCK_SWITCH_DONE of range r (R361). -/
def execClockSwitchDone (r : Fin 4) (s : State) : Out :=
  act s (r.val ∈ s.slc.switching) fun s =>
    let s := s.modSlc fun c => { c with switching := without c.switching r.val }
    (s.setRegBit (rangeClk r.val) 3 false).raise (1672 + r.val)

/-- RETENTION_BROWNOUT: the retention supply of banks of ridge n fell below the hold voltage (R363). -/
def execRetentionBrownout (n : Fin 24) (banks : BitVec 16) (s : State) : Out :=
  let lost := sget (fun _ => 0) s.slc.retLost n.val
  let hit := banks.toNat &&& sget (fun _ => 0) s.slc.retained n.val
  act s (s.dom n.val = 2 ∧ hit ≠ 0) fun s =>
    let t := s.modSlc fun c => { c with retLost := sset (fun _ => 0) c.retLost n.val (lost ||| hit) }
    if lost = 0 then ((t.setRegBit (domState n.val) 9 true).slcErr 0).raise 1666 else t

/-- THROTTLE_APPLY: the over-temperature signal divides the range clocks (R367). -/
def execThrottleApply (s : State) : Out :=
  act s (s.regBit (Block.hk.base + 0x8014) 0 = true ∧ s.regBit (slcA 8) 1 = false) fun s =>
    ((s.setRegBit (slcA 8) 1 true).setDiv).raise 1676

/-- THROTTLE_REMOVE (R367). -/
def execThrottleRemove (s : State) : Out :=
  act s (s.regBit (Block.hk.base + 0x8014) 0 = false ∧ s.regBit (slcA 8) 1 = true) fun s =>
    ((s.setRegBit (slcA 8) 1 false).setDiv).raise 1677

/-- STACK_IDLE_SLEEP of stack i (R366). -/
def execStackIdleSleep (i : Fin 2) (s : State) : Out :=
  act s (s.dom (60 + i.val) = 0 ∧ s.stackSleeps i.val = true ∧ s.stackIdle i.val = true) fun s =>
    ((s.setDom (60 + i.val) 2).setRegBit (stackA i.val + 4) 0 false).raiseIf (s.force (60 + i.val)).isSome 1664

end Sys2Proof.Machine
end

