-- ==== Sys2Proof/Machine/Timebase.lean ====
section
/-! DEFINITION. Steps of TB_NOW and the dispatcher tick (02_device_time.md R25, R39 to R42; 06_dispatcher.md R144, R145). -/

namespace Sys2Proof.Machine

/-- Dispatchers of the device. -/
def dispatchers : List (Fin 4) := [0, 1, 2, 3]

/-- Ticks that a forward step from count n by d jumps over: first and last tick number (R145). -/
def State.jumped (s : State) (n d : Nat) : Option (Int × Int) :=
  let dv : Int := s.tb.div.toNat
  let o : Int := s.frameOfs
  let lo : Int := (n : Int) + 1 - o
  let hi : Int := (n : Int) + d - 2 - o
  let first := -((-lo) / dv)
  let last := hi / dv
  if first ≤ last then some (first, last) else none

/-- A step applied: TB_NOW and every replica move by d in one cycle, the remainder to slew is cleared, and jumped ticks
are delivered at once (R39, R40, R41, R26). -/
def State.applyStep (s : State) (d : Int) : State :=
  let n := s.tb.now
  let s := { s with tb := { s.tb with now := n + BitVec.ofInt 64 d, slew := 0, stepAt := s.tb.cycles, stepBy := d } }
  let s := (s.setRegBit (tbA 4) 2 true).setRegFld (tbA 0x5C) 2 0 2
  let s := s.raise 1634
  match if 0 < d then s.jumped n.toNat d.toNat else none with
  | none => s
  | some (a, b) => dispatchers.foldl (fun t r => t.jumpTicks r (a % 2 ^ 32).toNat (b % 2 ^ 32).toNat) s

/-- A step that is due, by the operating mode (R39): applied, absorbed into the slew, or refused. -/
def State.stepDue (s : State) (d : Int) : State :=
  if s.stepMode then s.applyStep d
  else if d.natAbs ≤ 983 then (s.setRegFld (tbA 0x5C) 2 0 3).setSlew (s.tb.slew + d)
  else (s.setRegFld (tbA 0x5C) 2 0 4).raise 1635

/-- TB_STEP as a signed amount (R39). -/
def State.stepAmount (s : State) : Int := sext 64 (s.reg64 (tbA 0x50))

/-- A write to TB_STEP_CMD (R39, R41): GO, LOAD_AT_PPS, or both, which is a conflict: an earlier PPS load goes on waiting for its edge, while
RESULT reads CONFLICT (DESIGN CHOICE, log entry 106). Before the PLL has locked the timebase does not run and a GO has no outcome. -/
def State.stepCmd (s : State) (v : Word) : State :=
  if bit v 0 ∧ bit v 1 then s.setRegFld (tbA 0x5C) 2 0 5
  else if bit v 0 then
    let s := { s with tb := { s.tb with waitLoad := none } }
    if s.tb.started then s.stepDue s.stepAmount else s
  else if bit v 1 then
    { s.setRegFld (tbA 0x5C) 2 0 1 with tb := { s.tb with waitLoad := some (BitVec.ofNat 64 (s.reg64 (tbA 0x50))) } }
  else s

/-- An edge of PPS_IN held, `first` the replica value at its first sample (R25, R39). -/
def State.ppsEdge (s : State) (first : Time) : State :=
  let s := s.setReg64 (tbA 0x60) first.toNat
  let s := ({ s with tb := { s.tb with ppsRef := s.tb.cycles } }).raise 1632
  let s := if s.regBit (tbA 8) 0 then s.capture else s
  match s.tb.waitLoad with
  | none => s
  | some v => ({ s with tb := { s.tb with waitLoad := none } }).stepDue ((v.toNat : Int) - first.toNat)

/-- PPS_EDGE_HELD: a falling or rising edge of PPS_IN, the one that FALLING selects, has been stable for DEGLITCH tu (R25). -/
def execPpsEdgeHeld (edge : PpsEdge) (s : State) : Out :=
  act s (s.regBit (tbA 0x68) 0 = true ∧ s.tb.started = true ∧ s.regBit (tbA 0x68) 1 = edge.falling ∧ s.edgeHeld edge.first = true)
    fun s => s.ppsEdge edge.first

/-- Tick number of the count (R42). -/
def State.tickNow (s : State) : Word := s.tickOf s.tb.now.toNat

/-- The count stands at a tick, or one past it where an increment of 2 or a step passed it (R42, R145). -/
def State.atTick (s : State) : Bool :=
  decide (((s.tb.now.toNat : Int) - s.frameOfs) % (s.tb.div.toNat : Int) ≤ 1)

/-- TICK: the tick number goes to all dispatchers (R42). -/
def execTick (s : State) : Out :=
  act s (s.tb.started = true ∧ s.atTick = true) fun s =>
    dispatchers.foldl (fun t r => t.deliverTick r s.tickNow) s

end Sys2Proof.Machine
end

