-- ==== Sys2Proof/Machine/Trunk.lean ====
section
/-! DEFINITION. Trunk framing (14_fronthaul_framing.md R336 to R342): lane frames, groups, cells and tributaries. -/

namespace Sys2Proof.Machine

/-- Address of a register of trunk lane j. -/
def trkLnA (h : Fin 4) (j off : Nat) : Nat := hubA h 3 (0x8400 + 0x10 * j + off)

/-- TRK_LNj_STATUS.FSTATE: 0 HUNT, 1 CONFIRM, 2 IN_FRAME. -/
def State.fState (s : State) (h : Fin 4) (j : Nat) : Nat := s.regFld (trkLnA h j 0) 1 0

/-- TRK_Gg_STATUS.STATE: 0 DOWN, 1 ALIGNING, 2 UP, 3 DEGRADED. -/
def State.gState (s : State) (h : Fin 4) (g : Nat) : Nat := s.regFld (trkA h g 8) 1 0

/-- A lane of a hub's trunk framing. -/
def State.tLane (s : State) (h : Fin 4) (j : Nat) : TrunkLane := sget (fun _ => {}) s.hubs[h].lanes j

/-- The state with it changed. -/
def State.modTLane (s : State) (h : Fin 4) (j : Nat) (f : TrunkLane → TrunkLane) : State :=
  s.modHub h fun b => { b with lanes := upd (fun _ => {}) b.lanes j f }

/-- Member lanes of a group that is enabled. -/
def State.members (s : State) (h : Fin 4) (g : Nat) : List Nat := s.userLanes h (.trunk g)

/-- Logical number of a lane by its last marker. -/
def State.logical (s : State) (h : Fin 4) (j : Nat) : Nat := s.regFld (trkLnA h j 0) 7 4

/-- The lane is usable in its group (R338). -/
def State.usable (s : State) (h : Fin 4) (g j : Nat) : Bool :=
  decide (s.fState h j = 2) && (s.tLane h j).idOk && !(s.tLane h j).skewed &&
    (s.members h g).all fun k => decide (k = j) || decide (s.fState h k ≠ 2) || !(s.tLane h k).idOk ||
      decide (s.logical h k ≠ s.logical h j)

/-- RX_OK of a group: the usable lanes by logical number (R336). -/
def State.rxOk (s : State) (h : Fin 4) (g : Nat) : Nat :=
  ((s.members h g).filter fun j => s.usable h g j).foldl (fun v j => v ||| 2 ^ s.logical h j) 0

/-- Tributaries of a group stop: blocks being received are dropped (R342). -/
def State.stopTribs (s : State) (h : Fin 4) (g : Nat) : State :=
  s.modHub h fun b =>
    let l := b.tribRx.filter fun p => decide (s.regFld (hubA h 3 (0x9000 + 4 * p.1)) 6 2 ≠ g)
    { b with tribRx := l }

/-- A group in a state. -/
def State.setGState (s : State) (h : Fin 4) (g x : Nat) : State := s.setRegFld (trkA h g 8) 1 0 x

/-- The state of a group follows the usability of its members (R342). -/
def State.groupEval (s : State) (h : Fin 4) (g : Nat) : State :=
  let ms := s.members h g
  let ok := ms.filter fun j => s.usable h g j
  let all := !ms.isEmpty && decide (ok.length = ms.length)
  let cfg := s.reg (trkA h g 0)
  let some_ := bit cfg 1 && decide (max 1 (fld cfg 6 2) ≤ ok.length)
  let st := s.gState h g
  let s := s.setRegFld (trkA h g 12) 31 16 (s.rxOk h g)
  let s := s.setRegBit (trkA h g 8) 2 (ms.any fun j => decide ((s.tLane h j).stale < 4))
  if bit cfg 0 = false then (s.setGState h g 0).stopTribs h g
  else if st = 0 then s.setGState h g 1
  else if st = 1 then (if all then (s.setGState h g 2).hubEvent h 10 else s)
  else if all then (if st = 3 then (s.setGState h g 2).hubEvent h 10 else s)
  else if some_ then (if st = 2 then (s.setGState h g 3).hubEvent h 10 else s)
  else ((s.setGState h g 1).stopTribs h g).hubEvent h 10

/-- The group a lane is a member of. -/
def State.laneGroup (s : State) (h : Fin 4) (j : Nat) : Option Nat :=
  (List.range 24).find? fun g => (s.members h g).contains j

/-- A lane goes to HUNT, and its group follows (R337). -/
def State.trunkHunt (s : State) (h : Fin 4) (j : Nat) : State :=
  if s.fState h j = 0 then s
  else
    let lost := decide (s.fState h j = 2)
    let s := (s.setRegFld (trkLnA h j 0) 1 0 0).setRegFld (trkLnA h j 0) 10 8 0
    let s := s.modTLane h j fun _ => {}
    let s := if lost then s.hubEvent h 9 else s
    match s.laneGroup h j with
    | some g => s.groupEval h g
    | none => s

/-- A write to TRK_Gg_CFG (R320, R342). -/
def State.trkCfgWrite (s : State) (h : Fin 4) (g : Nat) (v : Word) : State :=
  let ls := maskLanes (s.regFld (trkA h g 4) 23 0)
  if bit v 0 ∧ !(s.lanesFree h (.trunk g) ls && decide (ls.length ≤ 16)) then s.bindRefused h
  else (s.setReg (trkA h g 0) (v &&& 0x1F07F)).groupEval h g

/-- A write to TRK_Gg_LANES (R320). -/
def State.trkLanesWrite (s : State) (h : Fin 4) (g : Nat) (v : Word) : State :=
  let ls := maskLanes (fld v 23 0)
  if s.regBit (trkA h g 0) 0 ∧ !(s.lanesFree h (.trunk g) ls && decide (ls.length ≤ 16)) then s.bindRefused h
  else (s.setReg (trkA h g 4) (v &&& 0xFFFFFF)).groupEval h g

/-! Lane frames received (R336 to R338) -/

/-- Byte of an overhead symbol. -/
def ovByte (o : List (BitVec 9)) (i : Nat) : Byte := (o.getD i 0).setWidth 8

/-- The overhead's CRC passes (R336). -/
def overheadOk (o : List (BitVec 9)) : Bool :=
  decide (crc16 ((List.range 58).map fun i => ovByte o (4 + i)) = (ovByte o 62).toNat + 256 * (ovByte o 63).toNat)

/-- A marker frame names the lane's logical number and group (R336, R338). -/
def State.marker (s : State) (h : Fin 4) (g j : Nat) (o : List (BitVec 9)) : State :=
  let ok := decide ((ovByte o 6).toNat % 32 = s.regFld (trkA h g 0) 16 12)
  let l := (ovByte o 5).toNat % 16
  let s := (s.setRegFld (trkLnA h j 0) 7 4 l).modTLane h j fun t => { t with idOk := ok }
  let dup := (s.members h g).any fun k =>
    decide (k ≠ j) && decide (s.fState h k = 2) && (s.tLane h k).idOk && decide (s.logical h k = l)
  if ok && !dup then s else s.setRegBit (hubA h 3 0x8008) 1 true

/-- The skew of a lane against the members that have received the same frame (R338). -/
def State.skewCheck (s : State) (h : Fin 4) (g j : Nat) : State :=
  let me := s.tLane h j
  let ts := ((s.members h g).filter fun k => decide (s.fState h k = 2) && decide ((s.tLane h k).fn = me.fn)).map
    fun k => (s.tLane h k).arrive
  let lo := ts.foldl min me.arrive
  let hi := ts.foldl max me.arrive
  let s := s.setReg (trkA h g 16) (BitVec.ofNat 32 (min 65535 (hi - lo)))
  let bad := decide (4915 < me.arrive - lo)
  let s := s.modTLane h j fun t => { t with skewed := bad }
  if bad then (s.setRegBit (hubA h 3 0x8008) 0 true).hubEvent h 11 else s

/-- Cells of the frame that stood on lanes not usable here are counted once, with the lowest usable lane (R339). -/
def State.countLost (s : State) (h : Fin 4) (g j : Nat) : State :=
  let ok := s.rxOk h g
  let first := (List.range 16).find? fun l => ok.testBit l
  if s.usable h g j ∧ first = some (s.logical h j) then
    let lost := ((List.range 16).filter fun l => (s.tLane h j).txAct.testBit l && !ok.testBit l).length
    if lost = 0 then s else s.countUp (trkA h g 24) (127 * lost)
  else s

/-- The overhead of a lane frame of a lane IN_FRAME (R336). -/
def State.overhead (s : State) (h : Fin 4) (g j at_ : Nat) (o : List (BitVec 9)) : State :=
  let s :=
    if overheadOk o then
      let fn := (ovByte o 8).toNat + 256 * (ovByte o 9).toNat
      let s := s.modTLane h j fun t => { t with
        fn := fn, stale := 0, arrive := at_
        rxOk := (ovByte o 12).toNat + 256 * (ovByte o 13).toNat
        txAct := (ovByte o 14).toNat + 256 * (ovByte o 15).toNat }
      if fn % 16 = 0 ∧ o.getD 4 0 = 0x17C then s.marker h g j o else s
    else
      (s.countUp (trkLnA h j 8)).modTLane h j fun t => { t with
        fn := (t.fn + 1) % 65536, stale := min 4 (t.stale + 1), arrive := at_ }
  ((s.skewCheck h g j).groupEval h g).countLost h g j

/-- A lane frame of lane j: its FAW, and its overhead where the lane is IN_FRAME (R337). -/
def State.laneFrame (s : State) (h : Fin 4) (j at_ : Nat) (o : List (BitVec 9)) : State :=
  let good := decide (o.getD 1 0 = 0x9B ∧ o.getD 2 0 = 0x4E ∧ o.getD 3 0 = 0xD2)
  let a := trkLnA h j 0
  let use (t : State) : State := match t.laneGroup h j with
    | some g => t.overhead h g j at_ o
    | none => t
  match s.fState h j with
  | 0 => if good then s.setRegFld a 1 0 1 else s
  | 1 =>
    if good then use (((s.setRegFld a 1 0 2).setRegFld a 10 8 0).hubEvent h 9) else s.setRegFld a 1 0 0
  | _ =>
    if good then use (s.setRegFld a 10 8 0)
    else
      let b := s.regFld a 10 8
      if b + 1 < 4 then use ((s.setRegFld a 10 8 (b + 1)).countUp (trkLnA h j 4)) else s.trunkHunt h j

/-! Cells and tributaries (R340, R341) -/

/-- Address of TRK_TRIBt. -/
def tribA (h : Fin 4) (t : Nat) : Nat := hubA h 3 (0x9000 + 4 * t)

/-- A block of AxC tributary t is delivered: one symbol of its eAxC entry (R341). -/
def State.axcBlock (s : State) (h : Fin 4) (g t : Nat) (d : List Byte) (ts tend : Nat) : State :=
  let i := s.regFld (tribA h t) 16 8
  let w := s.ecpW h i 0
  if !(bit w 23 && !bit w 22 && bit w 21 && decide (fld w 20 16 = g) && decide (i < 384)) then s.ecpCount h 0
  else
    let u := uHead d
    match s.accept h i u ts tend none with
    | (s, none) => s
    | (s, some e) =>
      let c := s.entryCell h i
      let start := eFld d 4 2 % 1024
      let n := eFld d 6 2 % 512
      let hd := eFld d 8 1
      let wd := if hd / 16 = 0 then 16 else hd / 16
      let num := if n = 0 then c.nprb - start else n
      if 1 < hd % 16 ∨ (i < 256 ∧ c.nprb < start + num) then s.ecpCount h 2
      else s.takeSect h i g u e ts (d.take 12) ⟨start, num, decide (hd % 16 = 1), wd, d.drop 12⟩

/-- A block of tributary t is whole (R341). -/
def State.block (s : State) (h : Fin 4) (g t : Nat) (d : List Byte) (ts tend : Nat) : State :=
  if s.regBit (tribA h t) 7 then
    s.rxDeliver h (s.regFld (tribA h t) 11 8) 6 g 0 ts ((d.drop 2).take (eFld d 0 2))
  else s.axcBlock h g t d ts tend

/-- A data cell of tributary t whose CRC passes (R340). -/
def State.dataCell (s : State) (h : Fin 4) (g : Nat) (d : List Byte) : State :=
  let t := eFld d 0 1
  let w := s.reg (tribA h t)
  let now := (s.replica (.hub h)).toNat
  if t = 255 ∨ bit w 0 = false ∨ bit w 1 = true ∨ fld w 6 2 ≠ g then s
  else
    let fl := d.getD 1 0
    let x := sget (fun _ => {}) s.hubs[h].tribRx t
    let seq := fld fl 7 4
    let body := (d.drop 2).take 60
    let nx := (seq + 1) % 16
    let y : TribRx :=
      if bit fl 0 then ⟨true, body, nx, now⟩
      else if x.started ∧ seq = x.next then ⟨true, x.data ++ body, nx, x.ts⟩
      else {}
    let keep := if bit fl 1 then ({} : TribRx) else y
    let s := s.modHub h fun b => { b with tribRx := sset (fun _ => {}) b.tribRx t keep }
    if y.started ∧ bit fl 1 then s.block h g t y.data y.ts now else s

/-- A cell received on lane j (R340). -/
def State.cellRx (s : State) (h : Fin 4) (g j : Nat) (c : List (BitVec 9)) : State :=
  if c.getD 0 0 = 0x1FB then s.countUp (trkLnA h j 12)
  else
    let d := c.map fun x => x.setWidth 8
    if crc16 (d.take 62) = eFld d 62 2 then s.dataCell h g d else s.countUp (trkA h g 20)

/-- The cells of a block of tributary t, with SEQ from `seq` (R340). -/
def blockCells (t seq : Nat) (d : List Byte) : List (List Byte) :=
  let n := max 1 (ceilDiv d.length 60)
  (List.range n).map fun i =>
    let p := (d.drop (60 * i)).take 60
    let fl := (if i = 0 then 1 else 0) + (if i + 1 = n then 2 else 0) + 16 * ((seq + i) % 16)
    let b := [BitVec.ofNat 8 t, BitVec.ofNat 8 fl] ++ p ++ List.replicate (60 - p.length) 0
    b ++ toBytes 2 (crc16 b)

/-- A block is ready to be sent on tributary t (R340). -/
def State.queueBlock (s : State) (h : Fin 4) (t : Nat) (d : List Byte) : State :=
  let seq := sget (fun _ => 0) s.hubs[h].tribSeq t
  let cs := blockCells t seq d
  s.modHub h fun b => { b with
    tribTx := upd (fun _ => []) b.tribTx t (· ++ cs)
    tribSeq := sset (fun _ => 0) b.tribSeq t ((seq + cs.length) % 16) }

/-! Frames sent (R336, R339, R340) -/

/-- RX_OK of the far end, from the lowest logical lane whose overhead passed in the last four frames. -/
def State.farRxOk (s : State) (h : Fin 4) (g : Nat) : Option Nat :=
  let ms := (s.members h g).filter fun j => decide (s.fState h j = 2) && decide ((s.tLane h j).stale < 4)
  (ms.foldl (fun (b : Option Nat) j => match b with
    | none => some j
    | some k => if s.logical h j < s.logical h k then some j else some k) none).map fun j => (s.tLane h j).rxOk

/-- The active set: configured members, by their place among the members, that the far end can use (R339). -/
def State.activeSet (s : State) (h : Fin 4) (g : Nat) : List Nat :=
  let all := List.range (s.members h g).length
  match s.farRxOk h g with
  | none => all
  | some v =>
    let a := all.filter fun i => v.testBit i
    if a.isEmpty then all else a

/-- A cell that fills a slot (R340): 64 symbols. -/
def fillCell (compat : Bool) : List (BitVec 9) :=
  if compat then
    let b : List Byte := [0xFF] ++ List.replicate 61 0
    (b ++ toBytes 2 (crc16 b)).map fun x => x.setWidth 9
  else 0x1FB :: List.replicate 63 0

/-- Overhead symbols 4 to 61 of a lane frame (R336). -/
def State.ovBody (s : State) (h : Fin 4) (g i fn act : Nat) : List Byte :=
  let m := fn % 16 = 0
  let b (c : Prop) [Decidable c] (x : Nat) : Byte := if c then BitVec.ofNat 8 x else 0
  let rdi := if s.gState h g = 2 ∨ s.gState h g = 3 then 0 else 1
  let spill := sget (fun _ => 0) s.hubs[h].spills ((s.members h g).getD i 0)
  [b m 0x7C, b m i, b m (s.regFld (trkA h g 0) 16 12), b m (s.members h g).length] ++ toBytes 2 fn ++
    [BitVec.ofNat 8 rdi, BitVec.ofNat 8 (min 127 spill)] ++ toBytes 2 (s.rxOk h g) ++ toBytes 2 act ++ List.replicate 46 0

/-- The 64 overhead symbols. -/
def State.ovSymbols (s : State) (h : Fin 4) (g i fn act : Nat) : List (BitVec 9) :=
  let b := s.ovBody h g i fn act
  let k4 : BitVec 9 := if fn % 16 = 0 then 0x17C else 0
  [0x1BC, 0x9B, 0x4E, 0xD2, k4] ++ ((b.drop 1) ++ toBytes 2 (crc16 b)).map fun x => x.setWidth 9

/-- Tributaries that group g transmits, in order. -/
def State.txTribs (s : State) (h : Fin 4) (g : Nat) : List Nat :=
  (List.range 255).filter fun t =>
    let w := s.reg (tribA h t)
    bit w 0 && bit w 1 && decide (fld w 6 2 = g)

/-- Cells ready in a group, lowest-numbered tributary first. -/
def State.readyCells (s : State) (h : Fin 4) (g : Nat) : List (Nat × List Byte) :=
  (s.txTribs h g).flatMap fun t => (sget (fun _ => []) s.hubs[h].tribTx t).map fun c => (t, c)

/-- A frame of a group: its active set, the cells of its tributaries, one lane frame for each member (R336, R339, R340). -/
def State.trunkFrame (s : State) (h : Fin 4) (g : Nat) : State :=
  let ms := s.members h g
  let act := s.activeSet h g
  let av := act.foldl (fun v i => v ||| 2 ^ i) 0
  let up := decide (s.gState h g = 2 ∨ s.gState h g = 3)
  let fn := sget (fun _ => 0) s.hubs[h].groupFn g
  let cs := if up then (s.readyCells h g).take (127 * act.length) else []
  let s0 := s
  let s := s.setRegFld (trkA h g 12) 15 0 av
  let s := cs.foldl (fun t c => t.modHub h fun b => { b with tribTx := upd (fun _ => []) b.tribTx c.1 (·.drop 1) }) s
  let out := (List.range ms.length).foldl (fun (t : State) i =>
    let place := act.findIdx? (· = i)
    let cell (k : Nat) : Option (List Byte) := match place with
      | some p => (cs[k * act.length + p]?).map (·.2)
      | none => none
    let body := (List.range 127).flatMap fun k => match cell k with
      | some c => c.map fun x => x.setWidth 9
      | none => fillCell s.compat
    let empty := ((List.range 127).filter fun k => (cell k).isNone).length
    let j := ms.getD i 0
    (t.hubSend h j (s0.ovSymbols h g i fn av ++ body)).modHub h fun b => { b with
      spills := sset (fun _ => 0) b.spills j (if s.compat then 0 else empty) }) s
  out.modHub h fun b => { b with groupFn := sset (fun _ => 0) b.groupFn g ((fn + 1) % 65536) }

/-! Commands -/

/-- TRUNK_LANE_FRAME_RX on lane j of hub h: the symbol time of its FAW and its 64 overhead symbols (R337). -/
def execTrunkLaneFrameRx (h : Fin 4) (j : Fin 24) (time : Nat) (overhead : List (BitVec 9)) (s : State) : Out :=
  act s (s.rfabOn h.val = true ∧ s.hubRate h j.val = 9 ∧ s.hubStatus h j.val 2 = true ∧ overhead.length = 64) fun s =>
    s.laneFrame h j.val time overhead

/-- TRUNK_FRAME_TX of group g of hub h (R339). -/
def execTrunkFrameTx (h : Fin 4) (g : Fin 24) (s : State) : Out :=
  act s (s.rfabOn h.val = true ∧ s.members h g.val ≠ []) fun s => s.trunkFrame h g.val

/-- TRUNK_CELL_RX of 64 symbols on lane j of hub h (R340). -/
def execTrunkCellRx (h : Fin 4) (j : Fin 24) (cell : List (BitVec 9)) (s : State) : Out :=
  match s.laneGroup h j.val with
  | none => .next s
  | some g => act s (s.rfabOn h.val = true ∧ 2 ≤ s.gState h g ∧ s.usable h g j.val = true ∧ cell.length = 64) fun s =>
      s.cellRx h g j.val cell

end Sys2Proof.Machine
end

