-- ==== Sys2Proof/Machine/Boot.lean ====
section
/-! DEFINITION. Start-up, images, fuses, operating modes and the mailbox (16_startup_images_modes.md, 18_events_host_management.md
R423 to R425), and the resets (16 R370, 19_package_electrical.md R434, R435, R444, R445). -/

namespace Sys2Proof.Machine

/-- Address of a BOOT_ or FUSE_ register. -/
def bootA (off : Nat) : Nat := Block.boot.base + off

/-- Address of an MBX_ register. -/
def mbxA (off : Nat) : Nat := Block.mbx.base + off

/-- The state with the boot's own state changed. -/
def State.modBoot (s : State) (f : Boot → Boot) : State := { s with boot := f s.boot }

/-- BOOT_STATUS.PHASE set. -/
def State.setPhase (s : State) (p : Nat) : State := s.setRegFld (bootA 0x10) 2 0 p

/-- BOOT_STATUS.REASON set. -/
def State.setReason (s : State) (r : Nat) : State := s.setRegFld (bootA 0x10) 11 4 r

/-- A time register of the boot takes a value; the device's own clock is not modelled during boot, so it is a free value. -/
def State.bootTime (s : State) (off : Nat) : State := s.draw.setReg (bootA off) (BitVec.ofNat 32 (s.free 0))

/-! Images (R373 to R376) -/

/-- A little-endian field of an image. -/
def imgLe (l : List Byte) (o n : Nat) : Nat := ofBytes ((l.drop o).take n)

/-- A record of an image (R374). -/
structure ImgRec where
  ty : Nat
  level : Nat
  off : Nat
  size : Nat
  crc : Nat
  dest : Nat
  steps : Nat
  deriving DecidableEq, Repr

/-- Record i of an image. -/
def imgRec (l : List Byte) (i : Nat) : ImgRec :=
  let o := 64 + 32 * i
  ⟨imgLe l o 2, imgLe l (o + 2) 2, imgLe l (o + 4) 4, imgLe l (o + 8) 4, imgLe l (o + 12) 4, imgLe l (o + 16) 5, imgLe l (o + 21) 1⟩

/-- Bytes of an image: LENGTH, and NREC. -/
def imgLen (l : List Byte) : Nat := imgLe l 8 4

/-- Records of an image. -/
def imgRecs (l : List Byte) : List ImgRec := (List.range (imgLe l 16 2)).map (imgRec l)

/-- Data of a record. -/
def ImgRec.data (x : ImgRec) (l : List Byte) : List Byte := (l.drop x.off).take x.size

/-- The header is valid (R376). -/
def headerOk (l : List Byte) : Bool :=
  let n := imgLen l
  let x := imgRec l 0
  decide (imgLe l 0 4 = 0x464D5449) && decide (imgLe l 4 4 = 0x00010000) && decide (4096 ≤ n ∧ n ≤ 33554432 ∧ n % 64 = 0) &&
  decide (1 ≤ imgLe l 16 2 ∧ imgLe l 16 2 ≤ 64) && decide (x.ty = 1) && decide (fcs (x.data l) = x.crc)

/-- Two regions share a byte. -/
def regionsMeet (a n b m : Nat) : Bool := decide (a < b + m ∧ b < a + n ∧ 0 < n ∧ 0 < m)

/-- Some two of a list are related. -/
def anyPair {α : Type} (f : α → α → Bool) : List α → Bool
  | [] => false
  | x :: xs => xs.any (f x) || anyPair f xs

/-- A record type's number of records is in its range (R374). -/
def countsOk (rs : List ImgRec) : Bool :=
  let n (t : Nat) : Nat := (rs.filter fun r => decide (r.ty = t)).length
  decide (n 1 = 1 ∧ n 2 = 1 ∧ n 3 = 1 ∧ n 4 = 1 ∧ n 5 = 1 ∧ n 6 ≤ 4 ∧ n 7 ≤ 16) && rs.all fun r => decide (1 ≤ r.ty ∧ r.ty ≤ 7)

/-- The image's records are right (R374, R375); records with type bit 15 set are ignored. -/
def recordsOk (l : List Byte) : Bool :=
  let rs := (imgRecs l).filter fun r => decide (r.ty < 32768)
  let ds := rs.filter fun r => decide (r.dest ≠ 0)
  countsOk rs && !anyPair (fun a b => regionsMeet a.off a.size b.off b.size) rs &&
  rs.all (fun r => decide (r.off + r.size ≤ imgLen l - 128)) &&
  !anyPair (fun a b => regionsMeet a.dest a.size b.dest b.size) ds &&
  ds.all (fun r => decide (r.dest + r.size ≤ 0x800000000) && !regionsMeet r.dest r.size 0x3F0000000 0x10000000)

/-- FUSE_KEYHASHk as bytes. -/
def State.keyHash (s : State) (k : Nat) : List Byte :=
  (List.range 8).flatMap fun w => toBytes 4 (s.reg (bootA (0x8100 + 0x20 * k + 4 * w))).toNat

/-- Why the ROM rejects an image, by BOOT_STATUS.REASON; none where it is accepted (R375, R378, R380). -/
def State.imageReject (s : State) (l : List Byte) : Option Nat :=
  let n := imgLen l
  let k := imgLe l 18 1
  let pub := (l.drop (n - 128)).take 64
  let num (o : Nat) : Nat := beNat ((l.drop (n - 128 + 32 * o)).take 32)
  if recordsOk l = false then some 3
  else if 4 ≤ k ∨ s.keyHash k = List.replicate 32 0 ∨ s.keyHash k ≠ sha256 pub then some 5
  else if s.regBit (bootA 0x8000) (4 + k) then some 6
  else if ecdsaOk (num 0) (num 1) (num 2) (num 3) (l.take (n - 64)) = false then some 7
  else if ((imgRecs l).filter fun r => decide (r.ty < 32768)).all (fun r => decide (fcs (r.data l) = r.crc)) = false then some 4
  else none

/-- Bytes of a slot of the flash. -/
def State.slotBytes (s : State) (k : Nat) : List Byte := s.bytes (spaceFlash + 0x2000000 * k) 0x2000000

/-- The slot's header is valid. -/
def State.slotOk (s : State) (k : Nat) : Bool := headerOk (s.slotBytes k)

/-- Of two sequence numbers, b is newer than a (R376). -/
def newer (a b : Nat) : Bool := decide (1 ≤ (b + 2 ^ 32 - a) % 2 ^ 32 ∧ (b + 2 ^ 32 - a) % 2 ^ 32 < 2 ^ 31)

/-- A holdover copy of the flash: its bytes, and whether it is valid (R377). -/
def State.holdCopy (s : State) (i : Nat) : List Byte := s.bytes (spaceFlash + 0x4000000 + 0x1000 * i) 28

/-- The copy is valid. -/
def holdOk (l : List Byte) : Bool := decide (imgLe l 0 4 = 0x484F4C44) && decide (fcs (l.take 24) = imgLe l 24 4)

/-- The newer valid holdover copy. -/
def State.holdBest (s : State) : Option Nat :=
  let a := s.holdCopy 0
  let b := s.holdCopy 1
  match holdOk a, holdOk b with
  | true, true => some (if newer (imgLe a 4 4) (imgLe b 4 4) then 1 else 0)
  | true, false => some 0
  | false, true => some 1
  | false, false => none

/-- The DAC record of a slot is applied (R377, R393). -/
def State.applyDac (s : State) (k : Nat) (held : Bool) : State :=
  let l := s.slotBytes k
  let codes := s.holdBest.map fun i => (List.range 8).map fun c => imgLe (s.holdCopy i) (8 + 2 * c) 2
  s.dacRecord ((imgRec l 0).data l) codes held

/-- BOOTSEL as it acts: 3 acts as 0 where the CAP is closed (R371). -/
def State.bootSel (s : State) : Nat :=
  let b := s.regFld (bootA 4) 2 1
  if b = 3 ∧ s.regBit (bootA 0x8000) 0 = true then 0 else b

/-- The slot the ROM boots first (R376). -/
def State.firstSlot (s : State) : Option Nat :=
  let v (k : Nat) : Option Nat := if s.slotOk k then some k else none
  match s.bootSel with
  | 1 => v 0
  | 2 => v 1
  | 3 => v 0
  | _ =>
    if s.slotOk 0 && s.slotOk 1 then
      some (if newer (imgLe (s.slotBytes 0) 12 4) (imgLe (s.slotBytes 1) 12 4) then 1 else 0)
    else if s.slotOk 0 then some 0 else v 1

/-- The ROM stops: no slot can be booted (R377, R378). -/
def State.romHalt (s : State) (reason : Nat) : State :=
  ((s.setReason reason).setPhase 7).dacAllLatched

/-- The ROM's first steps: headers and holdover copies read, the DAC record applied (R376 to R378). `flash` says that the flash
answers, `held` that outputs and the reservoir were kept through SYSRST_N. -/
def State.romStart (s : State) (flash held : Bool) : State :=
  let s := (s.setPhase 2).modBoot fun b => { b with wait := decide (s.bootSel = 3) }
  if flash = false then s.romHalt 1
  else match s.firstSlot with
  | none => if s.boot.wait then s.setPhase (if held then 4 else 3) else s.romHalt 2
  | some k =>
    let s := (s.modBoot fun b => { b with slot := some k }).applyDac k held
    let s := ((s.setRegBit (bootA 0x10) 3 true).setRegBit (bootA 0x10) 12 (decide (k = 1))).bootTime 0x14
    s.setPhase (if held then 4 else 3)

/-- A slot is rejected with a reason: the other slot is booted, or the ROM stops (R376 to R378). -/
def State.slotReject (s : State) (k reason : Nat) : State :=
  let s := (s.setReason reason).modBoot fun b => { b with tried := b.tried ++ [k] }
  let o := 1 - k
  if s.bootSel = 0 ∧ s.slotOk o = true ∧ o ∉ s.boot.tried then
    let s := (s.modBoot fun b => { b with slot := some o }).applyDac o true
    (((s.setRegBit (bootA 0x10) 15 true).setRegBit (bootA 0x10) 12 (decide (o = 1)))).raise 1987
  else (s.modBoot fun b => { b with slot := none }).romHalt reason

/-- The image is copied to a staging area of the Summit region; where that lies is Summit's own (free value). -/
def State.stageImage (s : State) (l : List Byte) : State :=
  let n := (0x10000000 - l.length) / 64 + 1
  s.draw.postWrite .bootRom (0x3F0000000 + 64 * (s.free 0 % n)) l

/-! Operating modes (R385 to R387) -/

/-- Ranges a mode takes off. -/
def State.offRanges (s : State) (m : Nat) : Nat :=
  if m = 5 then s.boot.trim.toNat else if m = 6 then 15 - s.boot.night.toNat else if m = 7 then 14 else 0

/-- FORCE that a mode applies to a domain; none: as it is (R385, R386). -/
def State.modeForce (s : State) (m d : Nat) : Option Nat :=
  let off := s.offRanges m
  let array := decide (d < 24 ∨ (56 ≤ d ∧ d < 60))
  if m = 8 ∨ m = 11 ∨ (24 ≤ d ∧ d < 48) then none
  else if m = 10 then (if s.dom d = 0 then some 0 else none)
  else if m = 3 ∨ m = 9 then some (if array then 4 else 7)
  else if 60 ≤ d then
    (if m = 7 ∨ (off.testBit (2 * (d - 60)) ∧ off.testBit (2 * (d - 60) + 1)) then some 2 else some 7)
  else if off.testBit ((domRange d).getD 0) then some 4
  else if m = 7 then some (if array then 4 else if d = 52 then 3 else 7)
  else some 7

/-- FORCE set by Summit, MAXDEPTH kept. -/
def State.setForce (s : State) (d f : Nat) : State :=
  if s.domPresent d then s.forceWrite d (BitVec.ofNat 32 (f + 16 * s.maxDepth d)) else s

/-- Dispatchers, and with `all` engines and BFAs, are disabled, and every schedule (R385). -/
def State.stopData (s : State) (all : Bool) : State :=
  let rs := (List.finRange 4).filter fun r => s.hasRange r.val
  let s := rs.foldl (fun t r => if t.rinfOn r.val then t.setRegBit (dptA r 4) 0 false else t) s
  let s := rs.foldl (fun t h => (List.finRange 16).foldl (fun u i =>
    if u.regBit (schA h i.val 0) 0 then u.schCfgWrite h i (setBit (u.reg (schA h i.val 0)) 0 false) else u) t) s
  if all then
    let es : List EngId := (List.finRange 24).flatMap (fun n => [.codec n, .fft n, .eq n]) ++ rs.flatMap (fun r => [.turbo r, .nbe r])
    let s := es.foldl (fun t e => if t.engEn e then t.engCtl e (setBit (t.reg (engA e 4)) 0 false) else t) s
    rs.foldl (fun t r => if t.regBit (bfaA r 4) 0 then t.bfaCtl r (setBit (t.reg (bfaA r 4)) 0 false) else t) s
  else
    rs.foldl (fun t h =>
      let t := (List.range 64).foldl (fun u a => u.setRegBit (hubA h 3 (0x1000 + 0x10 * a)) 0 false) t
      (List.range 255).foldl (fun u a => u.setRegBit (tribA h a) 0 false) t) s

/-- Hub 0's limits: OFF in STANDBY, and as they were when it is left (R385). -/
def State.standbyLimits (s : State) (m : Nat) : State :=
  let a := slcA 0x500
  match s.boot.limits with
  | none =>
    if m = 7 then
      let s := s.modBoot fun b => { b with limits := some (s.reg a, s.reg (a + 4)) }
      ((s.setReg a 0xFFFFFFFF).setReg (a + 4) 0xFFFF).applyLimits 0
    else s
  | some (x, y) =>
    if m = 7 then s
    else (((s.setReg a x).setReg (a + 4) y).modBoot fun b => { b with limits := none }).applyLimits 0

/-- Summit begins a change of mode: TARGET and PENDING, the mode's settings (R385, R387). -/
def State.startMode (s : State) (m : Nat) : State :=
  let s := s.setReg (bootA 0x20) (BitVec.ofNat 32 (s.mode + 16 * m + 256))
  let s := if m = 3 ∨ m = 7 ∨ m = 9 then s.stopData true else if m = 10 then s.stopData false else s
  let s := if m = 10 then s.forceSafe 0xFF else s
  let s := s.standbyLimits m
  (List.range 62).foldl (fun t d => match s.modeForce m d with
    | some f => t.setForce d f
    | none => t) s

/-- The domain is where its FORCE puts it. -/
def State.forceDone (s : State) (d : Nat) : Bool :=
  match s.force d with
  | some f => !s.domPresent d || decide (24 ≤ d ∧ d < 48) || (decide (s.dom d = f) && (s.txn d).isNone)
  | none => true

/-! The mailbox (18_events_host_management.md R423, R424) -/

/-- MBX_BASE. -/
def State.mbxBase (s : State) : Nat := s.reg64 (mbxA 8)

/-- A field of the mailbox header. -/
def State.mbxHdr (s : State) (o : Nat) : Nat := s.settled.leAt (s.mbxBase + o) 2

/-- Summit serves the mailbox. -/
def State.mbxReady (s : State) : Bool := s.regBit (mbxA 4) 0

/-- The request Summit serves next: its 64 bytes. -/
def State.mbxHead (s : State) : Option (List Byte) :=
  let cons := s.mbxHdr 8
  if s.mbxReady = true ∧ s.regFld (mbxA 0x18) 15 0 ≠ cons then some (s.settled.bytes (s.mbxBase + 64 + 64 * (cons % max 1 (s.mbxHdr 4))) 64)
  else none

/-- The Summit-to-host ring has room for a message. -/
def State.mbxRoom (s : State) : Bool :=
  decide ((s.regFld (mbxA 0x1C) 15 0 + 65536 - s.mbxHdr 10) % 65536 < s.mbxHdr 6)

/-- A message of Summit, with its doorbell and event 1997; without room it is not sent. -/
def State.mbxSend (s : State) (opcode status tag : Nat) (args : List Byte) : State :=
  if s.mbxReady && s.mbxRoom then
    let p := s.regFld (mbxA 0x1C) 15 0
    let a := s.mbxBase + 64 + 64 * s.mbxHdr 4 + 64 * (p % max 1 (s.mbxHdr 6))
    let m := toBytes 2 opcode ++ toBytes 2 status ++ toBytes 4 tag ++ (args ++ List.replicate 56 0).take 56
    ((s.postWrite .summitCtl a m).setReg (mbxA 0x1C) (BitVec.ofNat 32 ((p + 1) % 65536))).raise 1997
  else s

/-- An unsolicited notice; the layout of its arguments is not given (free values). -/
def State.notice (s : State) : State := s.draw.mbxSend 0x8001 0 0 ((List.range 56).map fun i => BitVec.ofNat 8 (s.free i))

/-- Word i of a message's arguments. -/
def mbxArg (m : List Byte) (i : Nat) : Nat := imgLe m (8 + 4 * i) 4

/-- Summit takes the request at the head and answers it: state, STATUS and result from `f`. -/
def State.mbxServe (s : State) (m : List Byte) (f : State → State × Nat × List Byte) : State :=
  let s := s.postWrite .summitCtl (s.mbxBase + 8) (toBytes 2 (s.mbxHdr 8 + 1))
  let q := f s
  q.1.mbxSend (imgLe m 0 2) q.2.1 (imgLe m 4 4) q.2.2

/-- Opcodes of requests (R424). -/
def mbxKnown (op : Nat) : Bool := decide (1 ≤ op ∧ op ≤ 7)

/-- A host producer index: stored with event 1996; one beyond the ring is discarded and answered with RING_ERROR (R423). -/
def State.h2sDoorbell (s : State) (v : Word) : State :=
  let i := fld v 15 0
  let s := s.raise 1996
  if s.mbxReady = true ∧ s.mbxHdr 4 < (i + 65536 - s.mbxHdr 8) % 65536 then s.mbxSend 0xFFFF 0 0 []
  else s.setReg (mbxA 0x18) (BitVec.ofNat 32 i)

/-- A Summit producer index: stored with event 1997. -/
def State.s2hDoorbell (s : State) (v : Word) : State := (s.setReg (mbxA 0x1C) (BitVec.ofNat 32 (fld v 15 0))).raise 1997

/-- A host request may take the device from a mode to a mode (R387). -/
def modeAllowed (m t : Nat) : Bool :=
  if m = 4 ∨ m = 5 ∨ m = 6 then decide (t ∈ [4, 5, 6, 7, 8, 2, 3])
  else if m = 7 then decide (t ∈ [4, 5, 6])
  else if m = 3 then decide (t ∈ [2, 9])
  else if m = 9 then decide (t = 3)
  else if m = 10 then decide (t = 3)
  else false

/-- The device leaves STANDBY, or Summit serves a request for a mode: through SYNC-ACQUIRE while it is not aligned (R387). -/
def State.goMode (s : State) (t : Nat) : State :=
  let s := if t = 8 then s.modBoot fun b => { b with back := s.mode } else s
  if s.mode = 7 ∧ s.regBit (tbA 4) 2 = false then (s.modBoot fun b => { b with final := t }).startMode 2
  else (s.modBoot fun b => { b with final := 4 }).startMode t

/-- Causes of SAFE act in the modes the table lists (R387). -/
def State.toSafe (s : State) : State := if s.mode ∈ [2, 4, 5, 6, 8] ∧ ¬(s.regBit (bootA 0x20) 8 = true ∧ s.modeTarget = 10) then s.startMode 10 else s

/-- A write to BOOT_MODE (R385): with an unused code it is ignored whole. -/
def State.bootModeWrite (s : State) (v : Word) : State :=
  if 12 ≤ fld v 3 0 ∨ 12 ≤ fld v 7 4 then s
  else
    let m := s.mode
    let s := s.setReg (bootA 0x20) (v &&& 0x1FF)
    s.raiseIf (decide (s.mode ≠ m)) 1984

/-- A write to FUSE_REVOKE (R381). -/
def State.fuseRevoke (s : State) (v : Word) : State :=
  let b := fld v 3 0
  if (match s.boot.key with
    | some k => b.testBit k
    | none => false) then s
  else
    let s := s.setReg (bootA 0x8004) (s.reg (bootA 0x8004) ||| BitVec.ofNat 32 b)
    let old := s.reg (bootA 0x8000)
    let t := s.setReg (bootA 0x8000) (old ||| BitVec.ofNat 32 (16 * b))
    t.raiseIf (decide (t.reg (bootA 0x8000) ≠ old)) 1991

/-- Bytes erased in the flash: a header sector of 4 KiB reads 0xFF. -/
def State.eraseHeader (s : State) (k : Nat) : State := s.setBytes (spaceFlash + 0x2000000 * k) (List.replicate 4096 0xFF)

/-- The level and stepping of an image are accepted by Summit: `listed` says that its table lists the pair (R382, R383). The answer:
the REASON that stops it, and whether a record was used. -/
def imagePair (l : List Byte) (listed : Bool) : Option Nat × Bool :=
  let rs := imgRecs l
  let lv (t : Nat) : Nat := ((rs.find? fun r => decide (r.ty = t)).map ImgRec.level).getD 0
  let steps := ((rs.find? fun r => decide (r.ty = 2)).map ImgRec.steps).getD 0
  let acc := (rs.filter fun r => decide (r.ty = 6)).map fun r => r.data l
  let pairAcc := acc.any fun d => decide (imgLe d 0 2 = lv 2 ∧ imgLe d 2 2 = lv 4)
  let stepAcc := acc.any fun d => decide (imgLe d 0 2 = lv 2) && (imgLe d 4 1).testBit 1
  let stepOk := steps.testBit 1
  if !listed && !pairAcc then (some 8, false)
  else if !stepOk && !stepAcc then (some 9, false)
  else (none, !listed || !stepOk)

/-! Resets (R370, R434, R435, R444, R445) -/

/-- Entries of a list kept in the state whose address lies in a region. -/
def keepIn {α : Type} (l : List (Nat × α)) (a b : Nat) : List (Nat × α) := l.filter fun e => decide (a ≤ e.1 ∧ e.1 < b)

/-- The device held in reset as PORST_N holds it: fuses and flash are kept, all else is at reset (R370). -/
def State.porst (s : State) (c : ResetCause) : State :=
  { State.reset with
    part := s.part
    held := some c
    thermTrip := s.thermTrip
    pending := s.pending
    regs := keepIn s.regs (bootA 0x8000) (bootA 0x8004) ++ keepIn s.regs (bootA 0x8008) (bootA 0x9000)
    mem := keepIn s.mem spaceFlash (spaceFlash + 2 ^ 40)
    out := s.out
    planGen := s.freeCtr
    freeCtr := s.freeCtr + 1 }

/-- Registers that SYSRST_N keeps: straps, fuses, the outputs and safe values of the DAC, the timebase's epoch, frame offset,
rate, and the reservoir's readiness (R370). -/
def State.sysKept (s : State) : List (Nat × Word) :=
  keepIn s.regs (tbA 0x28) (tbA 0x38) ++ keepIn s.regs (tbA 0x40) (tbA 0x44) ++
  keepIn s.regs (bootA 4) (bootA 8) ++ keepIn s.regs (bootA 0x8000) (bootA 0x8004) ++ keepIn s.regs (bootA 0x8008) (bootA 0x9000) ++
  (List.finRange 8).flatMap fun c => keepIn s.regs (dacA c 0xC) (dacA c 0x10) ++ keepIn s.regs (dacA c 0x14) (dacA c 0x18)

/-- The device held in reset as SYSRST_N holds it. -/
def State.sysrst (s : State) : State :=
  let t : State := { State.reset with
    part := s.part
    held := some .sysrst
    thermTrip := s.thermTrip
    pending := s.pending
    regs := s.sysKept
    mem := keepIn s.mem 0 (2 ^ 35) ++ keepIn s.mem spaceFlash (spaceFlash + 2 ^ 40)
    prot := { State.reset.prot with
      cwErr := keepIn s.prot.cwErr 0 (2 ^ 30)
      poison := keepIn s.prot.poison 0 (2 ^ 30) }
    tb := { s.tb with slew := 0, waitLoad := none, divNew := none, divFrame := 0, div := 0x1000 }
    out := s.out
    planGen := s.freeCtr
    freeCtr := s.freeCtr + 1 }
  let t := t.setReg (tbA 4) (s.reg (tbA 4) &&& 7)
  let t := (List.range 2).foldl (fun u i => u.setReg (stackA i + 4) (s.reg (stackA i + 4) &&& 5 ||| 1)) t
  (List.finRange 8).foldl (fun u c =>
    if s.dacState c = 0 then u
    else (u.setReg (dacA c 4) (BitVec.ofNat 32 (s.dacState c + 4))).setReg (dacA c 0) ((s.reg (dacA c 0) &&& 0xC0) ||| 0x20)) t

/-- Every scrubber begins its first lap (10_memory_protection.md R249). -/
def State.lapsBegin (s : State) : State :=
  { s with prot := { s.prot with lapStart := (List.range 26).foldl (fun l k => sset (fun _ => 0) l k s.tb.cycles) s.prot.lapStart } }

/-- Straps are sampled and the ROM starts (R370, R371, R378). -/
def State.bootRelease (s : State) (straps : Option (BitVec 3)) (flash : Bool) : State :=
  let s := { s with held := none }.lapsBegin
  let s := match straps with
    | some v => s.setReg (bootA 4) (BitVec.ofNat 32 v.toNat)
    | none => s
  s.romStart flash straps.isNone

/-! Commands: resets -/

/-- PORST_ASSERT (R435, R445). -/
def execPorstAssert (s : State) : Out := .next (if s.held = some .supply then s else s.porst .porst)

/-- PORST_RELEASE with the straps sampled; `cool` says that every sensor is below 110 °C, without which a thermal trip stays (R370,
R371, R444). -/
def execPorstRelease (straps : BitVec 3) (flash cool : Bool) (s : State) : Out :=
  .next (if s.held = some .porst then
    (if s.thermTrip && !cool then { s with held := some .therm } else { s with thermTrip := false }.bootRelease (some straps) flash)
  else s)

/-- SYSRST_ASSERT (R370, R445). -/
def execSysrstAssert (s : State) : Out := .next (if s.held = none then s.sysrst else s)

/-- SYSRST_RELEASE (R370). -/
def execSysrstRelease (flash : Bool) (s : State) : Out := .next (if s.held = some .sysrst then s.bootRelease none flash else s)

/-- SUPPLY_BROWNOUT: VDD_AON or VIN_IVR is out of range, the device resets as on PORST_N (R434). -/
def execSupplyBrownout (s : State) : Out := .next (s.porst .supply)

/-- SUPPLY_RECOVERY: boot restarts, unless a thermal trip holds the device (R434, R444). -/
def execSupplyRecovery (straps : BitVec 3) (flash : Bool) (s : State) : Out :=
  .next (if s.held = some .supply then
    (if s.thermTrip then { s with held := some .therm } else s.bootRelease (some straps) flash) else s)

/-- THERM_TRIP: THERM_TRIP_N is driven low and the device stays in reset (R444). -/
def execThermTrip (s : State) : Out := .next ({ s with thermTrip := true }.porst (s.held.getD .therm))

/-! Commands: boot -/

/-- SIGNATURE_CHECK of the slot being booted (R374 to R380). -/
def execSignatureCheck (s : State) : Out :=
  match s.boot.slot with
  | none => .next s
  | some k => act s (s.regFld (bootA 0x10) 2 0 = 4 ∧ s.boot.wait = false) fun s =>
    let l := (s.slotBytes k).take (imgLen (s.slotBytes k))
    let s := s.stageImage l
    match s.imageReject l with
    | some r => s.slotReject k r
    | none =>
      let s := (s.setPhase 5).setReg (bootA 0x28) (BitVec.ofNat 32 (imgLe l 12 4))
      s.modBoot fun b => { b with key := some (imgLe l 18 1) }

/-- SUMMIT_START: `listed` says that Summit's table lists the pair; Summit writes the mailbox header at `mbx` with ring sizes 2^(4 + h2s)
and 2^(4 + s2h) and serves it (R378, R382, R383, 18 R423). -/
def execSummitStart (listed : Bool) (mbx : BitVec 22) (h2s s2h : Fin 5) (s : State) : Out :=
  match s.boot.slot with
  | none => .next s
  | some k => act s (s.regFld (bootA 0x10) 2 0 = 5 ∧ s.mode = 1 ∧ s.reg (bootA 0x24) = 0) fun s =>
    let l := (s.slotBytes k).take (imgLen (s.slotBytes k))
    let rs := imgRecs l
    let lv (t : Nat) : Nat := ((rs.find? fun r => decide (r.ty = t)).map ImgRec.level).getD 0
    let s := (s.setReg (bootA 0x24) (BitVec.ofNat 32 (lv 2 + 2 ^ 16 * lv 4))).bootTime 0x18
    let base := 0x3F0000000 + 64 * mbx.toNat
    let s := s.setReg64 (mbxA 8) base
    let s := s.postWrite .summitCtl base (toBytes 4 0x4D425831 ++ toBytes 2 (2 ^ (4 + h2s.val)) ++ toBytes 2 (2 ^ (4 + s2h.val)) ++ toBytes 4 0)
    let s := s.setReg (mbxA 4) 1
    match imagePair l listed with
    | (some r, _) => (s.setReason r).startMode 3
    | (none, true) => ((s.setRegBit (bootA 0x10) 13 true).raise 1986).notice
    | (none, false) => s

/-- Records with a load address are copied there (R374, R378). -/
def State.loadRecords (s : State) (l : List Byte) : State :=
  ((imgRecs l).filter fun r => decide (r.ty < 32768 ∧ r.dest ≠ 0)).foldl (fun t r => t.postWrite .summitCtl r.dest (r.data l)) s

/-- Summit's configuration of the range engines: the functions of the turbo decoder and of the NBE written to the capability copies of
every ridge whose fabric has power (05_command_queue.md R117, 07_ridge_engines.md R161, 09_narrowband_engines.md R220). -/
def State.loadCaps (s : State) : State :=
  (List.range 24).foldl (fun t n =>
    let b := (Block.cq n).base
    if t.rfabOn (n / 6) = true ∧ t.regBit (b + 4) 0 = false then (t.setReg (b + 0x20) 0x22).setReg (b + 0x24) 0x22 else t) s

/-- BOOT_READY: runtime and microcode are placed and the device enters SYNC-ACQUIRE; with `fail`, CONFIG (0) or a load (1) failed and
it enters MAINTENANCE. `trim` and `night` are the sets of the CONFIG record (R378, R385, R387). -/
def execBootReady (fail : Option Bool) (trim night : BitVec 4) (s : State) : Out :=
  match s.boot.slot with
  | none => .next s
  | some k => act s (s.regFld (bootA 0x10) 2 0 = 5 ∧ s.mode = 1 ∧ s.reg (bootA 0x24) ≠ 0 ∧ s.regBit (bootA 0x20) 8 = false) fun s =>
    let s := s.modBoot fun b => { b with trim := trim, night := night }
    match fail with
    | some f => (s.setReason (if f then 11 else 10)).startMode 3
    | none =>
      let s := (s.loadRecords (s.slotBytes k)).loadCaps
      ((((s.setReg (bootA 0x20) 2).setPhase 6).bootTime 0x1C).raise 1984).notice

/-- CAP_START: the CAP takes over a booting device while it is open (R384, R387). -/
def execCapStart (s : State) : Out :=
  act s (s.regBit (bootA 0x8000) 0 = false ∧ s.mode = 1) fun s =>
    let s := (s.setRegBit (bootA 0x10) 14 true).raise 1990
    ((s.modBoot fun b => { b with wait := false }).setReg (bootA 0x20) 11).raise 1984

/-- FULL_ENTRY: the time source's condition of R379 holds; from STANDBY the mode asked for is entered (R379, R387). -/
def execFullEntry (s : State) : Out :=
  act s (s.mode = 2 ∧ s.regBit (bootA 0x20) 8 = false) fun s => s.startMode s.boot.final

/-- MODE_REACHED: every FORCE has reached its state (R387); an uncorrectable error in the Summit region, if one was found, then takes
the device to SAFE. -/
def execModeReached (s : State) : Out :=
  act s ((s.regBit (bootA 0x20) 8 = true ∧ (List.range 62).all (fun d => s.forceDone d) = true) ∨ s.boot.summitErr = true) fun s =>
    let s :=
      if s.regBit (bootA 0x20) 8 = true ∧ (List.range 62).all (fun d => s.forceDone d) = true then
        let m := s.mode
        let s := s.setReg (bootA 0x20) (BitVec.ofNat 32 s.modeTarget)
        let s := if m = 1 then (s.setPhase 6).bootTime 0x1C else s
        if s.mode = m then s else (s.raise 1984).notice
      else s
    if s.boot.summitErr then (s.modBoot fun b => { b with summitErr := false }).toSafe else s

/-- STANDBY_WAKE: the GPIO named by CONFIG wakes the device to FULL, TRIMMED or NIGHT (R387). -/
def execStandbyWake (m : Fin 3) (s : State) : Out :=
  act s (s.mode = 7 ∧ s.regBit (bootA 0x20) 8 = false) fun s => s.goMode (4 + m.val)

/-- SUMMIT_WATCHDOG_EXPIRY (17_housekeeping_converters.md R394, R387). -/
def execSummitWatchdogExpiry (s : State) : Out :=
  run s fun s => (if s.regBit (hkA 4) 0 then s.allSafe 1 else s).toSafe

/-- LINK_REPLAY of link l: a replay that failed or not; a link that goes DOWN takes the device to SAFE (11_leat_fabric.md R275, R387). -/
def execLinkReplay (l : Fin 72) (failed : Bool) (s : State) : Out :=
  act s (s.linkState l.val = 0) fun s =>
    let q := s.linkReplay l.val failed
    if q.2 then q.1.toSafe else q.1

/-- HOLDOVER_ENTRY: the codes of DAC0 and DAC1 are held, TB_RATE is 0 (02_device_time.md R48). -/
def execHoldoverEntry (v0 v1 : BitVec 16) (s : State) : Out :=
  run s fun s =>
    let s := (s.dacIn 0 (v0.setWidth 32)).dacIn 1 (v1.setWidth 32)
    (s.rateWrite 0).notice

/-- HOLDOVER_WRITE: Summit writes the older copy with eight codes (R377). -/
def execHoldoverWrite (codes : Vector (BitVec 16) 8) (s : State) : Out :=
  run s fun s =>
    let best := s.holdBest
    let i := 1 - best.getD 1
    let seq := match best with
      | some b => imgLe (s.holdCopy b) 4 4 + 1
      | none => 0
    let d := toBytes 4 0x484F4C44 ++ toBytes 4 seq ++ codes.toList.flatMap fun c => toBytes 2 c.toNat
    s.setBytes (spaceFlash + 0x4000000 + 0x1000 * i) (d ++ toBytes 4 (fcs d))

/-! Commands: mailbox requests (18_events_host_management.md R424) -/

/-- The request at the head has an opcode, and its answer has room. -/
def State.mbxIs (s : State) (p : Nat → Bool) : Bool :=
  s.mbxRoom && (match s.mbxHead with
    | some m => p (imgLe m 0 2)
    | none => false)

/-- The request at the head; empty where there is none. -/
def State.mbxMsg (s : State) : List Byte := s.mbxHead.getD []

/-- GET_STATUS; a request with an opcode that is none of the table's is answered BAD_OPCODE. -/
def execGetStatus (s : State) : Out :=
  act s (s.mbxIs (fun op => decide (op = 1) || !mbxKnown op) = true) fun s =>
    s.mbxServe s.mbxMsg fun t =>
      if imgLe s.mbxMsg 0 2 ≠ 1 then (t, 1, [])
      else (t.draw, 0, toBytes 4 (t.reg (bootA 0x20)).toNat ++ toBytes 4 (t.reg (bootA 0x10)).toNat ++ toBytes 4 (t.reg (bootA 0x24)).toNat ++
        toBytes 4 (t.free 0))

/-- SET_MODE (R387): served once no change is in progress. -/
def execSetMode (s : State) : Out :=
  act s (s.mbxIs (fun op => decide (op = 2)) = true ∧ s.regBit (bootA 0x20) 8 = false) fun s =>
    let t := mbxArg s.mbxMsg 0
    s.mbxServe s.mbxMsg fun u =>
      if 12 ≤ t then (u, 2, [])
      else if t = u.mode then (u, 0, [])
      else if modeAllowed u.mode t then (u.goMode t, 0, [])
      else (u.raise 1985, 3, [])

/-- IMAGE_UPDATE: the image in the Summit region is checked and written to the slot that is not running; `listed` is the tested-pairs
table's answer, `readOk` whether the image reads back (R388). -/
def execImageUpdate (listed readOk : Bool) (s : State) : Out :=
  act s (s.mbxIs (fun op => decide (op = 3)) = true ∧ s.regBit (bootA 0x20) 8 = false) fun s =>
    let p := s.settled.leAt (s.mbxBase + 64 + 64 * (s.mbxHdr 8 % max 1 (s.mbxHdr 4)) + 8) 8
    let n := mbxArg s.mbxMsg 2
    s.mbxServe s.mbxMsg fun u =>
      if u.mode ≠ 8 then (u, 3, [])
      else
        let l := u.settled.bytes p n
        let k := 1 - u.boot.slot.getD 0
        let good := decide (0x3F0000000 ≤ p ∧ p + n ≤ 0x400000000 ∧ n = imgLen l) && headerOk l && (u.imageReject l).isNone &&
          (imagePair l listed).1.isNone
        if good = false then ((u.raise 1989).startMode u.boot.back, 5, [])
        else
          let d := l.take 12 ++ toBytes 4 ((u.reg (bootA 0x28)).toNat + 1) ++ l.drop 16
          let u := (u.eraseHeader k).setBytes (spaceFlash + 0x2000000 * k) d
          if readOk then ((u.raise 1988).startMode u.boot.back, 0, []) else ((u.raise 1989).startMode u.boot.back, 5, [])

/-- SLOT_INVALIDATE (R424). -/
def execSlotInvalidate (s : State) : Out :=
  act s (s.mbxIs (fun op => decide (op = 4)) = true) fun s =>
    let k := mbxArg s.mbxMsg 0
    s.mbxServe s.mbxMsg fun u =>
      if 2 ≤ k then (u, 2, [])
      else if u.boot.slot = some k ∧ ¬(u.mode = 3 ∧ u.slotOk (1 - k) = true) then (u, 3, [])
      else (u.eraseHeader k, 0, [])

/-- LINK_XFER: `status` and `data` are what the management link gave; the data goes to the request's pointer (R425). -/
def execLinkXfer (status : Fin 6) (data : List Byte) (s : State) : Out :=
  act s (s.mbxIs (fun op => decide (op = 5)) = true) fun s =>
    let p := s.settled.leAt (s.mbxBase + 64 + 64 * (s.mbxHdr 8 % max 1 (s.mbxHdr 4)) + 24) 8
    let n := mbxArg s.mbxMsg 3
    s.mbxServe s.mbxMsg fun u =>
      if 0x3F0000000 ≤ p ∧ p + n ≤ 0x400000000 then (u.postWrite .summitMgmt p (data.take n), status.val, []) else (u, 2, [])

/-- SENSOR_READ: the result of an ADC input (R424, 17_housekeeping_converters.md R410). -/
def execSensorRead (s : State) : Out :=
  act s (s.mbxIs (fun op => decide (op = 6)) = true) fun s =>
    let a := mbxArg s.mbxMsg 0
    let i := mbxArg s.mbxMsg 1
    s.mbxServe s.mbxMsg fun u =>
      if a < 2 ∧ i < 32 then (u, 0, toBytes 4 (u.reg (hkA (0x9000 + 0x100 * a + 4 * i))).toNat) else (u, 2, [])

/-- LINK_TEST: LN_PRBS_CTL of a lane, in LINK-TEST only (R424). -/
def execLinkTest (s : State) : Out :=
  act s (s.mbxIs (fun op => decide (op = 7)) = true) fun s =>
    let l := mbxArg s.mbxMsg 0
    let v := BitVec.ofNat 32 (mbxArg s.mbxMsg 1)
    s.mbxServe s.mbxMsg fun u =>
      if u.mode ≠ 9 then (u, 3, [])
      else if h : l < 96 then
        (if u.hasLane ⟨l, h⟩ then (u.setReg (lnA ⟨l, h⟩ 0x30) (v &&& 0x73), 0, []) else (u, 2, []))
      else (u, 2, [])

end Sys2Proof.Machine
end

