-- ==== Sys2Proof/Machine/Ether.lean ====
section
/-! DEFINITION. Ethernet ports, eCPRI and transmit records (14_fronthaul_framing.md R321 to R327, R330, R332; 02_device_time.md R44,
R45). -/

namespace Sys2Proof.Machine

/-- A number of n bytes from byte o, in network byte order (R323). -/
def beFld (d : List Byte) (o n : Nat) : Nat := ofBytes ((d.drop o).take n).reverse

/-- A number as n bytes in network byte order. -/
def toBE (n v : Nat) : List Byte := (toBytes n v).reverse

/-! Frames (R321, R322) -/

/-- Offset of the EtherType after the tags that are skipped (R321). -/
def typeAt (d : List Byte) : Nat :=
  if beFld d 12 2 = 0x8100 then 16
  else if beFld d 12 2 = 0x88A8 ∧ beFld d 16 2 = 0x8100 then 20
  else 12

/-- Address of a port. -/
def State.portMac (s : State) (h : Fin 4) (p : Nat) : List Byte :=
  toBytes 4 (s.reg (ethA h p 8)).toNat ++ toBytes 2 (s.reg (ethA h p 12)).toNat

/-- The two PTP addresses of R44. -/
def ptpMacs : List (List Byte) := [[0x01, 0x1B, 0x19, 0, 0, 0], [0x01, 0x80, 0xC2, 0, 0, 0x0E]]

/-- A frame leaves a port: padded to the least length, with its FCS (R321). It reaches the balls where every lane of the port sends the framing's
data; a lane whose PRBS generator is on sends its pattern in the frame's place, for the 66-bit blocks that the frame, its preamble and the least
gap take (13_fronthaul_lanes.md R304, R313; log entry 127). -/
def State.ethSend (s : State) (h : Fin 4) (p : Nat) (d : List Byte) : State :=
  let d := d ++ List.replicate (60 - d.length) 0
  let ls := (s.userLanes h (.eth p)).filterMap (hubLane h)
  let s := s.countUp (ethA h p 0x54)
  if ls.all s.framingSends then s.emit (.frame h.val p (d ++ toBytes 4 (fcs d)))
  else
    let n := 66 * ceilDiv (ceilDiv (d.length + 24) 8) (max 1 ls.length)
    (ls.filter fun l => s.laneSends l && s.regBit (lnA l 0x30) 4).foldl (fun t l => t.prbsSend l n) s

/-- One's-complement sum of the 16-bit words of a header. -/
def ipSum (d : List Byte) : Nat :=
  let t := (List.range (d.length / 2)).foldl (fun v i => v + beFld d (2 * i) 2) 0
  let t := t % 65536 + t / 65536
  65535 - (t % 65536 + t / 65536)

/-- The IPv4 and UDP headers of a datagram (R321). -/
def State.ipHeader (s : State) (h : Fin 4) (p n : Nat) : List Byte :=
  let a : List Byte := [0x45, 0] ++ toBE 2 (28 + n) ++ [0, 0, 0x40, 0, 64, 17]
  let b := toBE 4 (s.reg (ethA h p 0x1C)).toNat ++ toBE 4 (s.reg (ethA h p 0x20)).toNat
  let udp := s.reg (ethA h p 0x24)
  a ++ toBE 2 (ipSum (a ++ [0, 0] ++ b)) ++ b ++ toBE 2 (fld udp 31 16) ++ toBE 2 (fld udp 15 0) ++ toBE 2 (8 + n) ++ [0, 0]

/-- A frame the hub builds around an eCPRI message (R321, R327). -/
def State.ecpriFrame (s : State) (h : Fin 4) (p : Nat) (da msg : List Byte) : List Byte :=
  let cfg := s.reg (ethA h p 0)
  let tag := if bit cfg 5 then toBE 2 0x8100 ++ toBE 2 (s.regFld (ethA h p 0x18) 15 0) else []
  da ++ s.portMac h p ++ tag ++
    (if bit cfg 4 then toBE 2 0x0800 ++ s.ipHeader h p msg.length else toBE 2 0xAEFE) ++ msg

/-- Destination of a port's U-plane and C-plane frames. -/
def State.portDa (s : State) (h : Fin 4) (p : Nat) : List Byte :=
  toBytes 4 (s.reg (ethA h p 0x10)).toNat ++ toBytes 2 (s.reg (ethA h p 0x14)).toNat

/-- An eCPRI message: common header of revision 1, C = 0 (R323). -/
def ecpriMsg (ty : Nat) (d : List Byte) : List Byte := [0x10, BitVec.ofNat 8 ty] ++ toBE 2 d.length ++ d

/-- The next SEQ_ID of an entry and plane (R323): E = 1, subsequence 0. -/
def State.seqNext (s : State) (h : Fin 4) (i plane : Nat) : State × List Byte :=
  let k := 2 * i + plane
  let n := sget (fun _ => 0) s.hubs[h].seqTx k
  (s.modHub h fun b => { b with seqTx := sset (fun _ => 0) b.seqTx k ((n + 1) % 256) }, [BitVec.ofNat 8 n, 0x80])

/-! Times on the wire (02_device_time.md R45) -/

/-- originTimestamp of a count: seconds in 6 bytes, nanoseconds in 4. -/
def State.ptpStamp (s : State) (n : Nat) : List Byte :=
  let sec := (s.reg (tbA 0x28)).toNat + 2 ^ 32 * s.regFld (tbA 0x2C) 15 0 + n / 983040000
  toBE 6 sec ++ toBE 4 (n % 983040000 * 3125 / 3072)

/-- correctionField increment of a count, in 2^−16 ns. -/
def ptpCorr (n : Nat) : Int := ((n % 983040000 * 3125 % 3072 * 65536 / 3072 : Nat) : Int)

/-- Signed asymmetry of a port, in 1/16 tu. -/
def State.asym (s : State) (h : Fin 4) (p : Nat) : Int := sext 32 (s.reg (ethA h p 0x28)).toNat

/-! Receive -/

/-- A frame for the slow path (R322). -/
def State.slowPath (s : State) (h : Fin 4) (p : Nat) (d : List Byte) (ts : Nat) : State :=
  if s.regBit (hubA h 1 4) 0 then
    (s.countUp (ethA h p 0x50)).rxDeliver h (s.regFld (hubA h 1 4) 11 8) 4 p 0 ts d
  else s.countUp (ethA h p 0x4C)

/-- SEQ_ID of a received message against the one expected (R323). -/
def State.seqCheck (s : State) (h : Fin 4) (i n : Nat) : State :=
  let x := sget (fun _ => 256) s.hubs[h].seqRx i
  let s := s.modHub h fun b => { b with seqRx := sset (fun _ => 256) b.seqRx i ((n + 1) % 256) }
  if x ≠ 256 ∧ x ≠ n then s.ecpCount h 1 else s

/-- A section of a U-plane message (R325): the state after it, and the bytes behind it. -/
def State.section (s : State) (h : Fin 4) (i p : Nat) (u : UHead) (e : Int) (ts : Nat) (head d : List Byte) : State × List Byte :=
  let w1 := s.ecpW h i 1
  let hdr := bit w1 5
  let v := beFld d 0 4
  let start := v / 2 ^ 8 % 1024
  let n := v % 256
  let rb := v.testBit 19
  let c := eFld d 4 1
  let wd := if hdr then (if c / 16 = 0 then 16 else c / 16) else fld w1 10 6
  let comp := if hdr then decide (c % 16 = 1) else bit w1 4
  let k := if hdr then 6 else 4
  let body := d.drop k
  let size := prbSize comp wd
  let nprb := (s.entryCell h i).nprb
  let num := if n ≠ 0 then n else if i < 256 then nprb - start else body.length / max 1 size
  if d.length < k ∨ (hdr ∧ 1 < c % 16) ∨ size = 0 then (s.ecpCount h 2, [])
  else
    let rest := body.drop (num * size)
    if rb ∨ (i < 256 ∧ nprb < start + num) then (s.ecpCount h 2, rest)
    else (s.takeSect h i p u e ts (head ++ d.take k) ⟨start, num, comp, wd, body⟩, rest)

/-- The sections of a message, one after another; n bounds their number. -/
def State.sections (h : Fin 4) (i p : Nat) (u : UHead) (e : Int) (ts : Nat) (head : List Byte) : Nat → State → List Byte → State
  | 0, s, _ => s
  | n + 1, s, d =>
    if d = [] then s
    else
      let q := s.section h i p u e ts head d
      State.sections h i p u e ts head n q.1 q.2

/-- A U-plane message, from PC_ID on (R323 to R325, R328). -/
def State.uplane (s : State) (h : Fin 4) (p : Nat) (d : List Byte) (ts tend : Nat) : State :=
  match s.eaxcFor h false p (beFld d 0 2) with
  | none => s.ecpCount h 0
  | some i =>
    if eFld d 3 1 ≠ 0x80 then s.ecpCount h 2
    else
      let s := s.seqCheck h i (eFld d 2 1)
      let head := (d.drop 4).take 4
      let u := uHead head
      match s.accept h i u ts tend (some p) with
      | (s, none) => s
      | (s, some e) => State.sections h i p u e ts head d.length s (d.drop 8)

/-- A delay-measurement request is answered with its ingress time (R323). -/
def State.delayAnswer (s : State) (h : Fin 4) (p : Nat) (sa d : List Byte) (ts : Nat) : State :=
  let comp := ptpCorr ts + s.asym h p * 12500 / 3
  let m := d.take 1 ++ [0x02] ++ s.ptpStamp ts ++ toBE 8 (ofInt 64 comp).toNat
  s.ethSend h p (s.ecpriFrame h p sa (ecpriMsg 5 m))

/-- The messages of an eCPRI payload, one by one (R323); n bounds their number. -/
def State.messages (h : Fin 4) (p : Nat) (frame : List Byte) (ts tend : Nat) : Nat → State → List Byte → State
  | 0, s, _ => s
  | n + 1, s, d =>
    if d.length < 4 then s
    else
      let size := beFld d 2 2
      let m := (d.drop 4).take size
      let ty := eFld d 1 1
      let s :=
        if ty = 0 then s.uplane h p m ts tend
        else if ty = 5 ∧ eFld m 1 1 = 0 ∧ s.regBit (hubA h 2 0x8004) 0 = true then
          s.delayAnswer h p ((frame.drop 6).take 6) m ts
        else s.slowPath h p frame ts
      if (d.getD 0 0).toNat % 2 = 1 then State.messages h p frame ts tend n s (d.drop (4 * ceilDiv (4 + size) 4)) else s

/-- Payload of a frame that carries eCPRI at revision 1, by its EtherType or in IPv4 and UDP (R321, R322). -/
def State.ecpriOf (s : State) (h : Fin 4) (p : Nat) (d : List Byte) : Option (List Byte) :=
  let o := typeAt d
  let ty := beFld d o 2
  let b := d.drop (o + 2)
  let m :=
    if ty = 0xAEFE then some b
    else if ty = 0x0800 ∧ eFld b 0 1 = 0x45 ∧ beFld b 6 2 % 0x4000 = 0 ∧ eFld b 9 1 = 17 ∧
        beFld b 22 2 = s.regFld (ethA h p 0x24) 15 0 then
      some ((b.drop 28).take (beFld b 24 2 - 8))
    else none
  m.filter fun x => decide (eFld x 0 1 / 16 = 1)

/-- A frame received on an UP port: the first row of R322 that it matches. -/
def State.frameRx (s : State) (h : Fin 4) (p : Nat) (frame : List Byte) (ts tend : Nat) : State :=
  let n := frame.length
  let d := frame.take (n - 4)
  let s := s.countUp (ethA h p 0x40)
  let da := d.take 6
  let ty := beFld d (typeAt d) 2
  if n < 64 ∨ 9600 < n ∨ eFld frame (n - 4) 4 ≠ fcs d then s.countUp (ethA h p 0x44)
  else if ty = 0x8808 then s.countUp (ethA h p 0x48)
  else if da ≠ s.portMac h p ∧ da ≠ List.replicate 6 0xFF ∧ !ptpMacs.contains da ∧ s.regBit (ethA h p 0) 3 = false then
    s.countUp (ethA h p 0x4C)
  else if ty = 0x88F7 ∧ ptpMacs.contains da then
    let t := BitVec.ofInt 64 ((ts : Int) + s.asym h p / 16)
    s.rxDeliver h (s.regFld (hubA h 1 4) 7 4) 3 p 0 t.toNat d
  else match s.ecpriOf h p d with
    | some m => State.messages h p d ts tend m.length s m
    | none => s.slowPath h p d ts

/-! Transmit (R326, R327, R330, R332) -/

/-- The symbol of an absolute number under a cell (08_beamforming_array.md R194). -/
def symOf (c : Cell) (n : Nat) : SymId :=
  let q := n / c.nsym
  ⟨q / 2 ^ c.mu / 10 % 256, q / 2 ^ c.mu % 10, q % 2 ^ c.mu, n % c.nsym⟩

/-- The four bytes of a U-plane header of a downlink symbol. -/
def uHeadBytes (y : SymId) : List Byte :=
  [0x90, BitVec.ofNat 8 y.frame, BitVec.ofNat 8 (y.sub * 16 + y.slot / 4), BitVec.ofNat 8 (y.slot % 4 * 64 + y.sym)]

/-- The PRBs of a symbol on the wire. -/
def DlSym.wire (x : DlSym) (start n : Nat) : List Byte := ((x.prbs.drop start).take n).flatMap (prbPack x.comp x.mw)

/-- udCompHdr of a symbol. -/
def DlSym.compHdr (x : DlSym) : Byte := BitVec.ofNat 8 (x.mw % 16 * 16 + x.comp.toNat)

/-- One message of a symbol: PRBs start to start + n − 1 with sectionId k (R326). -/
def State.uMsg (s : State) (h : Fin 4) (p i : Nat) (y : SymId) (x : DlSym) (k start n : Nat) : State :=
  let w0 := s.ecpW h i 0
  let (s, seq) := s.seqNext h i 0
  let sect := toBE 4 (k % 4096 * 2 ^ 20 + start * 2 ^ 8 + (if n < 256 then n else 0))
  let ud := if bit (s.ecpW h i 1) 5 then [x.compHdr, 0] else []
  s.ethSend h p (s.ecpriFrame h p (s.portDa h p)
    (ecpriMsg 0 (toBE 2 (fld w0 15 0) ++ seq ++ uHeadBytes y ++ sect ++ ud ++ x.wire start n)))

/-- A symbol of entry i sent on its port, or as a block of its trunk tributary (R326, R330, R341). -/
def State.sendSym (s : State) (h : Fin 4) (i : Nat) (y : SymId) (x : DlSym) : State :=
  let w0 := s.ecpW h i 0
  let p := fld w0 20 16
  let n := x.prbs.length
  if bit w0 21 then
    let head := uHeadBytes y ++ toBytes 2 0 ++ toBytes 2 n ++ [x.compHdr, 0, 0, 0]
    match (s.txTribs h p).find? (fun t => decide (s.regBit (tribA h t) 7 = false ∧ s.regFld (tribA h t) 16 8 = i)) with
    | some t => s.queueBlock h t (head ++ x.wire 0 n)
    | none => s
  else if s.portUp h p then
    let m := s.regFld (ethA h p 0x2C) 8 0
    let m := if m = 0 then 275 else m
    (List.range (ceilDiv n m)).foldl (fun t k => t.uMsg h p i y x k (k * m) (min m (n - k * m))) s
  else s

/-- The downlink symbol of entry i whose window has opened: the schedule has fired for it (R330). -/
def State.dueSym (s : State) (h : Fin 4) (i : Nat) : Option (DlSym × SymId × Int) :=
  let w0 := s.ecpW h i 0
  let sch := fld (s.ecpW h i 1) 3 0
  if bit w0 23 && bit w0 22 && s.regBit (schA h sch 0) 0 && decide (i < 256) then
    match s.hubs[h].fired.find? (fun p => p.1 = sch) with
    | none => none
    | some f => s.hubs[h].dl.findSome? fun x =>
        if x.stream = i then
          let y := symOf (s.entryCell h i) x.sym
          match s.symAir (s.regFld (schA h sch 0) 2 1) y f.2 with
          | some a => if a ≤ f.2 then some (x, y, a) else none
          | none => none
        else none
  else none

/-- The due symbol of entry i is sent, or discarded after A − TXCLOSE (R330). -/
def State.uplaneTx (s : State) (h : Fin 4) (i : Nat) : State :=
  match s.dueSym h i with
  | none => s
  | some (x, y, a) =>
    let sch := fld (s.ecpW h i 1) 3 0
    let s := s.modHub h fun b => { b with dl := b.dl.erase x }
    if a - s.regFld (schA h sch 16) 23 0 < (s.replica (.hub h)).toNat then
      let s := if s.regBit (hubA h 2 (0x9000 + 8 * i)) 21 then s
        else s.countUp (ethA h (s.regFld (hubA h 2 (0x9000 + 8 * i)) 20 16) 0x64)
      s.hubEvent h 3
    else s.sendSym h i y x

/-- The record may be sent (R332, R327). -/
def State.recordOk (s : State) (h : Fin 4) (k : Nat) (r : List Byte) : Bool :=
  let kind := eFld r 2 1
  let dst := eFld r 3 1 % 32
  let w := s.reg (tribA h (eFld r 4 2 % 256))
  decide (eFld r 0 2 ≤ recSize (s.reg (txqA h k 0)) - 16) && match kind with
    | 1 => decide (dst < 12) && s.cpriOn h dst && s.cpriSync h dst
    | 2 => decide (dst < 12) && s.cpriOn h dst && s.cpriSync h dst
    | 3 => decide (dst < 24) && s.portUp h dst
    | 4 => decide (dst < 24) && s.portUp h dst
    | 6 => decide (dst < 24) && decide (2 ≤ s.gState h dst) && decide (eFld r 4 2 < 255) && bit w 0 && bit w 1 && bit w 7 &&
        decide (fld w 6 2 = dst)
    | 7 => decide (dst < 24) && s.portUp h dst && decide (eFld r 23 1 = 1 ∨ eFld r 23 1 = 3)
    | _ => false

/-- An egress count of port p: that of the hub's replica to ±4 tu, a free value, with the port's asymmetry (02_device_time.md R44). -/
def State.egressTs (s : State) (h : Fin 4) (p : Nat) : Nat :=
  (BitVec.ofInt 64 ((s.replica (.hub h)).toNat + s.asym h p / 16 + ((s.free 0 % 9 : Nat) : Int) - 4)).toNat

/-- A PTP message sent, with the timestamp that its flags ask for (R332, 02_device_time.md R45). -/
def State.ptpSend (s : State) (h : Fin 4) (p : Nat) (oneStep twoStep : Bool) (d : List Byte) : State :=
  let now := s.egressTs h p
  let s := if oneStep || twoStep then s.draw else s
  let o := typeAt d + 2
  let d' :=
    if oneStep && decide (eFld d o 1 % 16 = 0) then
      let c := BitVec.ofNat 64 (beFld d (o + 8) 8) + BitVec.ofInt 64 (ptpCorr now)
      d.take (o + 8) ++ toBE 8 c.toNat ++ (d.drop (o + 16)).take 18 ++ s.ptpStamp now ++ d.drop (o + 44)
    else d
  let s := s.ethSend h p d'
  if twoStep then s.rxDeliver h (s.regFld (hubA h 1 4) 15 12) 5 p (beFld d (o + 30) 2) now [] else s

/-- A C-plane message sent (R327). -/
def State.cplaneSend (s : State) (h : Fin 4) (p : Nat) (d : List Byte) : State :=
  let id := eFld d 0 2
  let i := ((List.range 384).find? fun i =>
    let w := s.ecpW h i 0
    bit w 23 && !bit w 21 && decide (fld w 20 16 = p) && decide (fld w 15 0 = id)).getD 384
  let (s, seq) := s.seqNext h i 1
  s.ethSend h p (s.ecpriFrame h p (s.portDa h p) (ecpriMsg 2 (toBE 2 id ++ seq ++ d.drop 2)))

/-- The record at the head of transmit queue k is sent, rejected, or waits for START or its hyperframe (R332). -/
def State.recordTx (s : State) (h : Fin 4) (k : Nat) : State :=
  match s.txHead h k with
  | none => s
  | some r =>
    let kind := eFld r 2 1
    let dst := eFld r 3 1 % 32
    let fl := r.getD 6 0
    let d := recPayload r
    let gone := s.modHub h fun b => { b with txq := dropRecord k b.txq }
    if s.recordOk h k r = false then (gone.countUp (txqA h k 8)).hubEvent h 7
    else match kind with
      | 3 => gone.ptpSend h dst (bit fl 0) (bit fl 1) d
      | 4 => gone.ethSend h dst d
      | 6 => gone.queueBlock h (eFld r 4 2) (toBytes 2 d.length ++ d)
      | 7 => gone.cplaneSend h dst d
      | _ => s

/-! Commands -/

/-- Whole tu that n bytes take on the wire of port p at 25, 50 or 100 Gb/s (R321). -/
def State.wireTime (s : State) (h : Fin 4) (p n : Nat) : Nat := n * 24576 / (78125 * 2 ^ (s.regFld (ethA h p 0) 1 0 - 1))

/-- The counts of a frame agree with the hub's replica: its last byte has been received now, and its first bit came its wire time before, to
±4 tu, a slew carry and the rounding; a step since then is taken out (02_device_time.md R44; assumption 57). -/
def State.frameTimes (s : State) (h : Fin 4) (p n : Nat) (ts tend : Time) : Bool :=
  let w := s.wireTime h p n
  let e : Int := sext 64 (ts - (tend - BitVec.ofNat 64 w)).toNat
  let near (d : Int) : Bool := decide (-6 ≤ e + d ∧ e + d ≤ 6)
  decide (tend = s.replica (.hub h)) && (near 0 || (decide (s.tb.cycles < s.tb.stepAt + w + 8) && near s.tb.stepBy))

/-- FRAME_RECEIVE on port p of hub h (R322): the frame from its destination address to its FCS, the count of R44 at its first bit,
and when its last byte was received. -/
def execFrameReceive (h : Fin 4) (p : Fin 24) (frame : List Byte) (ts tend : Time) (s : State) : Out :=
  act s (s.rfabOn h.val = true ∧ s.portUp h p.val = true ∧ s.frameTimes h p.val frame.length ts tend = true) fun s =>
    s.frameRx h p.val frame ts.toNat tend.toNat

/-- UPLANE_TRANSMIT of entry i of hub h (R330). -/
def execUplaneTransmit (h : Fin 4) (i : Fin 256) (s : State) : Out :=
  act s (s.rfabOn h.val = true) fun s => s.uplaneTx h i.val

/-- TX_RECORD_SEND of transmit queue k of hub h (R332). -/
def execTxRecordSend (h : Fin 4) (k : Fin 16) (s : State) : Out :=
  act s (s.rfabOn h.val = true) fun s => s.recordTx h k.val

end Sys2Proof.Machine
end

