-- ==== Sys2Proof/Machine/LaneRows.lean ====
section
/-! DEFINITION. Commands of the fronthaul lanes whose effect reaches the framing (13_fronthaul_lanes.md R304 to R307, R312, R317;
02_device_time.md R46). -/

namespace Sys2Proof.Machine

/-- The framing follows the lane's alignment and rate: ports are evaluated; a trunk lane that is not aligned hunts (14 R321, R337). -/
def State.laneFollow (s : State) (l : Fin 96) : State :=
  let h := laneHub l
  let s := if s.lnStatus l 2 then s else s.trunkHunt h (l.val % 24)
  s.portsEval h

/-- The receiver loses CDR lock (R306, R315, 02_device_time.md R46). -/
def State.cdrLost (s : State) (l : Fin 96) : State := ((s.dropSync l true).squelch l.val).laneFollow l

/-- The PLLs of a quad that lanes of a mask of PLL 0 Ethernet, 1 CPRI use. -/
def State.pllLanes (s : State) (q : Nat) (cpri : Bool) : List (Fin 96) :=
  (quadLanes q).filter fun l => s.usesPll l cpri && decide (s.lnState l < 2)

/-! Commands -/

/-- SYMBOL_RECEIVE: ten bits received by an 8b/10b lane with CDR lock (R305, R306). -/
def execSymbolReceive (l : Fin 96) (bits : BitVec 10) (s : State) : Out :=
  act s (s.hasLane l = true ∧ rate8b10b (s.lnRate l) = true ∧ s.lnState l = 0 ∧ s.lnStatus l 1 = true) fun s =>
    (s.symbolReceive l bits).laneFollow l

/-- BLOCK_RECEIVE: a sync header received by a 64b/66b lane with CDR lock (R307). -/
def execBlockReceive (l : Fin 96) (hdr : BitVec 2) (s : State) : Out :=
  act s (s.hasLane l = true ∧ s.lnRate l = 1 ∧ s.lnState l = 0 ∧ s.lnStatus l 1 = true) fun s =>
    (s.headerReceive l hdr).laneFollow l

/-- SIG_DET_FALL (R312): CDR lock and alignment are lost, LOS is set; a CPRI link of the lane sets its own (14 R334). -/
def execSigDetFall (l : Fin 96) (s : State) : Out :=
  act s (s.hasLane l = true ∧ s.lnState l < 2 ∧ s.lnStatus l 0 = true) fun s =>
    let s := (s.setRegBit (lnA l 8) 0 false).setRegBit (lnA l 0xC) 3 true
    let cdr := s.lnStatus l 1
    let s := s.dropSync l true
    let s := if cdr then s.squelch l.val else s
    ((s.laneEvent l 0).cpriLos (laneHub l) (l.val % 24)).laneFollow l

/-- CDR_LOCK_LOST with the signal present (R306). -/
def execCdrLockLost (l : Fin 96) (s : State) : Out :=
  act s (s.hasLane l = true ∧ s.lnStatus l 1 = true) fun s => (s.cdrLost l).laneEvent l 0

/-- QUAD_PLL_UNLOCK of the Ethernet or CPRI PLL of quad q, it may be because the hub's reference is absent (R304): its lanes go to electrical
idle, with UNLOCK and their fault event. -/
def execQuadPllUnlock (q : Fin 24) (loss : PllLoss) (s : State) : Out :=
  let b := if loss.cpri then 3 else 1
  act s (s.hasRange (q.val / 6) = true ∧ (s.regBit (quadA q.val 4) b = true ∨ loss.absent = true)) fun s =>
    let was := s.regBit (quadA q.val 4) b
    let s := if loss.absent then { s with refLost := withIn s.refLost (pllRef q.val loss.cpri) } else s
    let s := s.setRegBit (quadA q.val 4) b false
    (if was then s.pllLanes q.val loss.cpri else []).foldl (fun t l =>
      let t := (t.setRegBit (lnA l 8) 5 false).setRegBit (lnA l 0xC) 5 true
      ((if t.lnStatus l 1 then t.cdrLost l else t).laneEvent l 3)) s

/-- QUAD_PLL_RELOCK (R304): its reference is there, its lanes transmit again and their receivers reacquire. -/
def execQuadPllRelock (q : Fin 24) (cpri : Bool) (s : State) : Out :=
  let b := if cpri then 2 else 0
  act s (s.hasRange (q.val / 6) = true ∧ s.regBit (quadA q.val 4) b = true ∧ s.regBit (quadA q.val 4) (b + 1) = false) fun s =>
    let s := { s with refLost := without s.refLost (pllRef q.val cpri) }
    let s := s.setRegBit (quadA q.val 4) (b + 1) true
    (s.pllLanes q.val cpri).foldl (fun t l => t.setRegBit (lnA l 8) 5 true) s

/-- LANE_PWR_TRANSITION_DONE (R317). -/
def execLanePwrTransitionDone (l : Fin 96) (s : State) : Out :=
  match s.lanes[l].trans with
  | none => .next s
  | some g => act s (s.hasLane l = true) fun s => (s.pwrDone l g).laneFollow l

end Sys2Proof.Machine
end

