-- ==== Sys2Proof/Machine/RegWrite.lean ====
section
/-! DEFINITION. Reads and writes of the register blocks by requesters: access types, LOCK, planes, and the writes that do more than
store (00_scope.md R6 to R8, 01_device_overview.md R17, R19, and the register tables of the chapters). -/

namespace Sys2Proof.Machine

/-! Reads -/

/-- Index of a range, hub, dispatcher or BFA. -/
def range4 (i : Nat) : Fin 4 := unitOf 4 i (by decide)

/-- Index of a ridge. -/
def ridge24 (i : Nat) : Fin 24 := unitOf 24 i (by decide)

/-- Registers of TB_ that show the count as a read reaches them (02_device_time.md R27, R29, R38, R40, R50). -/
def State.tbView (s : State) (o : Nat) : Option Word :=
  if o = 0x04 then some (setBit (setBit (s.reg (tbA 4)) 3 (decide (s.tb.slew ≠ 0))) 4 s.stepMode)
  else if o = 0x10 then some (s.tb.now.setWidth 32)
  else if o = 0x14 then some ((s.tb.now >>> (32 : Nat)).setWidth 32)
  else if o = 0x44 then some (BitVec.ofInt 32 s.rateAct)
  else if o = 0x48 then some (BitVec.ofInt 32 s.tb.slew)
  else if o = 0xC0 ∨ o = 0xC4 then some (setBit (s.reg (tbA o)) 16 (s.squelched ((o - 0xC0) / 4)))
  else if 0x80 ≤ o ∧ o < 0xC0 ∧ o % 16 = 8 then some (s.viewAt ((o - 0x80) / 16) s.tb.now.toNat).1
  else if 0x80 ≤ o ∧ o < 0xC0 ∧ o % 16 = 12 then some (s.viewAt ((o - 0x80) / 16) s.tb.now.toNat).2
  else none

/-- RSVs_STATUS with the ports that R11 would use; the registers of a fused-off range read 0 (10_memory_protection.md R256). -/
def State.rsvView (s : State) (o : Nat) : Option Word :=
  if o = 0x104 ∨ o = 0x204 then
    let i := (o - 0x104) / 0x100
    let port (side : Nat) : Bool := s.hasRange (2 * i + side) && decide (s.epState (hbmNode i side) = 0)
    some (setBit (setBit (s.reg (Block.rsv.base + o)) 3 (port 0)) 4 (port 1))
  else if 0x630 ≤ o ∧ o < 0x640 ∧ s.hasRange 3 = false then some 0
  else none

/-- The engine whose registers stand at an offset of a block, and the offset in them (07_ridge_engines.md R190). -/
def engineAt (b : Block) (o : Nat) : Option (EngId × Nat) :=
  match b with
  | .fec n => some (.codec (ridge24 n), o)
  | .fft n => some (.fft (ridge24 n), o)
  | .eq n => some (.eq (ridge24 n), o)
  | .reng r => if o < 0x8000 then some (.turbo (range4 r), o) else some (.nbe (range4 r), o - 0x8000)
  | _ => none

/-- The flume engine at an offset of a block: its channels, how many, and the offset in its registers (12_flume_engines.md R299). -/
def flumesAt (b : Block) (o : Nat) : Option ((Nat → FlumeId) × Nat × Nat) :=
  match b with
  | .flm n => some (fun c => .ridge (ridge24 n) (unitOf 16 c (by decide)), 16, o)
  | .hub h j =>
    if j = 1 ∧ 0x8000 ≤ o then some (fun c => .hub (range4 h) (unitOf 32 c (by decide)), 32, o - 0x8000) else none
  | .hif => if 0x8000 ≤ o then some (fun c => .host (unitOf 16 c (by decide)), 16, o - 0x8000) else none
  | _ => none

/-- What a register shows where it is not simply held; none: the register file holds it. -/
def State.regView (s : State) (req : Requester) (b : Block) (o : Nat) : Option Word :=
  match flumesAt b o with
  | some (f, n, p) => if p < 0x1000 + 0x100 * n then s.flumeView (f ((p - 0x1000) / 0x100)) p else none
  | none =>
    match engineAt b o with
    | some (e, p) => s.engView e p
    | none =>
      match b with
      | .tb => s.tbView o
      | .leat => s.leatView o
      | .slc => s.slcView o
      | .hk => s.hkView o
      | .rsv => s.rsvView o
      | .bfa r => s.bfaView (range4 r) o
      | .dpt r =>
        if 0x7000 ≤ o ∧ o < 0x703C then
          match req with
          | .core x => some (s.selfRead x o)
          | _ => some 0
        else s.dptView (range4 r) o
      | .hub h j =>
        if j = 1 then s.fhhView (range4 h) o
        else if j = 3 ∧ o = 0x8004 then some (BitVec.ofNat 32 s.compat.toNat)
        else none
      | .cqc n k => if o = 0x18 ∨ o = 0x1C then some (s.reg ((Block.cqc n k).at (o - 8))) else none
      | _ => none

/-- A read of the register at a word offset of a block (R6, R8); reads have no side effect (03_tarn_scalar.md R65). -/
def State.regRead (s : State) (req : Requester) (b : Block) (o : Nat) : Word :=
  match s.regView req b o with
  | some w => w
  | none =>
    match rowAt (rowsOf b) o with
    | some r => s.reg (b.at o) &&& BitVec.ofNat 32 r.rd
    | none => 0

/-! Writes -/

/-- LOCK of a block is set (R7). -/
def State.locked (s : State) (b : Block) : Bool :=
  match lockOff b with
  | some l => s.regBit (b.at l) 0
  | none => false

/-- A write with no effect beyond its access types: RW, W1C, W1S, and RWL while LOCK is 0; reserved bits and offsets without a
register ignore it (R6 to R8). -/
def State.plainWrite (s : State) (b : Block) (o : Nat) (v : Word) : State :=
  match rowAt (rowsOf b) o with
  | none => s
  | some r =>
    let old := s.reg (b.at o)
    let w := BitVec.ofNat 32 (if s.locked b then r.rw else r.rw ||| r.rwl)
    let x := (old &&& ~~~w) ||| (v &&& w)
    s.setReg (b.at o) ((x &&& ~~~(v &&& BitVec.ofNat 32 r.w1c)) ||| (v &&& BitVec.ofNat 32 r.w1s))

/-! Comparators -/

/-- What a fire starts in the comparator's unit. -/
def State.cmpAction (s : State) (c : CmpId) (late : Bool) (target : Nat) : State :=
  match c with
  | .gt g => s.raiseIf (s.cmpEvt c) (1600 + g.val)
  | .flume f => s.flumeFire f late
  | .tp r i =>
    let t := s.reg (dptA r (0x6020 + 0x40 * i.val))
    (s.post r (fld t 9 0) (fld t 14 10) none).raiseIf (s.cmpEvt c) (dptEvent r 10)
  | .seq r h => s.seqFire r h.val late
  | .sch h i => s.schFire h i target
  | .dac c => s.dacFire c
  | .slc i => s.slcFire i

/-- A comparator that is due in a running unit fires, with what the fire starts (R34). A write to CTL that meets a fire comes after it
(R36). -/
def State.cmpMeet (s : State) (c : CmpId) : State :=
  if s.cmpDue c = true ∧ s.cmpOn c = true then (s.cmpFire c).cmpAction c (s.cmpLate c) (s.target c.base).toNat else s

/-- A write to CTL of a comparator, after the fire that it meets (R36). -/
def State.cmpWrite (s : State) (c : CmpId) (v : Word) : State := (s.cmpMeet c).cmpCtl c.base v

/-- A write to TB_ (02_device_time.md R50). -/
def State.tbWrite (s : State) (o : Nat) (v : Word) : State :=
  if o = 0x18 then (if bit v 0 then s.capture else s)
  else if o = 0x40 then s.rateWrite v
  else if o = 0x58 then s.stepCmd v
  else if o = 0x68 then (s.plainWrite .tb o v).ppsEnable (s.regBit (tbA 0x68) 0)
  else if o = 0xC0 ∨ o = 0xC4 then (s.plainWrite .tb o v).recclkSource ((o - 0xC0) / 4) (s.regFld (tbA o) 6 0)
  else if o = 0x70 then s.tickDivWrite v
  else if 0x80 ≤ o ∧ o < 0xC0 ∧ o % 16 = 0 then s.setReg (tbA o) (viewCfgStore v)
  else if 0x100 ≤ o ∧ o < 0x500 ∧ o % 32 = 12 then s.cmpWrite (.gt (unitOf 32 ((o - 0x100) / 32) (by decide))) v
  else s.plainWrite .tb o v

/-- A write to EVF_ (18_events_host_management.md R412, R416, R426). -/
def State.evfWrite (s : State) (o : Nat) (v : Word) : State :=
  if o = 0x10 then s.swevt v
  else if o = 0x14 then s.evCntClr v
  else if 0x2000 ≤ o ∧ o < 0x4000 then s.routeWrite ((o - 0x2000) / 4) v
  else s.plainWrite .evf o v

/-- A write to LEAT_ (11_leat_fabric.md R265, R270, R277). -/
def State.leatWrite (s : State) (o : Nat) (v : Word) : State :=
  if o = 0x14 then (if 10 ≤ fld v 4 0 ∧ fld v 4 0 ≤ 24 then s.plainWrite .leat o v else s)
  else if 0x200 ≤ o ∧ o < 0x400 then
    match rowAt leatRows o with
    | some r => if s.locked .leat then s else s.grantWrite (leatA o) v (BitVec.ofNat 32 r.rwl)
    | none => s
  else if 0x400 ≤ o ∧ o < 0x420 then (if s.locked .leat then s else s.planCfgWrite ((o - 0x400) / 4) v)
  else if 0x8000 ≤ o ∧ o < 0xB800 then (if s.locked .leat then s else s.planMemWrite (leatA o) v)
  else s.plainWrite .leat o v

/-- A write to BOOT_ and FUSE_ (16_startup_images_modes.md R381, R385). -/
def State.bootWrite (s : State) (o : Nat) (v : Word) : State :=
  if o = 0x20 then s.bootModeWrite v
  else if o = 0x8004 then s.fuseRevoke v
  else s.plainWrite .boot o v

/-- The CAP programs a fuse word while CAP_DISABLE is 0; bits go from 0 to 1 (R381). -/
def State.capFuse (s : State) (o : Nat) (v : Word) : State :=
  let a := bootA o
  let m : Word := if o = 0x8000 then 0xF1 else if 0x8100 ≤ o ∧ o < 0x8180 then 0xFFFFFFFF else 0
  let t := s.setReg a (s.reg a ||| (v &&& m))
  t.raiseIf (decide (o = 0x8000) && decide (t.regFld a 7 4 ≠ s.regFld a 7 4)) 1991

/-- A write to MBX_ (18_events_host_management.md R423). -/
def State.mbxWrite (s : State) (o : Nat) (v : Word) : State :=
  if o = 0x10 then s.h2sDoorbell v else if o = 0x14 then s.s2hDoorbell v else s.plainWrite .mbx o v

/-- A write to HKD_ and HKA_ (17_housekeeping_converters.md R409, R410). -/
def State.hkWrite (s : State) (o : Nat) (v : Word) : State :=
  if o = 0x10 then s.dacStrobe (fld v 3 0)
  else if o = 0x1C then s.forceSafe v
  else if o = 0x20 then s.toneFtw v
  else if 0x100 ≤ o ∧ o < 0x300 then
    let c := unitOf 8 ((o - 0x100) / 0x40) (by decide)
    match o % 0x40 with
    | 0x00 => s.dacCtl c v
    | 0x08 => s.dacIn c v
    | 0x18 => s.dacQcfg c v
    | 0x1C => s.dacQperiod c v
    | 0x20 => s.dacResume c v
    | _ => s.plainWrite .hk o v
  else if 0x2000 ≤ o ∧ o < 0x2100 ∧ o % 32 = 12 then s.cmpWrite (.dac (unitOf 8 ((o - 0x2000) / 32) (by decide))) v
  else if 0x8100 ≤ o ∧ o < 0x8300 then
    let a := unitOf 2 ((o - 0x8100) / 0x100) (by decide)
    match o % 0x100 with
    | 0x00 => s.adcCtl a v
    | 0x08 => s.adcScan a v
    | 0x0C => s.adcUrgent a v
    | _ => s.plainWrite .hk o v
  else s.plainWrite .hk o v

/-- A write of MEM_POISON_HI or RSV_POISON_HI poisons the line that holds the address, where it lies in the memory (R245). -/
def State.poisonWrite (s : State) (lo : Nat) (t : Target) (v : Word) : State :=
  let a := (s.reg lo).toNat + 2 ^ 32 * fld v 7 0
  if targetOf a = t then s.poisonLine a else s

/-- A write to RSV_ (10_memory_protection.md R256). -/
def State.rsvWrite (s : State) (o : Nat) (v : Word) : State :=
  if o = 0x304 then s.poisonWrite (Block.rsv.at 0x300) .reservoir v
  else if o = 0x400 then s.flipCtl (Block.rsv.at 0x400) 24 0x80 v
  else s.plainWrite .rsv o v

/-- A write of MEM_POOL_INIT: the banks named are being cleared (R245). -/
def State.poolInit (s : State) (n : Nat) (v : Word) : State :=
  s.setReg (memA n 0xA8) (s.reg (memA n 0xA8) ||| (v &&& 0xFFFF))

/-- A write to MEM_ of ridge n (R255). -/
def State.memBlockWrite (s : State) (n o : Nat) (v : Word) : State :=
  if o = 0xA4 then s.poolInit n v
  else if o = 0xB4 then s.poisonWrite (memA n 0xB0) (.pool n) v
  else if o = 0x100 then s.flipCtl (memA n 0x100) n 0x7F0 v
  else s.plainWrite (.mem n) o v

/-- A write to the registers of a flume engine (12_flume_engines.md R293, R299): `b` and `o` name the register, `p` is its offset in
the engine's registers. -/
def State.flmWrite (s : State) (f : Nat → FlumeId) (n : Nat) (b : Block) (o p : Nat) (v : Word) : State :=
  if p = 0x14 then
    let a := (f 0).common + 0x10
    s.setReg a (s.reg a ||| (v &&& 0xFFFF))
  else if 0x1000 ≤ p ∧ p < 0x1000 + 0x100 * n then
    let c := f ((p - 0x1000) / 0x100)
    match p % 0x100 with
    | 0x00 => s.flumeCtl c v
    | 0x10 => s.flumeCfg c 0x10 v
    | 0x14 => s.flumeCfg c 0x14 v
    | 0x18 => s.flumeCfg c 0x18 v
    | 0x1C => s.flumeCfg c 0x1C v
    | 0x24 => s.flumeCfg c 0x24 v
    | 0x20 => s.ring c (fld v 15 0)
    | 0x4C => if s.flumeEn c then s else  -- (R284)
      s.cmpWrite (.flume c) v
    | _ => s.plainWrite b o v
  else s.plainWrite b o v

/-- A write to HIF_ (18_events_host_management.md R421, R427): a queue's or flume's FN outside 1 to 16 is ignored. -/
def State.hifWrite (s : State) (o : Nat) (v : Word) : State :=
  if 0x100 ≤ o ∧ o < 0x320 ∧ o % 32 = 0 then (if s.locked .hif then s else s.msixSize ((o - 0x100) / 32) v)
  else if 0x400 ≤ o ∧ o < 0x600 ∧ (fld v 4 0 < 1 ∨ 16 < fld v 4 0) then s
  else s.plainWrite .hif o v

/-- A write to DPT_ (06_dispatcher.md R157, R159, R160); the self port takes the writes of the range's cores. -/
def State.dptWrite (s : State) (req : Requester) (r : Fin 4) (o : Nat) (v : Word) : State :=
  if o = 0x10 then s.coreEnWrite r false v
  else if o = 0x14 then s.coreEnWrite r true v
  else if o = 0x24 then s.csWrite r v
  else if o = 0x28 then s.tcbCmd r v
  else if o = 0x30 then s.post r (fld v 9 0) (fld v 14 10) none
  else if 0x4000 ≤ o ∧ o < 0x5000 then
    let l := (o - 0x4000) / 16
    if o % 16 = 0 then s.lockCfgWrite r l v else if o % 16 = 4 then s.lockSeqWrite r l v else s
  else if 0x6000 ≤ o ∧ o < 0x6400 ∧ o % 0x40 = 12 then s.cmpWrite (.tp r (unitOf 16 ((o - 0x6000) / 0x40) (by decide))) v
  else if 0x7000 ≤ o ∧ o < 0x703C then
    match req with
    | .core x => s.selfWrite x o v
    | _ => s
  else s.plainWrite (.dpt r.val) o v

/-- A write to BFA_ (08_beamforming_array.md R208, R210, R219). -/
def State.bfaWrite (s : State) (r : Fin 4) (o : Nat) (v : Word) : State :=
  if o = 4 then s.bfaCtl r v
  else if o = 0x10 then s.immOp r v
  else if o = 0x28 ∨ o = 0x30 then (s.plainWrite (.bfa r.val) o v).ringSync r
  else if 0x100 ≤ o ∧ o < 0x200 then
    let c := (o - 0x100) / 16
    match o % 16 with
    | 0 => s.cellCfg r c 0 v 0xFFFFF
    | 4 => s.cellCfg r c 4 v 0xFFFFFFFF
    | 8 => s.cellCfg r c 8 v 0x3F3F
    | _ => s.cellState r c v
  else if 0x800 ≤ o ∧ o < 0x900 then
    let h := (o - 0x800) / 0x40
    if o % 0x40 = 12 then (if s.seqRun r h then s else s.cmpWrite (.seq r (range4 h)) v)
    else if o % 0x40 = 0x20 then s.seqCtl r h v
    else s.plainWrite (.bfa r.val) o v
  else if 0x1000 ≤ o ∧ o < 0x1400 then s.streamWrite r ((o - 0x1000) / 4) v
  else s.plainWrite (.bfa r.val) o v

/-- A write to LN_ of hub h (13_fronthaul_lanes.md R303, R309, R310, R314, R316, R319). -/
def State.lnWrite (s : State) (h : Fin 4) (o : Nat) (v : Word) : State :=
  if 0x100 ≤ o ∧ o < 0x160 then
    if o % 16 = 0 then s.quadWrite (6 * h.val + (o - 0x100) / 16) v else s
  else if 0x1000 ≤ o ∧ o < 0x2800 then
    let l : Fin 96 := unitOf 96 (24 * h.val + (o - 0x1000) / 0x100) (by decide)
    match o % 0x100 with
    | 0x00 => s.lnCfgWrite l v
    | 0x04 => s.lnPwrWrite l v
    | 0x10 => s.txeqWrite l v
    | 0x18 => s.eqValWrite l 0 v
    | 0x1C => s.eqValWrite l 1 v
    | 0x30 =>
      let s := s.plainWrite (.hub h.val 0) o v
      if bit v 8 then s.setReg (lnA l 0x38) 0 else s
    | 0x40 => if bit v 0 then (s.setReg (lnA l 0x24) 0).setReg (lnA l 0x28) 0 else s
    | _ => s.plainWrite (.hub h.val 0) o v
  else s.plainWrite (.hub h.val 0) o v

/-- A write to FHH_ of hub h (14_fronthaul_framing.md R330, R331, R344): a word written to a transmit window appends it. -/
def State.fhhWrite (s : State) (h : Fin 4) (o : Nat) (v : Word) : State :=
  if 0x100 ≤ o ∧ o < 0x300 ∧ o % 32 = 0 then s.schCfgWrite h (unitOf 16 ((o - 0x100) / 32) (by decide)) v
  else if 0x400 ≤ o ∧ o < 0x600 ∧ o % 32 = 12 then
    if s.regBit (schA h ((o - 0x400) / 32) 0) 0 then s else s.cmpWrite (.sch h (unitOf 16 ((o - 0x400) / 32) (by decide))) v
  else if 0x6000 ≤ o ∧ o < 0x7000 then s.txWindow h ((o - 0x6000) / 0x100) (toBytes 4 v.toNat)
  else s.plainWrite (.hub h.val 1) o v

/-- A write to ETH_ and ECP_ of hub h (R320, R324, R344). -/
def State.ethWrite (s : State) (h : Fin 4) (o : Nat) (v : Word) : State :=
  if o < 0x1800 ∧ o % 0x100 = 0 then s.ethCfgWrite h (o / 0x100) v
  else if 0x9000 ≤ o ∧ o < 0x9C00 then
    if o % 8 = 0 then s.eaxc0Write h ((o - 0x9000) / 8) v else s.eaxc1Write h ((o - 0x9000) / 8) v
  else s.plainWrite (.hub h.val 2) o v

/-- A write to CPRI_ and TRK_ of hub h (R320, R335, R342, R344). -/
def State.cpriWrite (s : State) (h : Fin 4) (o : Nat) (v : Word) : State :=
  if 0x100 ≤ o ∧ o < 0x400 ∧ o % 0x40 = 0 then s.cpriCfgWrite h ((o - 0x100) / 0x40) v
  else if 0x1000 ≤ o ∧ o < 0x1400 ∧ o % 16 = 0 then s.axcWrite h ((o - 0x1000) / 16) v
  else if 0x8100 ≤ o ∧ o < 0x8400 ∧ o % 32 = 0 then s.trkCfgWrite h ((o - 0x8100) / 32) v
  else if 0x8100 ≤ o ∧ o < 0x8400 ∧ o % 32 = 4 then s.trkLanesWrite h ((o - 0x8100) / 32) v
  else s.plainWrite (.hub h.val 3) o v

/-- A write to SLC_ (15_sluices_power.md R349, R361, R365, R369): CTL of a comparator that the controller uses ignores it. -/
def State.slcWrite (s : State) (o : Nat) (v : Word) : State :=
  if 0x100 ≤ o ∧ o < 0x2F0 ∧ o % 8 = 0 then s.forceWrite ((o - 0x100) / 8) v
  else if 0x480 ≤ o ∧ o < 0x4C0 ∧ o % 16 = 0 then s.clkWrite ((o - 0x480) / 16) v
  else if 0x500 ≤ o ∧ o < 0x520 then (s.plainWrite .slc o v).applyLimits (range4 ((o - 0x500) / 8))
  else if 0x1000 ≤ o ∧ o < 0x1400 ∧ o % 32 = 12 then
    if (o - 0x1000) / 32 ∈ s.slc.used then s else s.cmpWrite (.slc (unitOf 32 ((o - 0x1000) / 32) (by decide))) v
  else s.plainWrite .slc o v

/-- A write to the CQ_ block of a core: DONE_SET sets bits of DONE (05_command_queue.md R127). -/
def State.cqcWrite (s : State) (n k o : Nat) (v : Word) : State :=
  if o = 0x18 ∨ o = 0x1C then
    let a := (Block.cqc n k).at (o - 8)
    s.setReg a (s.reg a ||| v)
  else s.plainWrite (.cqc n k) o v

/-- The effect of a word written to a register block, its plane rule and power met. -/
def State.regEffect (s : State) (req : Requester) (b : Block) (o : Nat) (v : Word) : State :=
  match flumesAt b o with
  | some (f, n, p) => s.flmWrite f n b o p v
  | none =>
    match engineAt b o with
    | some (e, p) => if p = 4 then s.engCtl e v else s.plainWrite b o v
    | none =>
      match b with
      | .tb => s.tbWrite o v
      | .evf => s.evfWrite o v
      | .leat => s.leatWrite o v
      | .boot => if req = .cap ∧ 0x8000 ≤ o then s.capFuse o v else s.bootWrite o v
      | .mbx => s.mbxWrite o v
      | .hk => s.hkWrite o v
      | .rsv => s.rsvWrite o v
      | .slc => s.slcWrite o v
      | .hif => s.hifWrite o v
      | .mem n => s.memBlockWrite n o v
      | .dpt r => s.dptWrite req (range4 r) o v
      | .bfa r => s.bfaWrite (range4 r) o v
      | .cqc n k => s.cqcWrite n k o v
      | .hub h j =>
        match j with
        | 0 => s.lnWrite (range4 h) o v
        | 1 => s.fhhWrite (range4 h) o v
        | 2 => s.ethWrite (range4 h) o v
        | _ => s.cpriWrite (range4 h) o v
      | _ => s.plainWrite b o v

/-- A requester may write the register (01_device_overview.md R19): its plane may write the block, or it is EVF_SWEVT, which takes the
writes of every requester (R416), or a fuse the open CAP programs (R381). -/
def State.mayWrite (s : State) (req : Requester) (b : Block) (o : Nat) : Bool :=
  planeMayWrite req.plane b || (decide (b = .evf) && decide (o = 0x10)) ||
    (decide (b = .boot) && decide (req = .cap) && decide (0x8000 ≤ o) && !s.regBit (bootA 0x8000) 0)

/-- The self port is closed to a requester: it is not a core of the dispatcher's range (06_dispatcher.md, before R157). -/
def selfClosed (req : Requester) (b : Block) (o : Nat) : Bool :=
  match b with
  | .dpt r => decide (0x7000 ≤ o ∧ o < 0x7040) && (match req with
    | .core x => decide ((coreRange x).val ≠ r)
    | _ => true)
  | _ => false

/-- DPT_POST takes the writes of the range's cores and of the control plane only (06_dispatcher.md R135); a write of another requester is a
bus error without a violation (log entry 25). -/
def postClosed (req : Requester) (b : Block) (o : Nat) : Bool :=
  match b with
  | .dpt r => decide (o = 0x30) && (match req with
    | .core x => decide ((coreRange x).val ≠ r)
    | .bootRom => false
    | .summitCtl => false
    | _ => true)
  | _ => false

/-- A register takes no write of a requester. -/
def writeClosed (req : Requester) (b : Block) (o : Nat) : Bool := selfClosed req b o || postClosed req b o

/-- The block's unit has power and clock (15_sluices_power.md R345 to R347). -/
def State.blockOn (s : State) : Block → Bool
  | .dpt r => s.rinfOn r
  | .reng r => s.rinfOn r
  | .bfa r => s.bfaOn r
  | .flm n => s.ridgeOn n
  | .mem n => s.ridgeOn n
  | .fec n => s.ridgeOn n
  | .fft n => s.ridgeOn n
  | .eq n => s.ridgeOn n
  | .cq n => s.rfabOn (n / 6)
  | .cqc n _ => s.rfabOn (n / 6)
  | .hub h _ => s.rfabOn h
  | _ => true

/-- The offset is one of the self port's registers that hold a value a thread writes: WMASK, AMASK, ARG, DL_LO, DL_HI, REL_ARG, LEVEL
(06_dispatcher.md R157). -/
def selfHolds (b : Block) (o : Nat) : Bool :=
  match b with
  | .dpt _ => decide (o ∈ [0x7008, 0x700C, 0x7014, 0x7018, 0x701C, 0x7024, 0x7038])
  | _ => false

/-- Bits a write of part of a register takes from the register: those of the bytes it does not cover that hold a value (assumption
19). -/
def State.partWord (s : State) (req : Requester) (b : Block) (o : Nat) (v m : Word) : Word :=
  if m = 0xFFFFFFFF then v
  else if selfHolds b o then (v &&& m) ||| (s.regRead req b o &&& ~~~m)
  else
    let keep : Word := match rowAt (rowsOf b) o with
      | some r => BitVec.ofNat 32 (r.rw ||| r.rwl)
      | none => 0
    (v &&& m) ||| (s.reg (b.at o) &&& keep &&& ~~~m)

/-- A write to a register that reaches it and yet ends as a bus error: DPT_CS_DATA with a codeword that cannot be merged
(10_memory_protection.md R243, R246). -/
def State.regFails (s : State) (b : Block) (o : Nat) : Bool :=
  match b with
  | .dpt r => decide (o = 0x24) && s.csFails (range4 r)
  | _ => false

/-- A word written at a word offset of a block by a requester, byte lanes `m`: its effect, or a bus error (R19, R246). -/
def State.regWrite (s : State) (req : Requester) (b : Block) (o : Nat) (v m : Word) : State × Bool :=
  if s.mayWrite req b o = false then (s.violation req (b.at o), false)
  else if s.blockOn b = false ∨ writeClosed req b o = true then (s.busError, false)
  else if s.regFails b o then ((s.regEffect req b o v).busError, false)
  else (s.regEffect req b o (s.partWord req b o v m), true)

/-- A write of a whole word by a requester to an address of the map, as a command: endpoints and planes are met first. -/
def State.store (s : State) (req : Requester) (a : Nat) (v : Word) : State :=
  match s.gate req a 4 with
  | some (t, .fenced e) => t.refuse req e 1 false
  | some (t, .off e) => t.refuse req e 1 true
  | some (t, .err) => t.busError
  | some (t, .held) => { t with acc := .held }
  | some (t, .ok _) => t
  | none =>
    match decodeAddr s.part a with
    | .block b o =>
      let q := s.across req 1 a 4 fun t =>
        let q := t.regWrite req b o v 0xFFFFFFFF
        (q.1, if q.2 then .ok [] else .err)
      { q.1 with acc := match q.2 with
        | .ok _ => .ok []
        | _ => .busError }
    | _ => s

end Sys2Proof.Machine
end

