-- ==== Sys2Proof/Machine/Access.lean ====
section
/-! DEFINITION. Accesses of requesters to any address of the map: memories, register blocks, the hub windows and the host window
(01_device_overview.md R12 to R19, 10_memory_protection.md R246), and fills of the caches (R237). -/

namespace Sys2Proof.Machine

/-! One block of 256 bytes at its target -/

/-- The word offsets of a register block that n bytes from o touch. -/
def regWords (o n : Nat) : List Nat := (List.range ((o + n + 3) / 4 - o / 4)).map fun i => 4 * (o / 4 + i)

/-- A read of register bytes: words in address order, or a bus error. -/
def State.regBytes (s : State) (req : Requester) (b : Block) (o n : Nat) : Res :=
  if s.blockOn b = false ∨ (regWords o n).any (selfClosed req b) = true then .err
  else .ok ((((regWords o n).flatMap fun w => toBytes 4 (s.regRead req b w).toNat).drop (o % 4)).take n)

/-- The receive or transmit window of a hub that an offset of its FHH_ block lies in (14_fronthaul_framing.md R331). -/
def hubWindow (base : Nat) (b : Block) (o : Nat) : Option (Fin 4 × Nat) :=
  match b with
  | .hub h j => if j = 1 ∧ base ≤ o ∧ o < base + 0x1000 then some (range4 h, (o - base) / 0x100) else none
  | _ => none

/-- The requester is a channel of the hub's own flume engine. -/
def ownFlume (req : Requester) (h : Fin 4) : Bool :=
  match req with
  | .flume (.hub k _) => decide (k = h)
  | _ => false

/-- A read of registers; DPT_CS_DATA reads its codeword of the context store, which can fail (06_dispatcher.md R129, R130). -/
def State.regsRead (s : State) (req : Requester) (b : Block) (o n : Nat) : State × Res :=
  match b with
  | .dpt r =>
    if 0x24 ∈ regWords o n ∧ s.blockOn b = true then
      match s.csCell (range4 r) with
      | (t, some u) => (t, u.regBytes req b o n)
      | (t, none) => (t, .err)
    else (s, s.regBytes req b o n)
  | _ => (s, s.regBytes req b o n)

/-- A read of register space. -/
def State.blockRead (s : State) (req : Requester) (b : Block) (o n : Nat) : State × Res :=
  match hubWindow 0x4000 b o with
  | some (h, k) =>
    if s.rfabOn h.val = true ∧ ownFlume req h = true then let q := s.rxWindow h k n; (q.1, .ok q.2)
    else (s, s.regBytes req b o n)
  | none => s.regsRead req b o n

/-- Byte j of the word at w of a write from o, with its mask; mask 0 where the write does not cover it. -/
def wbyteAt (o : Nat) (data : List WByte) (w j : Nat) : WByte :=
  if o ≤ w + j then data.getD (w + j - o) (0, 0) else (0, 0)

/-- The word, or the mask, of a write from o at the word offset w. -/
def wordAt (o : Nat) (data : List WByte) (w : Nat) (mask : Bool) : Word :=
  BitVec.ofNat 32 (ofBytes ((List.range 4).map fun j => let b := wbyteAt o data w j; if mask then b.2 else b.1))

/-- A write of register space: refused as a whole where one of its words is (R19); else word by word in address order. -/
def State.blockWrite (s : State) (req : Requester) (b : Block) (o : Nat) (data : List WByte) : State × Res :=
  let ws := (regWords o data.length).filter fun w => decide (wordAt o data w true ≠ 0)
  match ws.find? (fun w => !s.mayWrite req b w) with
  | some w => (s.violation req (b.at w), .err)
  | none =>
    if s.blockOn b = false ∨ ws.any (writeClosed req b) = true then (s, .err)
    else match hubWindow 0x6000 b o with
      | some (h, k) => (s.txWindow h k ((data.filter fun d => decide (d.2 ≠ 0)).map (·.1)), .ok [])
      | none =>
        let q := ws.foldl (fun (t : State × Bool) w =>
          let p := t.1.regWrite req b w (wordAt o data w false) (wordAt o data w true)
          (p.1, t.2 && p.2)) (s, true)
        (q.1, if q.2 then .ok [] else .err)

/-- A read at its target, within a block. -/
def State.targetRead (s : State) (req : Requester) (a n : Nat) : State × Res :=
  match decodeAddr s.part a with
  | .block b o => s.blockRead req b o n
  | _ => s.memReadAt req a n

/-- A write at its target, within a block. -/
def State.targetWrite (s : State) (req : Requester) (a : Nat) (data : List WByte) : State × Res :=
  match decodeAddr s.part a with
  | .block b o => s.blockWrite req b o data
  | _ => s.memWriteAt req a data

/-! Accesses -/

/-- A read by a requester. -/
def State.busRead (s : State) (req : Requester) (a n : Nat) : State × Res :=
  match s.gate req a n with
  | some q => q
  | none => overBlocks (fun t p k => t.across req 0 p k fun t => t.targetRead req p k) s a n

/-- A write by a requester. -/
def State.busWrite (s : State) (req : Requester) (a : Nat) (data : List WByte) : State × Res :=
  match s.gate req a data.length with
  | some q => q
  | none => overBlocks (fun t p k => t.across req 1 p k fun t => t.targetWrite req p ((data.drop (p - a)).take k)) s a data.length

/-- A refusal by an endpoint ends as a bus error, counted and recorded (11_leat_fabric.md R267). -/
def State.settleRes (q : State × Res) (req : Requester) (ty : Nat) : State × Res :=
  match q.2 with
  | .fenced e => (q.1.refuse req e ty false, .err)
  | .off e => (q.1.refuse req e ty true, .err)
  | r => (q.1, r)

/-! Caches (10_memory_protection.md R237) -/

/-- Number of a cache among the owners of lines. -/
def cacheOwner : CacheId → Nat
  | .core x => x.val
  | .eng e => 1000 + e.index

/-- The requester that fills a cache. -/
def cacheReq : CacheId → Requester
  | .core x => .core x
  | .eng e => .engine e

/-- The ridge whose MEM_ block counts for a cache; its count register; its CAUSE bit. Range engines have none. -/
def cacheRegs : CacheId → Option (Nat × Nat × Nat)
  | .core x => some (x.val / 8, memA (x.val / 8) (0x60 + 4 * (x.val % 8)), 3)
  | .eng (.codec n) => some (n.val, memA n.val 0x80, 4)
  | .eng (.fft n) => some (n.val, memA n.val 0x84, 4)
  | .eng (.eq n) => some (n.val, memA n.val 0x88, 4)
  | .eng _ => none

/-- TARGET and UNIT that select a cache for injection (R252). -/
def cacheSel : CacheId → Nat × Nat
  | .core x => (2, x.val % 8)
  | .eng (.codec _) => (3, 0)
  | .eng (.fft _) => (3, 1)
  | .eng (.eq _) => (3, 2)
  | .eng _ => (3, 8)

/-- Lines a cache holds at most: 64 KiB of a core, 16 KiB of an engine (R233). -/
def cacheSize : CacheId → Nat
  | .core _ => 1024
  | .eng _ => 256

/-- A line as a cache holds it. -/
def State.lineOf (s : State) (c : CacheId) (line : Nat) : Option CacheLine :=
  s.prot.lines.find? fun l => decide (l.owner = cacheOwner c) && decide (l.line = line)

/-- A line fails its CRC as stored. -/
def CacheLine.bad (l : CacheLine) : Bool := decide (crc16 l.data ≠ l.crc)

/-- A line that a cache holds fails its CRC. -/
def State.lineBad (s : State) (c : CacheId) (line : Nat) : Bool := (s.lineOf c line).any CacheLine.bad

/-- A line of a cache could not be had: its owner's next access to it fails. -/
def State.lineGone (s : State) (c : CacheId) (line : Nat) : Bool := decide ((cacheOwner c, line) ∈ s.prot.fetchErr)

/-- A line is invalid, and no failure of it stands. -/
def State.lineClear (s : State) (c : CacheId) (line : Nat) : State :=
  { s with prot := { s.prot with
    lines := s.prot.lines.filter (fun l => !(decide (l.owner = cacheOwner c) && decide (l.line = line)))
    fetchErr := s.prot.fetchErr.filter (fun p => decide (p ≠ (cacheOwner c, line))) } }

/-- The second failure of a line: counted, recorded and reported; the access fails, and the line is invalid. -/
def State.lineFail (s : State) (c : CacheId) (line : Nat) : State :=
  let s := s.lineClear c line
  let s := { s with prot := { s.prot with fetchErr := s.prot.fetchErr ++ [(cacheOwner c, line)] } }
  match cacheRegs c with
  | some (n, cnt, b) =>
    ((s.count16 cnt 16).setRegBit (memA n 8) b true).raiseIf (s.regBit (memA n 4) 2) (1728 + 2 * n)
  | none => s

/-- An armed mask that selects a fill: of which ridge (R252). -/
def State.lineMask (s : State) (c : CacheId) (line : Nat) : Option Nat :=
  match cacheRegs c with
  | none => none
  | some (n, _, _) => (s.flipSel n).bind fun f =>
      if (f.target, f.unit) = cacheSel c ∧ (f.addrEn = false ∨ f.addr / 64 = line) then some n else none

/-- A line with its CRC as a ridge's mask stores it: bytes 0 to 31 and the CRC (R252). -/
def State.maskLine (s : State) (n : Nat) (l : CacheLine) : CacheLine :=
  let base := memA n 0x100
  let m := (List.range 8).flatMap fun i => toBytes 4 (s.reg (base + 0x10 + 4 * i)).toNat
  { l with data := (l.data.zip (m ++ List.replicate 32 0)).map (fun p => p.1 ^^^ p.2), crc := l.crc ^^^ s.regFld (base + 0x30) 15 0 }

/-- A full cache loses one of its lines to a new one; the spec does not say which, so a free value does (log entry 40). -/
def State.lineRoom (s : State) (c : CacheId) : State :=
  let own := s.prot.lines.filter fun l => decide (l.owner = cacheOwner c)
  if own.length < cacheSize c then s
  else
    match own[s.free 0 % own.length]? with
    | some l => { s.draw with prot := { s.prot with lines := s.prot.lines.filter fun k => decide (k ≠ l) } }
    | none => s

/-- A line stored with its CRC, and with an armed mask that selects it applied; the refetch of a line that then fails its CRC is its second
failure (R237, R252). -/
def State.lineStore (s : State) (c : CacheId) (line : Nat) (data : List Byte) (refetch : Bool) : State :=
  let s := (s.lineClear c line).lineRoom c
  let l : CacheLine := ⟨cacheOwner c, line, data, crc16 data⟩
  let put (s : State) (l : CacheLine) : State :=
    if refetch && l.bad then s.lineFail c line else { s with prot := { s.prot with lines := s.prot.lines ++ [l] } }
  match s.lineMask c line with
  | some n => put (s.flipDone (memA n 0x100) n (memA n 8) (memA n 4) (1729 + 2 * n)) (s.maskLine n l)
  | none => put s l

/-- CACHE_FILL: the line of a cache that holds an address is filled from its source, or filled once more after its CRC failed. -/
def execCacheFill (c : CacheId) (a : Addr) (s : State) : Out :=
  run s fun s =>
    let line := a.toNat / 64
    let again := s.lineBad c line
    let q := s.busRead (cacheReq c) (64 * line) 64
    match q.2 with
    | .held => q.1
    | r =>
      let t := (State.settleRes q (cacheReq c) 0).1
      let t := match again, cacheRegs c with
        | true, some (_, cnt, _) => t.count16 cnt 0
        | _, _ => t
      match r with
      | .ok d => t.lineStore c line d again
      | _ => t.lineFail c line

end Sys2Proof.Machine
end

