-- ==== Sys2Proof/Machine/BfaOps.lean ====
section
/-! DEFINITION. The operations of a beamforming array (08_beamforming_array.md R197 to R209, R215 to R217). Values are computed exactly and
narrowed as R197 says; how far above the smallest one an exponent lies, and a quotient by zero, are free (log entry 17). -/

namespace Sys2Proof.Machine

/-! Numbers (R166, R197, R198) -/

/-- x · 2^n, truncated toward minus infinity (R76). -/
def scaleInt (x : Int) (n : Int) : Int := if 0 ≤ n then x * 2 ^ n.toNat else x / 2 ^ (-n).toNat

/-- Product of complex integers, each part shifted right (R197). -/
def cmulShift (a b : Cplx) (sh : Nat) : Cplx :=
  ((a.1 * b.1 - a.2 * b.2) / 2 ^ sh, (a.1 * b.2 + a.2 * b.1) / 2 ^ sh)

/-! Weight sets (R207, R219) -/

/-- A weight set as its registers describe it. -/
structure WSet where
  line : Nat
  l : Nat
  a : Nat
  group : Nat
  start : Nat
  nprb : Nat
  deriving DecidableEq, Repr

/-- Weight set i. -/
def State.wset (s : State) (r : Fin 4) (i : Nat) : WSet :=
  let b := bfaA r (0x400 + 0x10 * i)
  let c := s.reg (b + 4)
  let p := s.reg (b + 8)
  ⟨s.regFld b 17 0, fld c 5 0, fld c 12 6, 2 ^ min 4 (fld c 15 13), fld p 8 0, fld p 24 16⟩

/-- Lines of a group record of the set. -/
def WSet.stride (w : WSet) : Nat := 1 + ceilDiv (w.l * w.a) 16

/-- Line of group g. -/
def WSet.groupLine (w : WSet) (g : Nat) : Nat := w.line + 1 + g * w.stride

/-- Group of a PRB of the carrier; none where the set does not cover it. -/
def WSet.groupOf (w : WSet) (b : Nat) : Option Nat :=
  if w.start ≤ b ∧ b < w.start + w.nprb then some ((b - w.start) / w.group) else none

/-- Groups of a set. -/
def WSet.groups (w : WSet) : Nat := ceilDiv w.nprb w.group

/-- Byte address of a line of weight memory. -/
def wLine (r : Fin 4) (line : Nat) : Nat := spaceWeights r.val + 64 * (line % 2 ^ 18)

/-- Lines of weight memory read; none where the read fails (R215). -/
def State.wRead (s : State) (r : Fin 4) (line n : Nat) : State × Option (List Byte) :=
  match s.cwRead (.range r.val 2) (wLine r line) (64 * n) with
  | (t, .ok d) => (t, some d)
  | (t, _) => (t, none)

/-- Bytes of weight memory written; whether a merge met a line that fails (R215, 10_memory_protection.md R247). -/
def State.wWrite (s : State) (r : Fin 4) (line ofs : Nat) (d : List Byte) : State × Bool :=
  match s.cwWrite (.range r.val 2) (wLine r line + ofs) (wholeBytes d) with
  | (t, .ok _) => (t, false)
  | (t, _) => (t, true)

/-! What an operation does -/

/-- Outcome of an operation's work (R215). -/
structure OpOut where
  s : State
  waits : Option (Nat × Nat) := none
  status : Nat := 0
  detail : Nat := 0
  /-- FLAGS of the record but for LATE -/
  flags : Nat := 0
  groups : Nat := 0
  pages : List Nat := []
  set : Option Nat := none
  cycles : Nat := 1

/-- The operation ends with PARAM (R200). -/
def paramOut (s : State) (d : Nat) : OpOut := { s := s, status := 2, detail := d }

/-- The first check of a list that fails. -/
def firstBad (l : List (Nat × Bool)) : Option Nat := (l.find? (fun p => !p.2)).map (·.1)

/-- All n bytes from o are 0. -/
def zeroBytes (e : List Byte) (o n : Nat) : Bool := decide (eFld e o n = 0)

/-- Checks of the header of an entry (R199, R200). -/
def headerChecks (e : List Byte) : List (Nat × Bool) :=
  [ (4, decide (eOp e ≤ 7)), (5, decide (eFld e 5 1 < 16)), (6, decide (eFld e 6 1 < 4)), (7, zeroBytes e 7 1),
    (8, decide (eFld e 8 2 < 1024)), (10, decide (eFld e 10 1 < 32)), (11, zeroBytes e 11 5) ]

/-- SLOT_OFS is −4 to +4. -/
def slotOfsOk (e : List Byte) : Bool := decide (-4 ≤ sext 8 (eFld e 17 1) ∧ sext 8 (eFld e 17 1) ≤ 4)

/-- n bytes from a lie in a pool of the range or in the reservoir (R201). -/
def bfaWindow (r : Fin 4) (a n : Nat) : Bool :=
  decide (a + n ≤ 0x800000000) || (List.range 6).any (fun k =>
    let b := ridgeBase (6 * r.val + k) + 0x400000
    decide (b ≤ a ∧ a + n ≤ b + 0x800000))

/-- A pointer obeys R201: extent of n bytes from `ofs` after it, alignment m. -/
def ptrOk (r : Fin 4) (p ofs n m : Nat) : Bool :=
  decide (p < 2 ^ 40 ∧ p % m = 0) && (n = 0 || bfaWindow r (p + ofs) n)

/-- Slot number of an operation (R210, R213). -/
def opSlot (op : BfaOp) (c : Cell) (ofs : Int) : Nat := (((op.slot : Int) + ofs) % ((2560 * 2 ^ c.mu : Nat) : Int)).toNat

/-- The cell fields that an operation uses are in range (R200): GSTRIDE only with layer grids, MW only with BFP output. -/
def cellOk (c : Cell) (grids down : Bool) : Bool :=
  c.en && decide (1 ≤ c.a ∧ c.a ≤ 64 ∧ 1 ≤ c.nprb ∧ c.nprb ≤ 275) && (!grids || decide (48 * c.nprb ≤ c.gstride)) &&
    (!down || !c.comp || decide (8 ≤ c.mw ∧ c.mw ≤ 16))

/-- Groups that are worked on: all, or as many as are finished where EN was cleared, one at least (R216). -/
def groupsDone (stop : Option Nat) (n : Nat) : Nat :=
  match stop with
  | none => n
  | some k => min (max k 1) n

/-! Antenna samples (R195) -/

/-- 12 samples of PRB b of symbol N of an antenna: zeros and missing, or as written; none where the read fails. -/
def State.antPrb (s : State) (r : Fin 4) (cell a n b : Nat) : State × Option (List Byte × Nat) :=
  match s.streamFor r false cell a with
  | none => (s, some (List.replicate 48 0, 1))
  | some i =>
    let p := (s.stream r i).page n
    let g := s.page r p
    if g.tag = BitVec.ofNat 20 n ∧ bit g.valid b then
      match s.cwRead (.range r.val 1) (pageAt r p b) 48 with
      | (t, .ok d) => (t, some (d, 0))
      | (t, _) => (t, none)
    else (s, some (List.replicate 48 0, 1))

/-- PRB b of all antennas of a cell: samples by antenna, PRBs missing, whether a read failed. -/
def State.antAll (s : State) (r : Fin 4) (cell na n b : Nat) : State × List (List Byte) × Nat × Bool :=
  (List.range na).foldl (fun (acc : State × List (List Byte) × Nat × Bool) a =>
    match acc.1.antPrb r cell a n b with
    | (t, some (d, k)) => (t, acc.2.1 ++ [d], acc.2.2.1 + k, acc.2.2.2)
    | (t, none) => (t, acc.2.1 ++ [List.replicate 48 0], acc.2.2.1, true)) (s, [], 0, false)

/-- Pages that an operation on symbol N of a cell reads. -/
def State.opPages (s : State) (r : Fin 4) (cell na n : Nat) : List Nat :=
  (List.range na).filterMap fun a => (s.streamFor r false cell a).map fun i => (s.stream r i).page n

/-! Combining and precoding (R198, R202) -/

/-- The weight set an operation resolves, and whether it is the fallback set (R209). -/
def State.resolveSet (s : State) (r : Fin 4) (cell : Nat) (down : Bool) (wsel wset : Nat) : Nat × Bool :=
  let st := s.reg (cellA r cell 12)
  let sets := s.reg (cellA r cell 8)
  let fb := if down then fld sets 13 8 else fld sets 5 0
  let cold := bit st (if down then 1 else 0)
  if wsel = 2 then (wset, false)
  else if wsel = 1 ∨ cold then (fb, true)
  else (if down then fld st 13 8 else fld st 7 2, false)

/-- Fields of a combining or precoding entry. -/
structure Comb where
  sym : Nat
  l : Nat
  first : Nat
  split : Nat
  wsel : Nat
  wset : Nat
  oshift : Nat
  p : List Nat
  deriving DecidableEq, Repr

/-- The fields from an entry. -/
def combOf (e : List Byte) : Comb :=
  ⟨eFld e 16 1, eFld e 18 1, eFld e 19 1, eFld e 20 1, eFld e 21 1, eFld e 22 2, eFld e 24 1,
    [eFld e 32 8, eFld e 40 8, eFld e 48 8, eFld e 56 8]⟩

/-- Grids of the first pointer (0) or the second (1). -/
def Comb.layers (f : Comb) (i : Nat) : Nat := if i = 0 then f.split else f.l - f.split

/-- Checks of a combining or precoding entry, in byte order (R200, R201). -/
def combChecks (r : Fin 4) (f : Comb) (c : Cell) (e : List Byte) (down : Bool) : List (Nat × Bool) :=
  let grid (i : Nat) : Bool :=
    let n := f.layers i
    ptrOk r (f.p.getD i 0) (f.sym * c.gstride) (if n = 0 then 0 else (n - 1) * c.nsym * c.gstride + 48 * c.nprb) 4
  let exps (i : Nat) : Bool :=
    let n := f.layers i
    ptrOk r (f.p.getD (2 + i) 0) f.sym (if n = 0 then 0 else (n - 1) * c.nsym + 1) 4
  headerChecks e ++
  [ (16, decide (f.sym < c.nsym)), (17, slotOfsOk e), (18, decide (1 ≤ f.l ∧ f.l ≤ if down then 16 else 32)),
    (20, decide (f.split ≤ f.l)), (21, decide (f.wsel ≤ 2)), (22, decide (f.wsel ≠ 2 ∨ f.wset < 64)),
    (24, if down then decide (f.oshift = 0) else decide (f.oshift ≤ 32)), (25, zeroBytes e 25 7),
    (32, grid 0), (40, grid 1), (48, exps 0), (56, exps 1), (0xFFFF, cellOk c true down) ]

/-- Address of the grid of layer i of the operation, and of its EXP8 (R202). -/
def Comb.gridAt (f : Comb) (c : Cell) (i : Nat) : Nat × Nat :=
  if i < f.split then (f.p.getD 0 0 + (i * c.nsym + f.sym) * c.gstride, f.p.getD 2 0 + i * c.nsym + f.sym)
  else (f.p.getD 1 0 + ((i - f.split) * c.nsym + f.sym) * c.gstride, f.p.getD 3 0 + (i - f.split) * c.nsym + f.sym)

/-- Operand number of layer i's grid, and of its EXP8 (R214). -/
def Comb.opOf (f : Comb) (i : Nat) : Nat × Nat := if i < f.split then (1, 3) else (2, 4)

/-- Weight of layer l for antenna a in a group record; one outside the set is a free value. -/
def wAt (w : WSet) (d : List Byte) (fr : Nat → Nat) (l a : Nat) : Cplx :=
  if l < w.l ∧ a < w.a then iqAt (d.drop 64) (l * w.a + a)
  else (sext 16 (fr (2 * (64 * l + a))), sext 16 (fr (2 * (64 * l + a) + 1)))

/-- The group that a PRB belongs to for its output: that of the weight set, or, outside the set, one of its own. -/
def WSet.key (w : WSet) (b : Nat) : Nat := (w.groupOf b).getD (w.groups + b)

/-- The PRBs of a carrier that are worked on, and the count of their groups (R216). -/
def WSet.prbs (w : WSet) (n : Nat) (stop : Option Nat) : List Nat × Nat :=
  let keys := ((List.range n).map w.key).eraseDups
  let k := groupsDone stop keys.length
  ((List.range n).filter fun b => decide (w.key b ∈ keys.take k), k)

/-- Weights of PRB b: shift to the set's exponent, WEXP of the group, weights. A PRB outside the set has free weights. -/
structure PrbW where
  shift : Nat
  wexp : Int
  w : Nat → Nat → Cplx

/-- The weights of PRB b; none where their read fails. -/
def State.prbWeights (s : State) (r : Fin 4) (w : WSet) (wexpSet : Int) (b : Nat) : State × Option PrbW :=
  match w.groupOf b with
  | none => (s, some ⟨0, wexpSet, fun l a => (sext 16 (s.free (b * 8192 + 2 * (64 * l + a))),
      sext 16 (s.free (b * 8192 + 2 * (64 * l + a) + 1)))⟩)
  | some g =>
    match s.wRead r (w.groupLine g) w.stride with
    | (t, none) => (t, none)
    | (t, some d) =>
      let e := sext 8 (eFld d 0 1)
      (t, some ⟨(wexpSet - e).toNat, e, wAt w d (fun i => s.free (b * 8192 + i))⟩)

/-- Counts of an operation in progress. -/
structure Tally where
  missing : Nat := 0
  sat : Nat := 0
  /-- groups output as zero -/
  bad : List Nat := []
  /-- a line that fails was met elsewhere: a header, or a merge -/
  mem : Bool := false
  /-- groups kept (R206) -/
  kept : Nat := 0
  deriving DecidableEq, Repr

/-- The status of an operation by its conditions (R215). -/
def tallyStatus (t : Tally) (noWeights : Bool) : Nat × Nat :=
  if t.mem ∨ t.bad.eraseDups ≠ [] then (0x44, t.bad.eraseDups.length)
  else if noWeights then (0x43, 0)
  else if 0 < t.kept then (0x42, t.kept)
  else if 0 < t.missing then (0x40, min 65535 t.missing)
  else if 0 < t.sat then (0x41, min 65535 t.sat)
  else (0, 0)

/-- What a PRB of an operation on grids came to: its group, PRBs missing, and its output with the count of values saturated, or a failed
read. -/
structure PrbOut (α : Type) where
  key : Nat
  miss : Nat
  out : Option (α × Nat)

/-- The outputs of PRBs in order: with a failed read in its group a PRB is output as zero (R215). -/
def prbsOut {α : Type} (l : List (PrbOut α)) (zero : α) : List α × Tally :=
  let bad := (l.filter fun p => p.out.isNone).map (·.key)
  let keep (p : PrbOut α) : Option (α × Nat) := if p.key ∈ bad then none else p.out
  (l.map fun p => ((keep p).map (·.1)).getD zero,
    { missing := (l.map (·.miss)).foldl (· + ·) 0, sat := (l.map fun p => ((keep p).map (·.2)).getD 0).foldl (· + ·) 0
      bad := bad.eraseDups })

/-- One PRB combined: the samples of each layer (R202, R197). -/
def ulPrb (f : Comb) (pw : PrbW) (ys : List (List Byte)) (l : Nat) : List Cplx :=
  (List.range 12).map fun k =>
    csum (ys.zipIdx.map fun y => cmulShift (pw.w (f.first + l) y.2) (iqAt y.1 k) pw.shift)

/-- The bytes of each layer of a PRB, and values saturated (R198). -/
def ulBytes (f : Comb) (pw : PrbW) (ys : List (List Byte)) : List (List Byte) × Nat :=
  let z := (List.range f.l).map fun l => (ulPrb f pw ys l).map fun z => (narrowN 16 (z.1 / 2 ^ f.oshift), narrowN 16 (z.2 / 2 ^ f.oshift))
  (z.map fun q => q.flatMap fun p => iqBytes (p.1.1, p.2.1), (z.flatten.map fun p => p.1.2 + p.2.2).foldl (· + ·) 0)

/-- A weight set's header as an operation reads it: usable or not, and WEXP_SET; a header that fails has zeros (R207, R215). -/
structure SetHdr where
  failed : Bool
  valid : Bool
  wexp : Int

/-- The header of a set. -/
def State.setHdr (s : State) (r : Fin 4) (w : WSet) : State × SetHdr :=
  match s.wRead r w.line 1 with
  | (t, some h) => (t, ⟨false, (eFld h 1 1).testBit 0, sext 8 (eFld h 0 1)⟩)
  | (t, none) => (t, ⟨true, false, 0⟩)

/-- One PRB of a UL_COMBINE. -/
def State.ulStep (s : State) (r : Fin 4) (f : Comb) (c : Cell) (cell n : Nat) (w : WSet) (h : SetHdr) (b : Nat) :
    State × PrbOut (List (List Byte)) :=
  match s.prbWeights r w h.wexp b with
  | (s, none) => (s, ⟨w.key b, 0, none⟩)
  | (s, some pw) =>
    let (s, ys, miss, fail) := s.antAll r cell c.a n b
    (s, ⟨w.key b, miss, if fail || h.failed then none
      else some (if h.valid then ulBytes f pw ys else (List.replicate f.l (List.replicate 48 0), 0))⟩)

/-- UL_COMBINE (R202). -/
def State.ulCombine (s : State) (r : Fin 4) (op : BfaOp) (stop : Option Nat) : OpOut :=
  let e := op.entry
  let cell := eFld e 5 1 % 16
  let c := s.cell r cell
  let f := combOf e
  match firstBad (combChecks r f c e false) with
  | some d => paramOut s d
  | none =>
    let (set, cold) := s.resolveSet r cell false f.wsel f.wset
    let w := s.wset r set
    let (s1, h) := s.setHdr r w
    let ex := c.inExp + h.wexp + f.oshift
    if !decide (-128 ≤ ex ∧ ex ≤ 127) then paramOut s 24
    else
      let n := opSlot op c (sext 8 (eFld e 17 1)) * c.nsym + f.sym
      let todo := w.prbs c.nprb stop
      let q := todo.1.foldl (fun (a : State × List (PrbOut (List (List Byte)))) b =>
        let p := a.1.ulStep r f c cell n w h b
        (p.1, a.2 ++ [p.2])) (s1.draw, [])
      let (outs, t) := prbsOut q.2 (List.replicate f.l (List.replicate 48 0))
      let j := (List.range f.l).foldl (fun (j : Job) l =>
        let g := f.gridAt c l
        let o := f.opOf l
        (j.write (.bfa r) o.1 g.1 (wholeBytes (outs.flatMap fun p => p.getD l []))).write (.bfa r) o.2 g.2
          (wholeBytes [BitVec.ofInt 8 ex])) { s := q.1 }
      let st := tallyStatus t (!h.valid)
      { s := j.s, waits := j.waits
        status := if j.bus.isSome then 1 else st.1
        detail := match j.bus with
          | some o => o
          | none => st.2
        flags := if cold then 2 else 0
        groups := todo.2
        pages := s.opPages r cell c.a n
        set := some set
        cycles := ceilDiv (c.a * f.l * 12 * c.nprb) 1024 }

/-- Mantissas of a PRB at exponent e, width n: values and how many saturate (R198). -/
def dlMant (z : List Cplx) (ex : Int) (n e : Nat) : List (Int × Nat) :=
  (z.flatMap fun p => [p.1, p.2]).map fun x => narrowN n (scaleInt x (ex - e))

/-- Exponent and mantissas of a PRB of a downlink stream (R198). -/
def dlPack (c : Cell) (z : List Cplx) (ex : Int) : Nat × List (Int × Nat) :=
  if c.comp then
    let e := ((List.range 16).find? fun e => (dlMant z ex c.mw e).all (fun p => p.2 = 0)).getD 15
    (e, dlMant z ex c.mw e)
  else (0, dlMant z ex 16 0)

/-- The packed PRB of each antenna, and values saturated (R197, R198). -/
def dlAnts (f : Comb) (c : Cell) (pw : PrbW) (grids : List (List Byte)) (exps : List Int) (b : Nat) : List (Nat × List Int) × Nat :=
  let em := exps.foldl max (exps.headD 0)
  let xs := (List.range c.a).map fun a => dlPack c ((List.range 12).map fun k =>
    csum (grids.zipIdx.map fun g =>
      cmulShift (pw.w (f.first + g.2) a) (iqAt g.1 (12 * b + k)) (em - exps.getD g.2 0).toNat)) (pw.wexp + em - c.outExp)
  (xs.map fun p => (p.1, p.2.map (·.1)), (xs.flatMap fun p => p.2.map (·.2)).foldl (· + ·) 0)

/-- One PRB of a DL_PRECODE: the packed PRB of each antenna. -/
def State.dlStep (s : State) (r : Fin 4) (f : Comb) (c : Cell) (w : WSet) (h : SetHdr) (grids : List (List Byte)) (exps : List Int)
    (b : Nat) : State × PrbOut (List (Nat × List Int)) :=
  match s.prbWeights r w h.wexp b with
  | (s, none) => (s, ⟨w.key b, 0, none⟩)
  | (s, some pw) =>
    (s, ⟨w.key b, 0, if h.failed then none
      else some (if h.valid then dlAnts f c pw grids exps b else (List.replicate c.a (0, List.replicate 24 0), 0))⟩)

/-- The antenna symbols handed to the hub: each to the stream of its antenna; one without a stream is discarded (R202). -/
def State.handDown (s : State) (r : Fin 4) (cell n : Nat) (c : Cell) (ants : List (List (Nat × List Int))) : State × Nat :=
  ants.zipIdx.foldl (fun (acc : State × Nat) p =>
    match acc.1.streamFor r true cell p.2 with
    | none => (acc.1, acc.2 + c.nprb)
    | some i => (acc.1.modHub r fun h => { h with
        dl := h.dl.filter (fun d => decide (d.stream ≠ i ∨ d.sym ≠ n)) ++ [⟨i, n, c.comp, if c.comp then c.mw else 16, p.1⟩] },
        acc.2)) (s, 0)

/-- DL_PRECODE (R202). -/
def State.dlPrecode (s : State) (r : Fin 4) (op : BfaOp) (stop : Option Nat) : OpOut :=
  let e := op.entry
  let cell := eFld e 5 1 % 16
  let c := s.cell r cell
  let f := combOf e
  match firstBad (combChecks r f c e true) with
  | some d => paramOut s d
  | none =>
    let (set, cold) := s.resolveSet r cell true f.wsel f.wset
    let w := s.wset r set
    let (s1, h) := s.setHdr r w
    let n := opSlot op c (sext 8 (eFld e 17 1)) * c.nsym + f.sym
    let ins := (List.range f.l).foldl (fun (a : Job × List (List Byte) × List Int) l =>
      let g := f.gridAt c l
      let o := f.opOf l
      let (j, d) := a.1.read (.bfa r) o.1 g.1 (48 * c.nprb)
      let (j, x) := j.read (.bfa r) o.2 g.2 1
      (j, a.2.1 ++ [d], a.2.2 ++ [sext 8 (eFld x 0 1)])) (({ s := s1.draw } : Job), [], [])
    let j := ins.1
    if j.live then
      let todo := w.prbs c.nprb stop
      let q := todo.1.foldl (fun (a : State × List (PrbOut (List (Nat × List Int)))) b =>
        let p := a.1.dlStep r f c w h ins.2.1 ins.2.2 b
        (p.1, a.2 ++ [p.2])) (j.s, [])
      let (outs, t) := prbsOut q.2 (List.replicate c.a (0, List.replicate 24 0))
      let (s2, miss) := q.1.handDown r cell n c ((List.range c.a).map fun a => outs.map fun p => p.getD a (0, []))
      let st := tallyStatus { t with missing := t.missing + miss } (!h.valid)
      { s := s2, status := st.1, detail := st.2, flags := if cold then 2 else 0, groups := todo.2, set := some set
        cycles := ceilDiv (c.a * f.l * 12 * c.nprb) 1024 }
    else { s := j.s, waits := j.waits, status := 1, detail := j.bus.getD 0, flags := if cold then 2 else 0, set := some set }

/-! Sounding and covariance (R203 to R205) -/

/-- Lines and bytes written to weight memory: (line, byte offset, bytes); whether a merge failed. -/
def State.wWrites (s : State) (r : Fin 4) (l : List (Nat × Nat × List Byte)) : State × Bool :=
  l.foldl (fun t p =>
    let q := t.1.wWrite r p.1 p.2.1 p.2.2
    (q.1, t.2 || q.2)) (s, false)

/-- Fields that SRS_EST and COV_ACC share. -/
structure Srs where
  sym : Nat
  nrow : Nat
  ktc : Nat
  comb : Nat
  group : Nat
  start : Nat
  nprb : Nat
  b26 : Nat
  gap : Nat
  line : Nat
  seq : Nat
  deriving DecidableEq, Repr

/-- The fields from an entry. -/
def srsOf (e : List Byte) : Srs :=
  ⟨eFld e 16 1, eFld e 18 1, eFld e 19 1, eFld e 20 1, eFld e 21 1, eFld e 22 2, eFld e 24 2, eFld e 26 1, eFld e 27 1,
    eFld e 28 4, eFld e 32 8⟩

/-- GROUP is 1, 2, 4, 8 or 16. -/
def groupOk (g : Nat) : Bool := decide (g ∈ [1, 2, 4, 8, 16])

/-- Checks of an SRS_EST entry (R203). -/
def srsChecks (r : Fin 4) (f : Srs) (c : Cell) (e : List Byte) : List (Nat × Bool) :=
  let ncs := if f.ktc = 2 then 8 else if f.ktc = 4 then 12 else 6
  headerChecks e ++
  [ (16, decide (f.sym < c.nsym)), (17, slotOfsOk e), (18, decide (1 ≤ f.nrow ∧ f.nrow ≤ 32)),
    (19, decide (f.ktc ∈ [2, 4, 8])), (20, decide (f.comb < f.ktc)),
    (21, groupOk f.group && decide (12 * f.group % (f.ktc * ncs) = 0)), (22, decide (f.start < c.nprb)),
    (24, decide (0 < f.nprb ∧ f.nprb % 4 = 0 ∧ f.start + f.nprb ≤ c.nprb)), (26, decide (f.b26 ≤ 7)),
    (27, decide (1 ≤ f.gap)), (28, decide (f.line < 2 ^ 18)),
    (32, ptrOk r f.seq 0 (f.nrow * 4 * (12 * f.nprb / f.ktc)) 4), (40, zeroBytes e 40 24), (0xFFFF, cellOk c false false) ]

/-- A channel record's header (R204). -/
structure RecHdr where
  magic : Nat
  slot : Nat
  count : Nat
  nrow : Nat
  a : Nat
  start : Nat
  nprb : Nat
  group : Nat
  deriving DecidableEq, Repr

/-- The header from its line. -/
def recHdr (d : List Byte) : RecHdr :=
  ⟨eFld d 0 4, eFld d 4 4, eFld d 8 2, eFld d 10 1, eFld d 11 1, eFld d 12 2, eFld d 14 2, eFld d 16 1⟩

/-- The 17 bytes of a header. -/
def RecHdr.bytes (h : RecHdr) : List Byte :=
  toBytes 4 h.magic ++ toBytes 4 h.slot ++ toBytes 2 h.count ++ toBytes 1 h.nrow ++ toBytes 1 h.a ++ toBytes 2 h.start ++
    toBytes 2 h.nprb ++ toBytes 1 h.group

/-- What SRS_EST does with the record (R203): history used, record written, COUNT, record flags. -/
def srsHistory (h : RecHdr) (f : Srs) (c : Cell) (slot : Nat) : Bool × Bool × Nat × Nat :=
  let d := ((slot : Int) - h.slot) % ((2560 * 2 ^ c.mu : Nat) : Int)
  if h.magic ≠ 0x42460001 ∨ h.nrow ≠ f.nrow ∨ h.a ≠ c.a ∨ h.start ≠ f.start ∨ h.nprb ≠ f.nprb ∨ h.group ≠ f.group then
    (false, true, 1, 0)
  else if d = 0 then (false, false, h.count, 16)
  else if d ≤ f.gap then (true, true, min 65535 (h.count + 1), 0)
  else (false, true, 1, 8)

/-- One group of an SRS_EST: the samples of its PRBs, PRBs missing, failed reads. -/
def State.groupSamples (s : State) (r : Fin 4) (cell na n : Nat) (bs : List Nat) : State × List (List (List Byte)) × Nat × Bool :=
  bs.foldl (fun (a : State × List (List (List Byte)) × Nat × Bool) b =>
    let (t, d, k, f) := a.1.antAll r cell na n b
    (t, a.2.1 ++ [d], a.2.2.1 + k, a.2.2.2 || f)) (s, [], 0, false)

/-- PRBs of group g. -/
def groupPrbs (start nprb group g : Nat) : List Nat :=
  (List.range (min group (nprb - g * group))).map fun i => start + g * group + i

/-- A free value between −1 and 1. -/
def freePart (n : Nat) : Rat := ((n % 2 ^ 33 : Nat) : Rat) / ((2 ^ 32 : Nat) : Rat) - 1

/-- LS estimates of a port and antenna over the SRS REs of group g (R203): y x* / |x|². With a reference value of 0 the estimate is not
stated. -/
def srsLs (f : Srs) (c : Cell) (free : Nat → Nat) (g : Nat) (ys : List (List (List Byte))) (ref : List Byte) (row a : Nat) : List Cx :=
  let nsc := 12 * f.nprb / f.ktc
  (List.range nsc).filterMap fun i =>
    let k := f.comb + f.ktc * i
    if k / 12 / f.group = g then
      let x := Cx.ofInts (iqAt ref (row * nsc + i)) 0
      some (if x.norm2 = 0 then ⟨freePart (free (2 * (row * nsc + i))), freePart (free (2 * (row * nsc + i) + 1))⟩
        else (Cx.ofInts (iqAt ((ys.getD (k / 12 % f.group) []).getD a []) (k % 12)) c.inExp).div x)
    else none

/-- H of a port and antenna after a group's estimate: the mean, averaged with the record where its history is used (R203). -/
def srsValue (f : Srs) (c : Cell) (hist : Bool) (old : List Byte) (new : Cx) (row a : Nat) : Cx :=
  if hist then
    let h := Cx.ofInts (iqAt (old.drop 64) (row * c.a + a)) (sext 8 (eFld old 0 1))
    h.add ((new.sub h).scale (pow2 (-(f.b26 : Int))))
  else new

/-- A group of the record: HEXP at 0, NOISE at 4, H at 64 (R204), from the samples, the reference values and the old record. -/
def srsGroup (f : Srs) (c : Cell) (hist : Bool) (g : Nat) (ys : List (List (List Byte))) (ref old : List Byte) : List (Nat × List Byte) :=
  let free (i : Nat) : Nat := Config.numeric 3 [f.nrow, f.ktc, f.comb, f.group, f.b26, c.a, c.inExp, g] (ys.flatten.flatten ++ ref) i
  let pairs := (List.range f.nrow).flatMap fun row => (List.range c.a).map fun a => (row, a)
  let ls := pairs.map fun p => srsLs f c free g ys ref p.1 p.2
  let noise := ratMean (ls.flatMap fun l => l.map fun z => (z.sub (Cx.mean l)).norm2)
  let h := (pairs.zip ls).map fun p => srsValue f c hist old (Cx.mean p.2) p.1.1 p.1.2
  let e := someExp (partsOf h) (free 0)
  [ (0, [ofInt 8 e]), (4, noiseOf noise (free 1)), (64, iqOut h e) ]

/-- SRS_EST (R203, R204). -/
def State.srsEst (s : State) (r : Fin 4) (op : BfaOp) (stop : Option Nat) : OpOut :=
  let e := op.entry
  let cell := eFld e 5 1 % 16
  let c := s.cell r cell
  let f := srsOf e
  match firstBad (srsChecks r f c e) with
  | some d => paramOut s d
  | none =>
    let slot := opSlot op c (sext 8 (eFld e 17 1))
    let n := slot * c.nsym + f.sym
    let nsc := 12 * f.nprb / f.ktc
    let (j, ref) := ({ s := s } : Job).read (.bfa r) 5 f.seq (f.nrow * 4 * nsc)
    if j.live then
      let (s1, hd) := j.s.wRead r f.line 1
      let h := recHdr (hd.getD (List.replicate 64 0))
      let (hist, wr, count, flags) := srsHistory h f c slot
      let stride := 1 + ceilDiv (f.nrow * c.a) 16
      let ng := groupsDone stop (ceilDiv f.nprb f.group)
      let q := (List.range ng).foldl (fun (a : State × Tally) g =>
        let line := f.line + 1 + g * stride
        let (t, ys, miss, fail) := a.1.groupSamples r cell c.a n (groupPrbs f.start f.nprb f.group g)
        let (t, old) := if hist then t.wRead r line stride else (t, some [])
        let bad := fail || old.isNone
        let body : List (Nat × List Byte) :=
          if bad then [(0, List.replicate (64 * stride) 0)] else srsGroup f c hist g ys ref (old.getD [])
        let (t, m) := if wr then t.wWrites r (body.map fun p => (line, p.1, p.2)) else (t, false)
        (t, { a.2 with missing := a.2.missing + miss, bad := if bad then a.2.bad ++ [g] else a.2.bad, mem := a.2.mem || m })) (s1, {})
      let hb : RecHdr := ⟨0x42460001, slot, count, f.nrow, c.a, f.start, f.nprb, f.group⟩
      let (s2, m) := if wr && stop.isNone then q.1.wWrite r f.line 0 hb.bytes else (q.1, false)
      let st := tallyStatus { q.2 with mem := q.2.mem || m || hd.isNone } false
      { s := s2, status := st.1, detail := st.2, flags := flags, groups := ng, pages := s.opPages r cell c.a n
        cycles := ceilDiv (c.a * f.nrow * 12 * f.nprb / f.ktc) 1024 + 64 }
    else { s := j.s, waits := j.waits, status := 1, detail := 5 }

/-- Checks of a COV_ACC entry (R205). -/
def covChecks (f : Srs) (c : Cell) (e : List Byte) : List (Nat × Bool) :=
  headerChecks e ++
  [ (16, decide (f.sym < c.nsym)), (17, slotOfsOk e), (21, groupOk f.group), (22, decide (f.start < c.nprb)),
    (24, decide (0 < f.nprb ∧ f.nprb % 4 = 0 ∧ f.start + f.nprb ≤ c.nprb)), (26, decide (f.b26 ≤ 1)),
    (28, decide (f.line < 2 ^ 18)), (0xFFFF, cellOk c false false) ]

/-- Pairs (i, k) of the upper triangle, row by row. -/
def upperPairs (n : Nat) : List (Nat × Nat) :=
  (List.range n).flatMap fun i => (List.range (n - i)).map fun k => (i, i + k)

/-- One entry of a covariance group: the sum of y_i y_k* over the samples (R205). -/
def covEntry (ys : List (List (List Byte))) (i k : Nat) : Cplx :=
  csum (ys.flatMap fun prb => (List.range 12).map fun q =>
    let a := iqAt (prb.getD i []) q
    let b := iqAt (prb.getD k []) q
    (a.1 * b.1 + a.2 * b.2, a.2 * b.1 - a.1 * b.2))

/-- A 48-bit entry as 12 bytes. -/
def covBytes (z : Cplx) : List Byte := toBytes 6 (ofInt 48 z.1).toNat ++ toBytes 6 (ofInt 48 z.2).toNat

/-- COV_ACC (R205). -/
def State.covAcc (s : State) (r : Fin 4) (op : BfaOp) (stop : Option Nat) : OpOut :=
  let e := op.entry
  let cell := eFld e 5 1 % 16
  let c := s.cell r cell
  let f := srsOf e
  match firstBad (covChecks f c e) with
  | some d => paramOut s d
  | none =>
    let slot := opSlot op c (sext 8 (eFld e 17 1))
    let n := slot * c.nsym + f.sym
    let stride := 1 + ceilDiv (c.a * (c.a + 1) * 12 / 2) 64
    let ng := groupsDone stop (ceilDiv f.nprb f.group)
    let (s1, hd) := s.wRead r f.line 1
    let h := recHdr (hd.getD (List.replicate 64 0))
    let q := (List.range ng).foldl (fun (a : State × Tally) g =>
      let line := f.line + 1 + g * stride
      let (t, ys, miss, fail) := a.1.groupSamples r cell c.a n (groupPrbs f.start f.nprb f.group g)
      let (t, old) := if f.b26 = 1 then (t, some []) else t.wRead r line stride
      let bad := fail || old.isNone
      let o := (old.getD []).drop 64
      let z := (upperPairs c.a).zipIdx.map fun p =>
        let x := covEntry ys p.1.1 p.1.2
        let y : Cplx := if f.b26 = 1 then (0, 0) else (sext 48 (eFld o (12 * p.2) 6), sext 48 (eFld o (12 * p.2 + 6) 6))
        (narrowN 48 (x.1 + y.1), narrowN 48 (x.2 + y.2))
      let sat := if bad then 0 else (z.map fun p => p.1.2 + p.2.2).foldl (· + ·) 0
      let d := if bad then List.replicate (64 * (stride - 1)) 0 else z.flatMap fun p => covBytes (p.1.1, p.2.1)
      let (t, m) := t.wWrite r line 64 d
      (t, { a.2 with missing := a.2.missing + miss, sat := a.2.sat + sat, bad := if bad then a.2.bad ++ [g] else a.2.bad
                     mem := a.2.mem || m })) (s1.draw, {})
    let count := if f.b26 = 1 then 1 else min 65535 (h.count + 1)
    let hb : RecHdr := ⟨0x42430001, slot, count, s.draw.free 0 % 256, c.a, f.start, f.nprb, f.group⟩
    let (s2, m) := if stop.isNone then q.1.wWrite r f.line 0 hb.bytes else (q.1, false)
    let st := tallyStatus { q.2 with mem := q.2.mem || m || hd.isNone } false
    { s := s2, status := st.1, detail := st.2, groups := ng
      pages := s.opPages r cell c.a n, cycles := ceilDiv (c.a * (c.a + 1) / 2 * 12 * f.nprb) 1024 + 64 }

/-! Weight solving and copying (R206, R207) -/

/-- Checks of a WEIGHT_SOLVE entry (R206). -/
def solveChecks (r : Fin 4) (w : WSet) (e : List Byte) : List (Nat × Bool) :=
  let l := eFld e 16 1
  headerChecks e ++
  [ (16, decide (1 ≤ l ∧ l ≤ 32 ∧ l ≤ w.l)), (17, decide (eFld e 17 1 ≤ 1)), (18, decide (eFld e 18 1 ≤ 1)),
    (19, decide (eFld e 19 1 ≤ eFld e 17 1)), (20, decide (eFld e 20 2 < 64)),
    (22, decide (-8 ≤ sext 8 (eFld e 22 1) ∧ sext 8 (eFld e 22 1) ≤ 8)), (23, decide (eFld e 23 1 ≤ 31)),
    (24, decide (eFld e 24 1 ≤ 1)), (25, zeroBytes e 25 7), (32, ptrOk r (eFld e 32 8) 0 (4 * l) 4), (40, zeroBytes e 40 24) ]

/-- The record of a layer's row fits the target set (R206). -/
def rowFits (w : WSet) (m : Nat) (h : RecHdr) : Bool :=
  decide (m / 2 ^ 18 % 64 = 0 ∧ h.magic = 0x42460001 ∧ m / 2 ^ 24 < h.nrow ∧ h.a = w.a ∧ h.start = w.start ∧ h.nprb = w.nprb ∧
    h.group = w.group)

/-- Bytes of a layer's row in group g of its record: HEXP, NOISE, H (R204). -/
def State.rowBytes (s : State) (r : Fin 4) (w : WSet) (m : Nat) (h : RecHdr) (g : Nat) : State × Option (List Byte) :=
  let stride := 1 + ceilDiv (h.nrow * h.a) 16
  match s.wRead r (m % 2 ^ 18 + 1 + g * stride) stride with
  | (t, none) => (t, none)
  | (t, some d) => (t, some (d.take 8 ++ (d.drop (64 + 4 * (m / 2 ^ 24 * h.a))).take (4 * w.a)))

/-- One row operation step of an elimination: row i divided by its pivot and taken from every other row. -/
def elimStep (m : Array (Array Cx)) (i : Nat) : Array (Array Cx) :=
  let cell (r c : Nat) : Cx := (((m[r]?).getD #[])[c]?).getD Cx.zero
  let p := cell i i
  (m.zipIdx).map fun q =>
    (q.1.zipIdx).map fun x =>
      let y := (cell i x.2).div p
      if q.2 = i then y else x.1.sub (y.mul (cell q.2 i))

/-- G X = B solved by elimination without exchange of rows: X, and the pivots in order, which are those of the Cholesky factorisation
(R206). -/
def solveHermitian (g b : List (List Cx)) : List (List Cx) × List Rat :=
  let n := g.length
  let m := ((g.zip b).map fun p => (p.1 ++ p.2).toArray).toArray
  let r := (List.range n).foldl (fun (st : Array (Array Cx) × List Rat) i =>
    (elimStep st.1 i, st.2 ++ [((((st.1[i]?).getD #[])[i]?).getD Cx.zero).re])) (m, [])
  (r.1.toList.map fun row => row.toList.drop n, r.2)

/-- 1 / √x to 64 binary places or more. -/
def invRoot (x : Rat) : Rat :=
  let m := 64 + Nat.log2 (x.num.toNat + 1)
  (Nat.sqrt ((1 / x) * ((2 ^ (2 * m) : Nat) : Rat)).floor.toNat : Rat) / ((2 ^ m : Nat) : Rat)

/-- What one group of a WEIGHT_SOLVE has read of a layer's row: exponent, noise, H by antenna. -/
structure LayerRow where
  exp : Int
  noise : Rat
  h : List Cx

/-- The row from its bytes. -/
def layerRow (d : List Byte) (n : Nat) : LayerRow :=
  let e := sext 8 (eFld d 0 1)
  ⟨e, noiseVal d 4, (List.range n).map fun a => Cx.ofInts (iqAt (d.drop 8) a) e⟩

/-- λ: 0, or the mean of the rows' NOISE × 2^REG_SH (R206). -/
def solveLambda (e : List Byte) (rows : List LayerRow) : Rat :=
  if eFld e 18 1 = 0 then 0 else ratMean (rows.map (·.noise)) * pow2 (sext 8 (eFld e 22 1))

/-- W[l][a] of a group, or none where a pivot falls below 2^FLOOR_SH LSB of the Gram scale (R206). Uplink W = (H^H H + λI)^−1 H^H; the
downlink's W[l][a] = P[a][l] of P = H* (H^T H* + λI)^−1 is the same matrix, scaled by layer with NORM. -/
def solveWeights (e : List Byte) (rows : List LayerRow) : Option (List (List Cx)) :=
  let lam := solveLambda e rows
  let gram := rows.zipIdx.map fun x => rows.zipIdx.map fun y =>
    let z := Cx.sum (x.1.h.zipWith (fun a b => a.conj.mul b) y.1.h)
    if x.2 = y.2 then z.add ⟨lam, 0⟩ else z
  let q := solveHermitian gram (rows.map fun x => x.h.map Cx.conj)
  let scale := (rows.map (·.exp)).foldl max ((rows.map (·.exp)).headD 0)
  if q.2.all fun p => decide (pow2 (2 * scale + eFld e 23 1) ≤ p) then
    some (if eFld e 17 1 = 1 ∧ eFld e 19 1 = 1 then q.1.map fun l => l.map fun z => z.scale (invRoot (ratSum (l.map Cx.norm2))) else q.1)
  else none

/-- One group of a WEIGHT_SOLVE: the rows are read, and the weights written or the group kept (R206). `lost`: a row's header fails, and
the group is output as zero (R215). -/
def State.solveGroup (s : State) (r : Fin 4) (w : WSet) (e : List Byte) (maps : List (Nat × RecHdr)) (lost : Bool) (acc : Tally) (g : Nat) :
    State × Tally :=
  let q := if lost then (s, [], true) else maps.foldl (fun (a : State × List (List Byte) × Bool) m =>
    match a.1.rowBytes r w m.1 m.2 g with
    | (t, some d) => (t, a.2.1 ++ [d], a.2.2)
    | (t, none) => (t, a.2.1, true)) (s, [], false)
  let line := w.groupLine g
  let zero (t : State) : State × Tally := ((t.wWrite r line 0 (List.replicate (64 * w.stride) 0)).1, { acc with bad := acc.bad ++ [g] })
  if q.2.2 then zero q.1
  else
    let free (i : Nat) : Nat := Config.numeric 5 (e.map fun x => (x.toNat : Int)) q.2.1.flatten i
    match solveWeights e (q.2.1.map fun d => layerRow d w.a) with
    | none =>
      match q.1.wRead r line 1 with
      | (t, none) => zero t
      | (t, some old) => ((t.wWrite r line 1 [BitVec.ofNat 8 (eFld old 1 1 ||| 1)]).1, { acc with kept := acc.kept + 1 })
    | some m =>
      let x := someExp (partsOf m.flatten) (free g)
      let (t, bad) := q.1.wWrites r [(line, 0, [ofInt 8 x, 0]), (line, 64, iqOut m.flatten x)]
      (t, { acc with mem := acc.mem || bad })

/-- The largest WEXP of a set's groups (R197). -/
def State.maxWexp (s : State) (r : Fin 4) (w : WSet) : Int :=
  let xs := (List.range w.groups).map fun g => match (s.wRead r (w.groupLine g) 1).2 with
    | some d => sext 8 (eFld d 0 1)
    | none => -128
  xs.foldl max (xs.headD 0)

/-- WEIGHT_SOLVE (R206). -/
def State.weightSolve (s : State) (r : Fin 4) (op : BfaOp) (stop : Option Nat) : OpOut :=
  let e := op.entry
  let c := s.cell r (eFld e 5 1 % 16)
  let w := s.wset r (eFld e 20 2 % 64)
  let l := eFld e 16 1
  match firstBad (solveChecks r w e) with
  | some d => paramOut s d
  | none =>
    let (j, lm) := ({ s := s } : Job).read (.bfa r) 5 (eFld e 32 8) (4 * l)
    if j.live then
      let q := (List.range l).foldl (fun (a : State × List (Nat × RecHdr) × Bool) i =>
        let m := eFld lm (4 * i) 4
        match a.1.wRead r (m % 2 ^ 18) 1 with
        | (t, some d) => (t, a.2.1 ++ [(m, recHdr d)], a.2.2)
        | (t, none) => (t, a.2.1, true)) (j.s, [], false)
      let reserved := (List.range l).any fun i => decide (eFld lm (4 * i) 4 / 2 ^ 18 % 64 ≠ 0)
      if !reserved && q.2.1.all (fun m => rowFits w m.1 m.2) then
        let ng := groupsDone stop w.groups
        let p := (List.range ng).foldl (fun (a : State × Tally) g => a.1.solveGroup r w e q.2.1 q.2.2 a.2 g) (q.1, {})
        let slot := opSlot op c 0
        let (s2, m) := if stop.isSome then (p.1, false)
          else p.1.wWrites r [(w.line, 0, [BitVec.ofInt 8 (p.1.maxWexp r w), 1]), (w.line, 4, toBytes 4 slot)]
        let st := tallyStatus { p.2 with mem := p.2.mem || m || q.2.2 } false
        { s := s2, status := st.1, detail := st.2, groups := ng
          cycles := 64 + w.groups * (ceilDiv (l * (l + 1) * w.a) 2048 + 4 * l + ceilDiv (l * l * w.a) 1024 + 32) }
      else paramOut q.1 32
    else { s := j.s, waits := j.waits, status := 1, detail := 5 }

/-- Checks of a WCOPY entry (R201, R207). -/
def wcopyChecks (r : Fin 4) (e : List Byte) : List (Nat × Bool) :=
  let n := eFld e 24 4
  headerChecks e ++
  [ (16, decide (eFld e 16 1 ≤ 1)), (20, decide (eFld e 20 4 < 2 ^ 18)),
    (24, decide (n % 64 = 0 ∧ n ≤ 2 ^ 24 ∧ 64 * eFld e 20 4 + n ≤ 2 ^ 24)), (32, ptrOk r (eFld e 32 8) 0 n 64) ]

/-- WCOPY (R207). -/
def State.wcopy (s : State) (r : Fin 4) (op : BfaOp) (_ : Option Nat) : OpOut :=
  let e := op.entry
  match firstBad (wcopyChecks r e) with
  | some d => paramOut s d
  | none =>
    let n := eFld e 24 4
    let line := eFld e 20 4
    let a := eFld e 32 8
    let cyc := ceilDiv n 128 + 32
    if eFld e 16 1 = 0 then
      let (j, d) := ({ s := s } : Job).read (.bfa r) 1 a n
      if j.live then { s := (j.s.wWrite r line 0 d).1, cycles := cyc }
      else { s := j.s, waits := j.waits, status := 1, detail := 1 }
    else
      let q := (List.range (n / 64)).foldl (fun (k : State × List Byte × Nat) i =>
        match k.1.wRead r (line + i) 1 with
        | (t, some d) => (t, k.2.1 ++ d, k.2.2)
        | (t, none) => (t, k.2.1 ++ List.replicate 64 0, k.2.2 + 1)) (s, [], 0)
      let j := ({ s := q.1 } : Job).write (.bfa r) 1 a (wholeBytes q.2.1)
      { s := j.s, waits := j.waits
        status := if j.bus.isSome then 1 else if q.2.2 = 0 then 0 else 0x44
        detail := if j.bus.isSome then 1 else min 65535 q.2.2, cycles := cyc }

/-- POST and NOP have a header alone (R199, R207). -/
def State.headerOnly (s : State) (op : BfaOp) (_ : Option Nat) : OpOut :=
  match firstBad (headerChecks op.entry) with
  | some d => paramOut s d
  | none => { s := s }

/-! Commands -/

/-- The operation at the head of the queue, where the array is free and its OP is k (R211). -/
def State.bfaHead (s : State) (r : Fin 4) (k : Nat) : Option BfaOp :=
  if s.bfaReady r.val ∧ s.voted (56 + r.val) 6 = false ∧ s.bfas[r].run = none then
    match s.bfas[r].queue with
    | op :: _ => if eOp op.entry = k then some op else none
    | [] => none
  else none

/-- The array takes the operation at the head of the queue and does its work (R200, R211), or, where EN is being cleared, as many PRB
groups of it as are finished (R216). -/
def State.bfaWork (s : State) (r : Fin 4) (op : BfaOp) (stop : Option Nat) (f : State → BfaOp → Option Nat → OpOut) : State :=
  let o := f s op stop
  let cut := stop.isSome && decide (o.status ≠ 1 ∧ o.status ≠ 2)
  match o.waits with
  | some (a, n) => match s.gate (.bfa r) a n with
    | some q => q.1
    | none => s
  | none => o.s.modBfa r fun b => { b with
      queue := b.queue.drop 1
      busy := b.busy + o.cycles
      run := some { op := op, status := if cut then 3 else o.status, detail := if cut then o.groups else o.detail, flags := o.flags
                    start := (s.replica (.bfa r)).setWidth 32, groups := o.groups, pages := o.pages, set := o.set } }

/-- What an operation of a number does. -/
def bfaFn (k : Nat) : State → Fin 4 → BfaOp → Option Nat → OpOut :=
  match k with
  | 1 => State.ulCombine
  | 2 => State.dlPrecode
  | 3 => State.srsEst
  | 4 => State.covAcc
  | 5 => State.weightSolve
  | 6 => State.wcopy
  | _ => fun s _ op stop => s.headerOnly op stop

/-- A row of the array's operations. -/
def State.bfaRow (s : State) (r : Fin 4) (k : Nat) (f : State → Fin 4 → BfaOp → Option Nat → OpOut) : Out :=
  run s fun s => match s.bfaHead r k with
    | some op => s.bfaWork r op none fun s op stop => f s r op stop
    | none => s

/-- UL_COMBINE by BFA r (R202). -/
def execUlCombine (r : Fin 4) (s : State) : Out := s.bfaRow r 1 State.ulCombine

/-- DL_PRECODE by BFA r (R202). -/
def execDlPrecode (r : Fin 4) (s : State) : Out := s.bfaRow r 2 State.dlPrecode

/-- SRS_EST by BFA r (R203). -/
def execSrsEst (r : Fin 4) (s : State) : Out := s.bfaRow r 3 State.srsEst

/-- COV_ACC by BFA r (R205). -/
def execCovAcc (r : Fin 4) (s : State) : Out := s.bfaRow r 4 State.covAcc

/-- WEIGHT_SOLVE by BFA r (R206). -/
def execWeightSolve (r : Fin 4) (s : State) : Out := s.bfaRow r 5 State.weightSolve

/-- WCOPY by BFA r (R207). -/
def execWcopy (r : Fin 4) (s : State) : Out := s.bfaRow r 6 State.wcopy

/-- POST by BFA r: only the completion actions (R207). -/
def execBfaPost (r : Fin 4) (s : State) : Out := s.bfaRow r 7 fun s _ op stop => s.headerOnly op stop

/-- NOP by BFA r (R199). -/
def execBfaNop (r : Fin 4) (s : State) : Out := s.bfaRow r 0 fun s _ op stop => s.headerOnly op stop

/-- The set of a WEIGHT_SOLVE with COMMIT becomes the active set (R206, R208). -/
def State.commitSet (s : State) (r : Fin 4) (k : BfaRun) : State :=
  let e := k.op.entry
  let c := eFld e 5 1 % 16
  if eOp e = 5 ∧ eFld e 24 1 = 1 ∧ (k.status = 0 ∨ k.status = 0x42) then
    let dl := eFld e 17 1 = 1
    let a := cellA r c 12
    let cold := s.regBit a (if dl then 1 else 0)
    let s := s.setRegBit a (if dl then 1 else 0) false
    let s := if dl then s.setRegFld a 13 8 (eFld e 20 2) else s.setRegFld a 7 2 (eFld e 20 2)
    s.raiseIf cold (bfaEvent r 4)
  else s

/-- A WEIGHT_SOLVE next in the queue whose target the operation that completes has resolved has waited for it (R209). -/
def waitedFor (k : BfaRun) (q : List BfaOp) : List BfaOp :=
  match q with
  | op :: l => if eOp op.entry = 5 ∧ k.set = some (eFld op.entry 20 2) then { op with waited := true } :: l else q
  | [] => []

/-- The array is free again; the operation completes (R200). -/
def State.bfaComplete (s : State) (r : Fin 4) (k : BfaRun) : State :=
  let s := s.modBfa r fun b => { b with run := none, queue := waitedFor k b.queue }
  ((s.commitSet r k).bfaEnd r k.op k.status k.detail k.flags k.start).bfaDrain r

end Sys2Proof.Machine
end

