-- ==== Sys2Proof/Machine/Flags.lean ====
section
/-! DEFINITION. Results with the sticky flags of tc.status that they set: SAT, ACC_OVF and CIRC_OUT (03_tarn_scalar.md R53, R73, R75
to R78; 04_tarn_vector.md R108, R110, R112). -/

namespace Sys2Proof.Machine

/-- The sticky flags an instruction sets. -/
structure Sticky where
  circ : Bool := false
  sat : Bool := false
  ovf : Bool := false
  deriving DecidableEq, Repr

/-- Flags of several instructions. -/
def Sticky.join (a b : Sticky) : Sticky := ⟨a.circ || b.circ, a.sat || b.sat, a.ovf || b.ovf⟩

/-- tc.status with the flags set: bits 8, 9, 10. -/
def Sticky.on (f : Sticky) (st : Word) : Word :=
  st ||| BitVec.ofNat 32 (256 * f.circ.toNat + 512 * f.sat.toNat + 1024 * f.ovf.toNat)

/-- A value clamped to n bits, and whether it was (R76, R110). -/
def clamp (n : Nat) (v : Int) : Int × Bool := (satS n v, decide (satS n v ≠ v))

/-- Values clamped to n bits, and whether any was. -/
def clampAll (n : Nat) (l : List Int) : List Int × Bool := (l.map (satS n), l.any fun v => (clamp n v).2)

/-- A value modulo 2^n, signed, and whether it lay outside (R77, R108). -/
def wrap (n : Nat) (v : Int) : Int × Bool :=
  let w := sext n (BitVec.ofInt n v).toNat
  (w, decide (w ≠ v))

/-- Values modulo 2^n, and whether any lay outside. -/
def wrapAll (n : Nat) (l : List Int) : List Int × Bool := (l.map fun v => (wrap n v).1, l.any fun v => (wrap n v).2)

/-- (a × b) >> 15 of two 16-bit values; −1 × −1 gives 0x7FFF (R60, R106). -/
def mulHigh (a b : Int) : Int × Bool := if a = -32768 ∧ b = -32768 then (32767, true) else (a * b / 32768, false)

/-- Arithmetic right shift: the floor (R76). -/
def asr (v : Int) (s : Nat) : Int := v / (2 ^ s : Nat)

/-- Redundant sign bits of an n-bit value (R78, R112). -/
def signBits (n : Nat) (v : Int) : Nat :=
  let m := (BitVec.ofInt n v).toNat
  let top := m.testBit (n - 1)
  ((List.range (n - 1)).find? fun i => m.testBit (n - 2 - i) != top).getD (n - 1)

/-! Circular addressing (R73, R75) -/

/-- An update of an address register under the circular rule: the new value, and whether the pointer was out of range. -/
def circular (compat : Bool) (ptr base : BitVec 40) (len : BitVec 24) (inc : Int) : BitVec 40 × Bool :=
  let lim : BitVec 40 := base + len.setWidth 40
  let linear : BitVec 40 := ptr + BitVec.ofInt 40 inc
  let below := decide (ptr.toNat < base.toNat)
  let above := decide (lim.toNat ≤ ptr.toNat)
  if above || (below && !compat) then (linear, true)
  else if below then (linear, false)
  else
    let off : Int := (ptr.toNat : Int) - base.toNat + inc
    let off : Int := if (len.toNat : Int) ≤ off then off - len.toNat else off
    let off : Int := if off < 0 ∧ compat = false then off + len.toNat else off
    (base + BitVec.ofInt 40 off, false)

end Sys2Proof.Machine
end

