-- ==== Sys2Proof/Machine/TarnDecode.lean ====
section
/-! DEFINITION. The words of a bundle's slots decoded, the registers an instruction writes, and the legality of a slot alone
(03_tarn_scalar.md R56 to R61; 04_tarn_vector.md R96, R105, R106). A field that an instruction does not use and that no rule calls
reserved is ignored (log entry 21). -/

namespace Sys2Proof.Machine

/-! S slots -/

/-- Formats of R59; `n` has no fields. -/
inductive SFmt | n | t | i | b | j | l | p | c | x
  deriving DecidableEq, Repr

/-- Mnemonic and format of an S-slot opcode (R60). -/
def sOpcode (op : Nat) : SMn × SFmt :=
  match op with
  | 0x00 => (.nop, .n) | 0x01 => (.add, .t) | 0x02 => (.sub, .t) | 0x03 => (.and, .t) | 0x04 => (.or, .t) | 0x05 => (.xor, .t)
  | 0x06 => (.shl, .t) | 0x07 => (.shr, .t) | 0x08 => (.sra, .t) | 0x09 => (.cmpeq, .t) | 0x0A => (.cmplt, .t) | 0x0B => (.cmpltu, .t)
  | 0x0C => (.min, .t) | 0x0D => (.max, .t) | 0x0E => (.adds, .t) | 0x0F => (.subs, .t) | 0x10 => (.abs, .t)
  | 0x11 => (.mul, .t) | 0x12 => (.mulh, .t) | 0x13 => (.mac, .t) | 0x14 => (.msu, .t) | 0x15 => (.ext, .t) | 0x16 => (.exts, .t)
  | 0x17 => (.exp, .t) | 0x18 => (.expa, .t) | 0x19 => (.norm, .t) | 0x1A => (.lda, .t) | 0x1B => (.movda, .t)
  | 0x1C => (.setcb, .t) | 0x1D => (.setcl, .t) | 0x1E => (.rdcb, .t) | 0x1F => (.rdcl, .t)
  | 0x20 => (.addi, .i) | 0x21 => (.andi, .i) | 0x22 => (.ori, .i) | 0x23 => (.xori, .i) | 0x24 => (.shli, .i) | 0x25 => (.shri, .i)
  | 0x26 => (.srai, .i) | 0x27 => (.cmpeqi, .i) | 0x28 => (.cmplti, .i) | 0x29 => (.movi, .i) | 0x2A => (.movhi, .i)
  | 0x2B => (.adda, .i) | 0x2C => (.addc, .i) | 0x2D => (.addar, .t) | 0x2E => (.movia, .i) | 0x2F => (.movad, .t)
  | 0x30 => (.bcc, .b) | 0x31 => (.call, .j) | 0x32 => (.jr, .t) | 0x33 => (.callr, .t) | 0x34 => (.rfe, .n) | 0x35 => (.loop, .l)
  | 0x36 => (.rep, .p) | 0x37 => (.trap, .i) | 0x38 => (.brk, .n) | 0x39 => (.csrr, .c) | 0x3A => (.csrw, .c) | 0x3B => (.csrra, .c)
  | 0x3C => (.csrwa, .c) | 0x3F => (.lit, .x)
  | _ => (.illegal, .n)

/-- A field of a word as a bit vector. -/
def wfld (w : Word) (hi lo n : Nat) : BitVec n := BitVec.ofNat n (fld w hi lo)

/-- An S-slot word decoded (R59): a reserved field that is not 0 makes it illegal. -/
def decodeS (w : Word) : SIns :=
  let q := sOpcode (fld w 31 26)
  let rd : BitVec 5 := wfld w 25 21 5
  let rs1 : BitVec 5 := wfld w 20 16 5
  match q.2 with
  | .n => { mn := q.1 }
  | .t =>
    if fld w 10 5 ≠ 0 then { mn := .illegal }
    else { mn := q.1, rd := rd, rs1 := rs1, rs2 := wfld w 15 11 5, sh := wfld w 4 0 5 }
  | .i => { mn := q.1, rd := rd, rs1 := rs1, imm := wfld w 15 0 26 }
  | .b => { mn := q.1, cond := wfld w 25 22 4, rs1 := wfld w 21 17 5, flag := bit w 16, imm := wfld w 15 0 26 }
  | .j => { mn := q.1, imm := wfld w 25 0 26 }
  | .l => { mn := q.1, cond := wfld w 25 24 4, flag := bit w 23, imm := wfld w 22 13 26, fin := wfld w 12 0 13 }
  | .p => if fld w 24 16 ≠ 0 then { mn := .illegal } else { mn := q.1, flag := bit w 25, imm := wfld w 15 0 26 }
  | .c => if fld w 20 12 ≠ 0 then { mn := .illegal } else { mn := q.1, rd := rd, imm := wfld w 11 0 26 }
  | .x => { mn := q.1, imm := wfld w 25 0 26 }

/-- The instruction is in format I (R58). -/
def SMn.formatI : SMn → Bool
  | .addi | .andi | .ori | .xori | .shli | .shri | .srai | .cmpeqi | .cmplti | .movi | .movhi | .adda | .addc | .movia | .trap => true
  | _ => false

/-- The control instructions of R57. -/
def SMn.control : SMn → Bool
  | .bcc | .call | .jr | .callr | .rfe | .loop | .rep | .trap | .brk => true
  | _ => false

/-- The control transfers of R66. -/
def SMn.transfer : SMn → Bool
  | .bcc | .call | .jr | .callr | .rfe => true
  | _ => false

/-- CSR numbers of 40 bits (R53). -/
def csrWide (n : Nat) : Bool :=
  decide (5 ≤ n ∧ n ≤ 8 ∨ 0x10 ≤ n ∧ n ≤ 0x12 ∨ 0x14 ≤ n ∧ n ≤ 0x16 ∨ 0x100 ≤ n ∧ n ≤ 0x11F)

/-- CSR numbers that R53 lists. -/
def csrListed (n : Nat) : Bool :=
  decide (n ≤ 9 ∨ 0x10 ≤ n ∧ n ≤ 0x12 ∨ 0x14 ≤ n ∧ n ≤ 0x16 ∨ 0x18 ≤ n ∧ n ≤ 0x1A ∨ n = 0x1C ∨ 0x20 ≤ n ∧ n ≤ 0x23 ∨ n = 0x30 ∨
    0x100 ≤ n ∧ n ≤ 0x12F)

/-- Register fields name registers that exist, and the other conditions of R59, R60 and R69 hold. -/
def SIns.legal (i : SIns) : Bool :=
  let a (r : BitVec 5) : Bool := decide (r.toNat < 16)
  let acc (r : BitVec 5) : Bool := decide (r.toNat < 4)
  let c8 (r : BitVec 5) : Bool := decide (r.toNat < 8)
  let csr := i.imm.toNat
  match i.mn with
  | .mac | .msu | .lda => acc i.rd
  | .ext | .exts | .expa => acc i.rs1
  | .norm => decide (i.rd.toNat % 2 = 0)
  | .movda => a i.rs1
  | .setcb => c8 i.rd && a i.rs1
  | .setcl => c8 i.rd
  | .rdcb => a i.rd && c8 i.rs1
  | .rdcl => c8 i.rs1
  | .adda | .addar => a i.rd && a i.rs1
  | .addc => a i.rd && decide (i.rd = i.rs1)
  | .movia | .movad => a i.rd
  | .jr | .callr => a i.rs1
  | .bcc => decide (i.cond.toNat ≤ 6)
  | .loop => decide (i.cond.toNat ≤ 2 ∧ 2 ≤ i.fin.toNat ∧ (i.flag = true → i.imm.toNat < 32))
  | .rep => decide (i.flag = true → i.imm.toNat < 32)
  | .csrr | .csrw => !(csrListed csr && csrWide csr)
  | .csrra | .csrwa => a i.rd && !(csrListed csr && !csrWide csr)
  | .illegal => false
  | _ => true

/-- Number of a register among all that a slot can write (R57). -/
def keyD (r : BitVec 5) : Nat := r.toNat
def keyAcc (r : BitVec 5) : Nat := 32 + r.toNat
def keyA (r : Nat) : Nat := 64 + r
def keyCb (r : BitVec 5) : Nat := 96 + r.toNat
def keyCl (r : BitVec 5) : Nat := 128 + r.toNat
def keySv (r : BitVec 5) : Nat := 160 + r.toNat
def keyLv (r : BitVec 5) : Nat := 192 + r.toNat
def keyVacc (r : BitVec 5) : Nat := 224 + r.toNat
def keyCsr (n : Nat) : Nat := 0x1000 + n

/-- Registers an S-slot instruction writes. -/
def SIns.writes (i : SIns) : List Nat :=
  match i.mn with
  | .mac | .msu | .lda => [keyAcc i.rd]
  | .norm => [keyD i.rd, keyD i.rd + 1]
  | .setcb => [keyCb i.rd]
  | .setcl => [keyCl i.rd]
  | .rdcb | .adda | .addc | .addar | .movia | .movad | .csrra => [keyA i.rd.toNat]
  | .call | .callr => [keyA 15]
  | .csrw | .csrwa => [keyCsr i.imm.toNat]
  | .loop => [keyCsr (0x10 + i.cond.toNat), keyCsr (0x14 + i.cond.toNat), keyCsr (0x18 + i.cond.toNat)]
  | .rep => [keyCsr 0x1C]
  | .nop | .bcc | .jr | .rfe | .trap | .brk | .lit | .illegal => []
  | _ => [keyD i.rd]

/-! M slot -/

/-- Mnemonic and element bytes of an M-slot opcode (R61, R96). -/
def mOpcode (op : Nat) : MMn × Nat :=
  match op with
  | 0x00 => (.nop, 1) | 0x01 => (.ldb, 1) | 0x02 => (.ldbu, 1) | 0x03 => (.ldh, 2) | 0x04 => (.ldhu, 2) | 0x05 => (.ldw, 4)
  | 0x06 => (.lda, 8) | 0x07 => (.ldd, 8) | 0x09 => (.stb, 1) | 0x0A => (.sth, 2) | 0x0B => (.stw, 4) | 0x0C => (.sta, 8)
  | 0x0D => (.std, 8) | 0x10 => (.cpx, 1) | 0x11 => (.fence, 1) | 0x20 => (.vlds, 16) | 0x21 => (.vsts, 16)
  | 0x24 => (.vldl, 1) | 0x25 => (.vldl, 2) | 0x26 => (.vldl, 4) | 0x28 => (.vldlh, 1) | 0x29 => (.vldlh, 2) | 0x2A => (.vldlh, 4)
  | 0x2C => (.vlduh, 1) | 0x2D => (.vlduh, 2) | 0x2E => (.vlduh, 4) | 0x30 => (.vstl, 1) | 0x31 => (.vstl, 2) | 0x32 => (.vstl, 4)
  | 0x34 => (.vstlh, 1) | 0x35 => (.vstlh, 2) | 0x36 => (.vstlh, 4) | 0x38 => (.vstuh, 1) | 0x39 => (.vstuh, 2) | 0x3A => (.vstuh, 4)
  | _ => (.illegal, 1)

/-- An M-slot word decoded. -/
def decodeM (w : Word) : MIns :=
  let q := mOpcode (fld w 31 26)
  match q.1 with
  | .nop => {}
  | .fence => { mn := .fence }
  | .illegal => { mn := .illegal }
  | .cpx =>
    if fld w 2 0 ≠ 0 then { mn := .illegal }
    else { mn := .cpx, tag := wfld w 25 20 6, an := wfld w 19 16 4, flag := wfld w 15 11 5, func := wfld w 10 3 8 }
  | m => { mn := m, ebytes := q.2, r := wfld w 25 21 5, an := wfld w 20 17 4, mode := wfld w 16 14 3, imm := wfld w 13 0 14 }

/-- The instruction makes a data access. -/
def MMn.access : MMn → Bool
  | .nop | .cpx | .fence | .illegal => false
  | _ => true

/-- It is a store. -/
def MMn.store : MMn → Bool
  | .stb | .sth | .stw | .sta | .std | .vsts | .vstl | .vstlh | .vstuh => true
  | _ => false

/-- It is a long-vector instruction (R94). -/
def MMn.long : MMn → Bool
  | .vldl | .vldlh | .vlduh | .vstl | .vstlh | .vstuh => true
  | _ => false

/-- It moves a vector register. -/
def MMn.vector : MMn → Bool
  | .vlds | .vsts => true
  | m => m.long

/-- Legality of an M-slot instruction alone (R61, R96). -/
def MIns.legal (i : MIns) : Bool :=
  let mode := decide (i.mode.toNat ≤ 3 ∧ (2 ≤ i.mode.toNat → i.imm.toNat < 32))
  match i.mn with
  | .nop | .fence | .cpx => true
  | .illegal => false
  | .lda | .sta | .vlds | .vsts => mode && decide (i.r.toNat < 16)
  | .ldd | .std => mode && decide (i.r.toNat % 2 = 0)
  | m => mode && (!m.long || decide (i.r.toNat < 8))

/-- Registers an M-slot instruction writes; a post-modified address register counts (R57). -/
def MIns.writes (i : MIns) : List Nat :=
  let post := if i.mn.access && decide (i.mode.toNat = 1 ∨ i.mode.toNat = 2) then [keyA i.an.toNat] else []
  (match i.mn with
    | .ldb | .ldbu | .ldh | .ldhu | .ldw => [keyD i.r]
    | .lda => [keyA i.r.toNat]
    | .ldd => [keyD i.r, keyD i.r + 1]
    | .vlds => [keySv i.r]
    | .vldl | .vldlh | .vlduh => [keyLv i.r]
    | _ => []) ++ post

/-! V slot -/

/-- Mnemonic of a V-slot opcode (R106). -/
def vOpcode (op : Nat) : VMn :=
  match op with
  | 0x00 => .nop | 0x01 => .vadds_ | 0x02 => .vsubs_ | 0x03 => .vaddss | 0x04 => .vsubss | 0x05 => .vmulhs | 0x06 => .vsras | 0x07 => .vshls
  | 0x08 => .vmovs | 0x09 => .vins | 0x0A => .vbcsts | 0x0B => .vbexps | 0x0C => .vgetc | 0x0D => .vputc | 0x10 => .vaddh | 0x11 => .vsubh
  | 0x12 => .vaddsh | 0x13 => .vsubsh | 0x14 => .vaddw | 0x15 => .vsubw | 0x16 => .vminh | 0x17 => .vmaxh | 0x18 => .vand | 0x19 => .vor
  | 0x1A => .vxor | 0x1B => .vsrah | 0x1C => .vsraw | 0x1D => .vshlh | 0x1E => .vshlw | 0x1F => .vmulhh | 0x20 => .vmulw | 0x21 => .vmac
  | 0x22 => .vmsu | 0x23 => .vcmac | 0x24 => .vcmsu | 0x25 => .vdot8 | 0x26 => .vclr | 0x27 => .vnarrowh | 0x28 => .vnarroww
  | 0x29 => .vpack | 0x2A => .vbexph | 0x2B => .vbexpw | 0x2C => .vbexpa | 0x2D => .vconj | 0x2E => .vswap | 0x2F => .vmov
  | 0x30 => .vbcsth | 0x31 => .vbcstw | 0x32 => .vaccrd | 0x33 => .vaccwr
  | _ => .illegal

/-- A V-slot word decoded (R105). -/
def decodeV (w : Word) : VIns :=
  if bit w 6 then { mn := .illegal }
  else
    { mn := vOpcode (fld w 31 26), vd := wfld w 25 21 5, va := wfld w 20 16 5, vb := wfld w 15 11 5, h := bit w 10, s := bit w 9, c := bit w 8
      r := bit w 7, imm6 := wfld w 5 0 6 }

/-- Register files of V-slot operands. -/
inductive VFile | none | d | s | l | acc
  deriving DecidableEq, Repr

/-- What the map says of an instruction (R106): files of vd, va and vb; fields H, S, C, R listed; greatest imm6. -/
structure VShape where
  vd : VFile
  va : VFile
  vb : VFile
  h : Bool := false
  s : Bool := false
  c : Bool := false
  r : Bool := false
  imm : Nat := 0

/-- The V-slot opcode map (R106). -/
def VMn.shape : VMn → VShape
  | .nop | .illegal => { vd := .none, va := .none, vb := .none }
  | .vadds_ | .vsubs_ | .vaddss | .vsubss | .vmulhs => { vd := .s, va := .s, vb := .s }
  | .vsras | .vshls => { vd := .s, va := .s, vb := .none, r := true, imm := 15 }
  | .vmovs => { vd := .d, va := .s, vb := .none, imm := 7 }
  | .vins => { vd := .s, va := .d, vb := .none, imm := 7 }
  | .vbcsts => { vd := .s, va := .d, vb := .none }
  | .vbexps => { vd := .d, va := .s, vb := .none }
  | .vgetc => { vd := .s, va := .l, vb := .none, imm := 7 }
  | .vputc => { vd := .l, va := .s, vb := .none, imm := 7 }
  | .vaddh | .vsubh | .vaddsh | .vsubsh | .vaddw | .vsubw | .vminh | .vmaxh | .vand | .vor | .vxor | .vmulhh =>
    { vd := .l, va := .l, vb := .l }
  | .vsrah | .vshlh => { vd := .l, va := .l, vb := .none, r := true, imm := 15 }
  | .vsraw | .vshlw => { vd := .l, va := .l, vb := .none, r := true, imm := 31 }
  | .vmulw => { vd := .l, va := .l, vb := .l, h := true }
  | .vmac | .vmsu => { vd := .acc, va := .l, vb := .l }
  | .vcmac | .vcmsu => { vd := .acc, va := .l, vb := .l, h := true, c := true }
  | .vdot8 => { vd := .l, va := .l, vb := .l, c := true }
  | .vclr => { vd := .acc, va := .none, vb := .none }
  | .vnarrowh => { vd := .l, va := .acc, vb := .none, h := true, s := true, r := true, imm := 47 }
  | .vnarroww => { vd := .l, va := .acc, vb := .none, s := true, r := true, imm := 47 }
  | .vpack => { vd := .l, va := .l, vb := .none, h := true, s := true, r := true, imm := 31 }
  | .vbexph => { vd := .d, va := .l, vb := .none, imm := 63 }
  | .vbexpw => { vd := .d, va := .l, vb := .none, imm := 31 }
  | .vbexpa => { vd := .d, va := .acc, vb := .none, imm := 31 }
  | .vconj | .vswap | .vmov => { vd := .l, va := .l, vb := .none }
  | .vbcsth | .vbcstw => { vd := .l, va := .d, vb := .none }
  | .vaccrd => { vd := .l, va := .acc, vb := .none, h := true }
  | .vaccwr => { vd := .acc, va := .l, vb := .l }

/-- It is a class L instruction (R94, R106). -/
def VMn.long : VMn → Bool
  | .nop | .illegal | .vadds_ | .vsubs_ | .vaddss | .vsubss | .vmulhs | .vsras | .vshls | .vmovs | .vins | .vbcsts | .vbexps | .vgetc | .vputc => false
  | _ => true

/-- A register field names a register of its file. -/
def VFile.has (f : VFile) (r : BitVec 5) : Bool :=
  match f with
  | .none | .d => true
  | .s => decide (r.toNat < 16)
  | .l => decide (r.toNat < 8)
  | .acc => decide (r.toNat < 4)

/-- Legality of a V-slot instruction alone (R105). -/
def VIns.legal (i : VIns) : Bool :=
  let q := i.mn.shape
  decide (i.mn ≠ .illegal) && (!i.h || q.h) && (!i.s || q.s) && (!i.c || q.c) && (!i.r || q.r) &&
    decide (i.imm6.toNat ≤ if i.r then 0 else q.imm) && q.vd.has i.vd && q.va.has i.va && q.vb.has i.vb

/-- Registers a V-slot instruction writes. -/
def VIns.writes (i : VIns) : List Nat :=
  match i.mn.shape.vd with
  | .none => []
  | .d => [keyD i.vd]
  | .s => [keySv i.vd]
  | .l => [keyLv i.vd]
  | .acc => [keyVacc i.vd]

/-! Bundles -/

/-- A register that a later slot writes too. -/
def clash (l : List Nat) (m : List Nat) : Bool := l.any fun k => m.contains k

/-- The first slot, in slot order, that makes a bundle illegal by itself (R57). -/
def Bundle.badSlot (b : Bundle) : Option Nat :=
  let w0 := b.s0.writes
  let w1 := b.s1.writes
  let wm := b.m.writes
  if !b.s0.legal || decide (b.s0.mn = .lit) then some 0
  else if !b.s1.legal || b.s1.mn.control || (decide (b.s1.mn = .lit) && !b.s0.mn.formatI) || clash w1 w0 then some 1
  else if !b.m.legal || clash wm (w0 ++ w1) then some 2
  else if !b.v.legal || clash b.v.writes (w0 ++ w1 ++ wm) then some 3
  else none

/-- The immediate of the S0 instruction: imm16, or with lit in S1 the 42-bit value of R58, sign-extended; of an S1 instruction
its own imm16. -/
def Bundle.imm (b : Bundle) (first : Bool) : Int :=
  if first && decide (b.s1.mn = .lit) then sext 42 (b.s1.imm.toNat * 2 ^ 16 + b.s0.imm.toNat % 2 ^ 16)
  else sext 16 (if first then b.s0 else b.s1).imm.toNat

end Sys2Proof.Machine
end

