-- ==== Sys2Proof/Machine/Operands.lean ====
section
/-! DEFINITION. Operands of a bundle: registers as a bundle sees them under the latencies of R62, addresses and their updates (R61,
R73 to R75), protection checks (R79, R80), control and status registers (R53 to R55). -/

namespace Sys2Proof.Machine

/-! Registers (R62, R63, R95) -/

/-- A register of a bank, as a number. -/
def Bank.get (b : Bank) (r : TReg) : Nat :=
  match r with
  | .d i => b.d[i].toNat
  | .acc i => b.acc[i].toNat
  | .a i => b.a[i].toNat
  | .sv i => b.sv[i].toNat
  | .lv i => b.lv[i].toNat
  | .vacc i => b.vacc[i].toNat

/-- Bits under a mask replaced. -/
def maskNat (old mask val : Nat) : Nat := (old ^^^ (old &&& mask)) ||| (val &&& mask)

/-- The next bundle is issued: writes in flight age, and those of four bundles ago are in the register file for every reader. -/
def Core.tick (c : Core) : Core :=
  let p := c.pend.map fun q => { q with age := q.age + 1 }
  { c with fg := (p.filter fun q => decide (4 ≤ q.age)).foldl Bank.put c.fg, pend := p.filter fun q => decide (q.age < 4) }

/-- A register as a bundle sees it: writes whose latency, plus `extra`, has passed, the youngest last; `chain`: as the next accumulate
sees it. -/
def Core.seen (c : Core) (r : TReg) (extra : Nat) (chain : Bool) : Nat :=
  c.pend.foldl (fun v p =>
    if p.reg = r ∧ (if chain then p.accLat else p.lat) + extra ≤ p.age then maskNat v p.mask p.val else v) (c.fg.get r)

def dReg (r : BitVec 5) : TReg := .d r.toFin
def accReg (r : BitVec 5) : TReg := .acc ⟨r.toNat % 4, by omega⟩
def aReg (r : BitVec 4) : TReg := .a r.toFin
def svReg (r : BitVec 5) : TReg := .sv ⟨r.toNat % 16, by omega⟩
def lvReg (r : BitVec 5) : TReg := .lv ⟨r.toNat % 8, by omega⟩
def vaccReg (r : BitVec 5) : TReg := .vacc ⟨r.toNat % 4, by omega⟩

/-- Low four bits of a field: an a register (R59). -/
def low4 (r : BitVec 5) : BitVec 4 := r.setWidth 4

/-- d register read in E1. -/
def Core.d (c : Core) (r : BitVec 5) : Word := BitVec.ofNat 32 (c.seen (dReg r) 0 false)

/-- d register read in D. -/
def Core.dEarly (c : Core) (r : BitVec 5) : Word := BitVec.ofNat 32 (c.seen (dReg r) 1 false)

/-- a register read in E1. -/
def Core.a (c : Core) (r : BitVec 4) : Addr := BitVec.ofNat 40 (c.seen (aReg r) 0 false)

/-- a register read in D. -/
def Core.aEarly (c : Core) (r : BitVec 4) : Addr := BitVec.ofNat 40 (c.seen (aReg r) 1 false)

/-- Accumulator, signed. -/
def Core.accVal (c : Core) (r : BitVec 5) (chain : Bool) : Int := sext 40 (c.seen (accReg r) 0 chain)

/-- A write of n bits of a register from bit `at_`, with its latencies. -/
def wr (r : TReg) (at_ n : Nat) (v : Nat) (lat : Nat) (accLat : Nat := lat) : Pend :=
  { reg := r, mask := (2 ^ n - 1) * 2 ^ at_, val := v % 2 ^ n * 2 ^ at_, lat := lat, accLat := accLat, age := 0 }

/-- A write of a d register. -/
def wrD (r : BitVec 5) (v : Int) (lat : Nat := 1) : Pend := wr (dReg r) 0 32 (BitVec.ofInt 32 v).toNat lat

/-- A write of an a register. -/
def wrA (r : BitVec 4) (v : Addr) (lat : Nat := 1) : Pend := wr (aReg r) 0 40 v.toNat lat

/-! Addresses (R61, R73, R97) -/

/-- What an address operand gives: the address used, the pointer, the register's new value, and whether the pointer was out of
range. -/
structure AddrUse where
  addr : Addr
  ptr : Addr
  update : Option Addr
  out : Bool

/-- Circular addressing is in force for an a register (R73). -/
def Core.circOn (c : Core) (an : BitVec 4) : Bool :=
  decide (an.toNat < 8) && bit c.fg.amode an.toNat && decide (c.fg.cl[an.toNat % 8]'(by omega) ≠ 0)

/-- An update of an a register by an increment. -/
def Core.update (c : Core) (compat : Bool) (an : BitVec 4) (inc : Int) : Addr × Bool :=
  let ptr := c.a an
  if c.circOn an then circular compat ptr (c.fg.cb[an.toNat % 8]'(by omega)) (c.fg.cl[an.toNat % 8]'(by omega)) inc
  else (ptr + BitVec.ofInt 40 inc, false)

/-- The address operand of a load or store. -/
def Core.address (c : Core) (compat : Bool) (i : MIns) : AddrUse :=
  let ptr := c.a i.an
  let imm := sext 14 i.imm.toNat
  let dm := sext 32 (c.d (BitVec.ofNat 5 (i.imm.toNat % 32))).toNat
  let post (inc : Int) : AddrUse :=
    let q := c.update compat i.an inc
    ⟨ptr, ptr, some q.1, q.2⟩
  match i.mode.toNat with
  | 0 => ⟨ptr + BitVec.ofInt 40 imm, ptr, none, false⟩
  | 1 => post imm
  | 2 => post dm
  | _ => ⟨ptr + BitVec.ofInt 40 dm, ptr, none, false⟩

/-! Protection (R79, R80) -/

/-- A kind of access. -/
inductive Prot | read | write | fetch
  deriving DecidableEq, Repr

/-- The regions permit an access to an address: the highest-numbered enabled region that contains it decides. -/
def permits (rs : Vector Region 16) (priv dflt : Bool) (k : Prot) (a : Nat) : Bool :=
  match (rs.toList.reverse).find? (fun r => bit r.attr 0 && decide (r.base.toNat ≤ a ∧ a ≤ r.lim.toNat)) with
  | some r =>
    let o := match k with
      | .read => 1
      | .write => 2
      | .fetch => 3
    bit r.attr (if priv then o + 3 else o)
  | none => priv && dflt

/-- tc.status.PRIV. -/
def Core.priv (c : Core) : Bool := bit c.fg.status 0

/-- A data access of the core is permitted at every one of n bytes. -/
def Core.dataOk (c : Core) (store : Bool) (a n : Nat) : Bool :=
  (List.range n).all fun i => permits c.mpuP2 c.priv (bit c.ctl 1) (if store then .write else .read) ((a + i) % 2 ^ 40)

/-- A fetch is permitted. -/
def Core.fetchOk (c : Core) : Bool := permits c.mpuF c.priv (bit c.ctl 1) .fetch c.fg.pc.toNat

/-! Control and status registers -/

/-- An entry of a vector of three. -/
def v3 {α : Type} (v : Vector α 3) (i : Nat) : α := v[i % 3]'(by omega)

/-- A region of a core. -/
def reg16 (v : Vector Region 16) (i : Nat) : Region := v[i % 16]'(by omega)

/-- Read of a CSR (R53): `now` the replica, `extra` core cycles that passed without a bundle. -/
def Core.csr (c : Core) (x : Fin 192) (compat : Bool) (now : Time) (extra : Nat) (n : Nat) : Nat :=
  let b := c.fg
  if 0x10 ≤ n ∧ n ≤ 0x12 then (v3 b.ls (n - 0x10)).toNat
  else if 0x14 ≤ n ∧ n ≤ 0x16 then (v3 b.le (n - 0x14)).toNat
  else if 0x18 ≤ n ∧ n ≤ 0x1A then (v3 b.lc (n - 0x18)).toNat
  else if 0x100 ≤ n ∧ n ≤ 0x10F then (reg16 c.mpu (n - 0x100)).base.toNat
  else if 0x110 ≤ n ∧ n ≤ 0x11F then (reg16 c.mpu (n - 0x110)).lim.toNat
  else if 0x120 ≤ n ∧ n ≤ 0x12F then (reg16 c.mpu (n - 0x120)).attr.toNat
  else match n with
    | 0x000 => (statusView compat b.status).toNat
    | 0x001 => c.ctl.toNat
    | 0x002 => b.amode.toNat
    | 0x003 => c.estatus.toNat
    | 0x004 => c.cause.toNat
    | 0x005 => c.epc.toNat
    | 0x006 => c.eaddr.toNat
    | 0x007 => c.etarget.toNat
    | 0x008 => c.vbase.toNat
    | 0x009 => b.vxi.toNat
    | 0x01C => b.rc.toNat
    | 0x020 => now.toNat % 2 ^ 32
    | 0x021 => c.timeHi.toNat
    | 0x022 => (c.cycle.toNat + extra) % 2 ^ 32
    | 0x023 => c.cycleHi.toNat
    | 0x030 => x.val + 256 * (x.val / 8) + 8192 * (x.val / 48)
    | _ => 0

/-- Unprivileged code may write this CSR (R54). -/
def csrUser (n : Nat) : Bool := decide (n = 0 ∨ n = 2 ∨ n = 9)

/-- Loop or branch logic uses this CSR: a csrw or csrwa to it reads its register in D (R62). -/
def csrEarly (n : Nat) : Bool := decide (n = 5 ∨ n = 7 ∨ 0x10 ≤ n ∧ n ≤ 0x12 ∨ 0x14 ≤ n ∧ n ≤ 0x16 ∨ 0x18 ≤ n ∧ n ≤ 0x1A ∨ n = 0x1C)

/-- A vector of three with an entry set. -/
def set3 {α : Type} (v : Vector α 3) (i : Nat) (x : α) : Vector α 3 := v.set (i % 3) x (by omega)

/-- The regions with one changed. -/
def setRegion (c : Core) (i : Nat) (f : Region → Region) : Core :=
  { c with mpu := c.mpu.set (i % 16) (f (c.mpu[i % 16]'(by omega))) (by omega) }

/-- A write of a CSR that R54 permits: bits 10:8 of tc.status are write-1-to-clear, IE and EXL are written with PRIV; read-only and
unlisted CSRs are unchanged. -/
def Core.csrPut (c : Core) (n : Nat) (v : Nat) : Core :=
  let w : Word := BitVec.ofNat 32 v
  let q : Addr := BitVec.ofNat 40 v
  let b := c.fg
  if 0x10 ≤ n ∧ n ≤ 0x12 then { c with fg := { b with ls := set3 b.ls (n - 0x10) q } }
  else if 0x14 ≤ n ∧ n ≤ 0x16 then { c with fg := { b with le := set3 b.le (n - 0x14) q } }
  else if 0x18 ≤ n ∧ n ≤ 0x1A then { c with fg := { b with lc := set3 b.lc (n - 0x18) w } }
  else if 0x100 ≤ n ∧ n ≤ 0x10F then setRegion c (n - 0x100) fun r => { r with base := q &&& ~~~0x3F }
  else if 0x110 ≤ n ∧ n ≤ 0x11F then setRegion c (n - 0x110) fun r => { r with lim := q ||| 0x3F }
  else if 0x120 ≤ n ∧ n ≤ 0x12F then setRegion c (n - 0x120) fun r => { r with attr := w.setWidth 7 }
  else match n with
    | 0x000 =>
      let cleared := b.status &&& ~~~(w &&& 0x700)
      { c with fg := { b with status := if c.priv then setFld cleared 2 1 (fld w 2 1) else cleared } }
    | 0x001 => { c with ctl := w &&& 3 }
    | 0x002 => { c with fg := { b with amode := w.setWidth 8 } }
    | 0x003 => { c with estatus := w &&& 0xFF }
    | 0x005 => { c with epc := q }
    | 0x007 => { c with etarget := q }
    | 0x008 => { c with vbase := q &&& ~~~0xFFF }
    | 0x009 => { c with fg := { b with vxi := w.setWidth 7 } }
    | 0x01C => { c with fg := { b with rc := w.setWidth 16 } }
    | _ => c

end Sys2Proof.Machine
end

