-- ==== Sys2Proof/Machine/TarnScalar.lean ====
section
/-! DEFINITION. What an S-slot instruction does to its core, as effects that the bundle applies together (03_tarn_scalar.md R60, R66,
R69, R72, R76 to R78). -/

namespace Sys2Proof.Machine

/-! Effects -/

/-- An exception a slot raises: CODE, slot, tc.eaddr, SUB (R84). -/
structure Exc where
  code : Nat
  slot : Nat
  eaddr : Addr
  sub : Nat := 0
  deriving DecidableEq, Repr

/-- Priority of an exception code (R84). -/
def excRank (code : Nat) : Nat :=
  match code with
  | 0x01 => 1 | 0x02 => 2 | 0x03 => 3 | 0x0B => 4 | 0x04 => 5 | 0x05 => 6 | 0x06 => 7 | 0x07 => 8 | 0x08 => 9 | 0x09 => 10
  | _ => 11

/-- What an S0 instruction asks of program flow. -/
inductive Flow
  | go
  | branch (taken : Bool) (target : Addr) (annul : Bool)
  | rfe
  | loop (level : Nat) (count : Word) (fin : Nat)
  | rep (count : Nat)
  /-- what an access that completes by resumption leaves to S0's instruction (R103) -/
  | after (a : After)
  deriving DecidableEq, Repr

/-- The effects of one slot. -/
structure Eff where
  writes : List Pend := []
  flags : Sticky := {}
  cb : List (Nat × Addr) := []
  cl : List (Nat × BitVec 24) := []
  csr : List (Nat × Nat) := []
  /-- CSRs read -/
  looks : List Nat := []
  exc : List Exc := []
  flow : Flow := .go

/-- What a slot's instruction sees beside registers. -/
structure Env where
  x : Fin 192
  slot : Nat
  pc : Addr
  compat : Bool
  now : Time
  extra : Nat
  imm : Int

/-! Values (R60) -/

/-- Signed value of a d register. -/
def sd (w : Word) : Int := sext 32 w.toNat

/-- s16: bits 15:0 as signed (R60). -/
def s16 (w : Word) : Int := sext 16 w.toNat

/-- Format T instructions with two d sources: result, SAT, latency. -/
def alu2 (m : SMn) (x y : Word) : Option (Int × Bool × Nat) :=
  let s := y.toNat % 32
  let rel (p : Bool) : Int := p.toNat
  match m with
  | .add => some (sd x + sd y, false, 1)
  | .sub => some (sd x - sd y, false, 1)
  | .and => some ((x &&& y).toNat, false, 1)
  | .or => some ((x ||| y).toNat, false, 1)
  | .xor => some ((x ^^^ y).toNat, false, 1)
  | .shl => some ((x <<< s).toNat, false, 1)
  | .shr => some ((x >>> s).toNat, false, 1)
  | .sra => some (asr (sd x) s, false, 1)
  | .cmpeq => some (rel (decide (x = y)), false, 1)
  | .cmplt => some (rel (decide (sd x < sd y)), false, 1)
  | .cmpltu => some (rel (decide (x.toNat < y.toNat)), false, 1)
  | .min => some (min (sd x) (sd y), false, 1)
  | .max => some (max (sd x) (sd y), false, 1)
  | .adds => let q := clamp 32 (sd x + sd y); some (q.1, q.2, 1)
  | .subs => let q := clamp 32 (sd x - sd y); some (q.1, q.2, 1)
  | .abs => let q := clamp 32 (sd x).natAbs; some (q.1, q.2, 1)
  | .mul => some (sd x * sd y, false, 2)
  | .mulh => let q := mulHigh (s16 x) (s16 y); some (q.1, q.2, 2)
  | .exp => some (signBits 32 (sd x), false, 1)
  | _ => none

/-- Format I instructions with a d destination: `imm` extended by lit (R58); `low` its imm16 alone. -/
def aluI (m : SMn) (x : Word) (imm : Int) (ext : Bool) : Option Int :=
  let iw : Word := BitVec.ofInt 32 imm
  let zx : Word := if ext then iw else iw &&& 0xFFFF
  let s := (BitVec.ofInt 5 imm).toNat
  let rel (p : Bool) : Int := p.toNat
  match m with
  | .addi => some (sd x + imm)
  | .andi => some (x &&& zx).toNat
  | .ori => some (x ||| zx).toNat
  | .xori => some (x ^^^ zx).toNat
  | .shli => some (x <<< s).toNat
  | .shri => some (x >>> s).toNat
  | .srai => some (asr (sd x) s)
  | .cmpeqi => some (rel (decide (sd x = sd iw)))
  | .cmplti => some (rel (decide (sd x < sd iw)))
  | .movi => some imm
  | .movhi => some (imm * 65536)
  | _ => none

/-- A branch condition (R60). -/
def branchCond (cond : Nat) (v : Int) : Bool :=
  match cond with
  | 0 => decide (v = 0)
  | 1 => decide (v ≠ 0)
  | 2 => decide (v < 0)
  | 3 => decide (0 ≤ v)
  | 4 => decide (0 < v)
  | 5 => decide (v ≤ 0)
  | _ => true

/-- An address n bundles away. -/
def bundlesOn (pc : Addr) (n : Int) : Addr := pc + BitVec.ofInt 40 (16 * n)

/-- A PRIV, BREAK or TRAP of a slot: tc.eaddr is the bundle's address. -/
def Env.raise (e : Env) (code : Nat) (sub : Nat := 0) : Eff := { exc := [⟨code, e.slot, e.pc, sub⟩] }

/-- Effects of an S-slot instruction. -/
def scalar (c : Core) (e : Env) (i : SIns) (lit : Bool) : Eff :=
  let x := c.d i.rs1
  let y := c.d i.rs2
  let ax := c.a (low4 i.rs1)
  let toD (v : Int) : Eff := { writes := [wrD i.rd v] }
  let toA (v : Addr) : Eff := { writes := [wrA (low4 i.rd) v] }
  let csr := i.imm.toNat
  match i.mn with
  | .nop | .lit | .illegal => {}
  | .mac | .msu =>
    let p := s16 x * s16 y
    let q := wrap 40 (c.accVal i.rd true + if i.mn = .mac then p else -p)
    { writes := [wr (accReg i.rd) 0 40 (BitVec.ofInt 40 q.1).toNat 3 1], flags := { ovf := q.2 } }
  | .ext => toD (asr (c.accVal i.rs1 false) i.sh.toNat)
  | .exts =>
    let q := clamp 32 (asr (c.accVal i.rs1 false) i.sh.toNat)
    { writes := [wrD i.rd q.1], flags := { sat := q.2 } }
  | .expa => toD (signBits 40 (c.accVal i.rs1 false))
  | .norm =>
    let n := signBits 32 (sd x)
    { writes := [wrD i.rd (x <<< n).toNat 2, wrD (i.rd + 1) n 2] }
  | .lda => { writes := [wr (accReg i.rd) 0 40 (BitVec.ofInt 40 (sd x)).toNat 1] }
  | .movda => toD ax.toNat
  | .setcb => { cb := [(i.rd.toNat, ax)] }
  | .setcl => { cl := [(i.rd.toNat, x.setWidth 24)] }
  | .rdcb => toA (c.fg.cb[i.rs1.toNat % 8]'(by omega))
  | .rdcl => toD (c.fg.cl[i.rs1.toNat % 8]'(by omega)).toNat
  | .adda => toA (ax + BitVec.ofInt 40 e.imm)
  | .addc =>
    let q := c.update e.compat (low4 i.rs1) (BitVec.ofInt 40 e.imm).toInt
    if q.2 && bit c.ctl 0 then { exc := [⟨0x09, e.slot, ax, 0⟩] }
    else { writes := [wrA (low4 i.rd) q.1], flags := { circ := q.2 } }
  | .addar => toA (ax + BitVec.ofInt 40 (sd y))
  | .movia => toA (BitVec.ofInt 40 e.imm)
  | .movad => toA (x.setWidth 40)
  | .bcc =>
    let taken := branchCond i.cond.toNat (sd (c.dEarly i.rs1))
    { flow := .branch taken (bundlesOn e.pc (sext 16 i.imm.toNat)) (i.flag && !taken) }
  | .call => { writes := [wrA 15 (bundlesOn e.pc 3)], flow := .branch true (bundlesOn e.pc (sext 26 i.imm.toNat)) false }
  | .jr => { flow := .branch true (bundleAddr (c.aEarly (low4 i.rs1))) false }
  | .callr => { writes := [wrA 15 (bundlesOn e.pc 3)], flow := .branch true (bundleAddr (c.aEarly (low4 i.rs1))) false }
  | .rfe => if c.priv then { flow := .rfe } else e.raise 0x04
  | .loop =>
    let count := if i.flag then c.dEarly (i.imm.setWidth 5) else i.imm.setWidth 32
    { flow := .loop i.cond.toNat count i.fin.toNat }
  | .rep => { flow := .rep ((if i.flag then c.dEarly (i.imm.setWidth 5) else i.imm.setWidth 32).toNat % 2 ^ 16) }
  | .trap => e.raise 0x0A (BitVec.ofInt 8 e.imm).toNat
  | .brk => e.raise 0x0B
  | .csrr => { writes := [wrD i.rd (c.csr e.x e.compat e.now e.extra csr)], looks := [csr] }
  | .csrra => { writes := [wrA (low4 i.rd) (BitVec.ofNat 40 (c.csr e.x e.compat e.now e.extra csr))], looks := [csr] }
  | .csrw =>
    if c.priv || csrUser csr then { csr := [(csr, (if csrEarly csr then c.dEarly i.rd else c.d i.rd).toNat)] } else e.raise 0x04
  | .csrwa =>
    if c.priv || csrUser csr then { csr := [(csr, (if csrEarly csr then c.aEarly (low4 i.rd) else c.a (low4 i.rd)).toNat)] }
    else e.raise 0x04
  | m =>
    match alu2 m x y, aluI m x e.imm lit with
    | some r, _ => { writes := [wrD i.rd r.1 r.2.2], flags := { sat := r.2.1 } }
    | none, some v => toD v
    | none, none => {}

end Sys2Proof.Machine
end

