-- ==== Sys2Proof/Machine/TarnFlow.lean ====
section
/-! DEFINITION. What a core holds after a bundle: effects applied together, program flow with delay slots, block repeats and repeats
(03_tarn_scalar.md R62, R66 to R72, R81, R85; 04_tarn_vector.md R102, R103). -/

namespace Sys2Proof.Machine

/-! Effects applied -/

/-- What a read of tc.time_lo or tc.cycle_lo latches (R53, R55). -/
def Core.latch (c : Core) (now : Time) (extra : Nat) (n : Nat) : Core :=
  if n = 0x20 then { c with timeHi := BitVec.ofNat 32 (now.toNat / 2 ^ 32) }
  else if n = 0x22 then { c with cycleHi := BitVec.ofNat 32 ((c.cycle.toNat + extra) / 2 ^ 32) }
  else c

/-- The effects of a bundle's slots on registers, CSRs and flags; a flag set in the cycle it is cleared ends set (00_scope.md R7). The
regions that data accesses see move on by a bundle (R81). -/
def Core.apply (c : Core) (now : Time) (extra : Nat) (es : List Eff) : Core :=
  let c := es.foldl (fun c e => e.looks.foldl (fun c n => c.latch now extra n) c) c
  let c := if es.any (fun e => e.looks.contains 0x22) then { c with cycle := c.cycle + BitVec.ofNat 64 extra } else c
  let c := { c with mpuP2 := c.mpuP1, mpuP1 := c.mpu, pend := c.pend ++ es.flatMap Eff.writes }
  let c := es.foldl (fun c e => e.csr.foldl (fun c p => c.csrPut p.1 p.2) c) c
  let cb := es.foldl (fun v e => e.cb.foldl (fun (v : Vector Addr 8) p => v.set (p.1 % 8) p.2 (by omega)) v) c.fg.cb
  let cl := es.foldl (fun v e => e.cl.foldl (fun (v : Vector (BitVec 24) 8) p => v.set (p.1 % 8) p.2 (by omega)) v) c.fg.cl
  let f : Sticky := es.foldl (fun (f : Sticky) e => f.join e.flags) {}
  { c with fg := { c.fg with cb := cb, cl := cl, status := f.on c.fg.status } }

/-! Flow -/

/-- tc.status shows the delay slot of the bundle now to issue: DS and BT (R53). -/
def Core.showDelay (c : Core) : Core :=
  let st := match c.delay with
    | some d => setBit (setFld c.fg.status 6 5 d.slot) 7 d.taken
    | none => setBit (setFld c.fg.status 6 5 0) 7 false
  { c with fg := { c.fg with status := st } }

/-- The core's next bundle. -/
def Core.goto (c : Core) (a : Addr) : Core := { c with fg := { c.fg with pc := bundleAddr a } }

/-- Block-repeat level n is active (R53). -/
def Bank.active (b : Bank) (n : Nat) : Bool := decide (v3 b.lc n ≠ 0)

/-- A control transfer taken to an address: the lowest active level whose body it leaves, and every higher one, become inactive
(R71). -/
def Core.leaveLoops (c : Core) (t : Addr) : Core :=
  let b := c.fg
  match (List.range 3).find? fun n => b.active n && decide (t.toNat < (v3 b.ls n).toNat ∨ (v3 b.le n).toNat < t.toNat) with
  | none => c
  | some n => { c with fg := { b with lc := ((List.range 3).filter fun m => decide (n ≤ m)).foldl (fun v m => set3 v m 0) b.lc } }

/-- The end bundle of active levels completes, from level n downwards (R70): the next bundle. -/
def Bank.loopEnd (b : Bank) (next : Addr) : Nat → Bank × Addr
  | 0 => (b, next)
  | n + 1 =>
    if b.active n ∧ v3 b.le n = b.pc then
      if v3 b.lc n = 1 then Bank.loopEnd { b with lc := set3 b.lc n 0 } next n
      else ({ b with lc := set3 b.lc n (v3 b.lc n - 1) }, v3 b.ls n)
    else Bank.loopEnd b next n

/-- loop sets its level's registers (R69). -/
def Core.loopStart (c : Core) (level : Nat) (count : Word) (fin : Nat) : Core :=
  let b := c.fg
  { c with fg := { b with
    ls := set3 b.ls level (bundlesOn b.pc 1), le := set3 b.le level (bundlesOn b.pc fin), lc := set3 b.lc level count } }

/-- rep repeats the bundle at `next`, or skips it (R72). -/
def Core.repStart (c : Core) (next : Addr) (count : Nat) : Core :=
  if count = 0 then c.goto (bundlesOn next 1)
  else { c.goto next with repOn := true, fg := { (c.goto next).fg with rc := BitVec.ofNat 16 (count - 1) } }

/-- What S0 of the bundle at pc has left to program flow, where that bundle's access failed in a later beat (R102). -/
def Bank.lateAfter (b : Bank) : Option After := (b.late.filter fun l => decide (l.pc = b.pc)).bind (·.after)

/-- rfe and its annulled slots are done: status restored but COMPAT, delay slots resumed, a repeat resumed (R68, R72, R85, R88). -/
def Core.resume (c : Core) (est : Word) (target : Addr) : Core :=
  let st := setBit (setFld c.fg.status 7 0 (fld est 7 0)) 3 (bit c.fg.status 3)
  let ds := fld est 6 5
  { c with
    fg := { c.fg with status := st }, rfeHold := true
    repOn := decide (ds = 0 ∧ c.fg.rc ≠ 0) && !(bit est 4 && decide (c.fg.lateAfter = some .rep))
    delay := if ds = 0 then none else some ⟨ds, bit est 7, bundleAddr target, false, none⟩ }

/-- The next bundle after one in no delay slot that transfers no control. -/
def Core.follow (c : Core) (f : Flow) : Core :=
  if c.repOn then
    if c.fg.rc = 0 then { c.goto (bundlesOn c.fg.pc 1) with repOn := false }
    else { c with fg := { c.fg with rc := c.fg.rc - 1 } }
  else
    let skip := match f with
      | .loop _ n fin => if n = 0 then fin + 1 else 1
      | _ => 1
    let c := match f with
      | .loop l n fin => c.loopStart l n fin
      | _ => c
    let q := match f with
      | .loop _ _ _ => (c.fg, bundlesOn c.fg.pc skip)
      | .after (.skip n) => (c.fg, bundlesOn c.fg.pc n)
      | _ => Bank.loopEnd c.fg (bundlesOn c.fg.pc 1) 3
    let c := { c with fg := q.1 }
    match f with
    | .rep n => c.repStart q.2 n
    | .after .rep => c.repStart q.2 c.fg.rc.toNat
    | _ => c.goto q.2

/-- The delay slots that follow a control transfer; `est`, `epc`, `etgt`: tc.estatus, tc.epc and tc.etarget as it finds them. -/
def Flow.delay (f : Flow) (est : Word) (epc etgt : Addr) : Option Delay :=
  match f with
  | .branch taken target annul => some ⟨1, taken, target, annul, none⟩
  | .rfe => some ⟨1, true, bundleAddr epc, true, some (est, etgt)⟩
  | .after (.delay d) => some d
  | _ => none

/-- What an instruction of S0 that has completed leaves to program flow until the bundle's access completes (R102), and what it sets at
once: the registers of a loop, tc.rc of a rep. -/
def Core.leave (c : Core) (f : Flow) (est : Word) (epc etgt : Addr) : Core × Option After :=
  match f.delay est epc etgt with
  | some d => (c, some (.delay d))
  | none =>
    match f with
    | .loop l n fin => (c.loopStart l n fin, some (.skip (if n = 0 then fin + 1 else 1)))
    | .rep n => ({ c with fg := { c.fg with rc := BitVec.ofNat 16 n } }, some .rep)
    | .after a => (c, some a)
    | _ => (c, none)

/-- The bundle at pc has completed: where the core goes; `mpu`: the regions before its writes; `est`, `etgt`: tc.estatus and
tc.etarget before them. -/
def Core.advance (c : Core) (f : Flow) (mpu : Vector Region 16) (est : Word) (epc etgt : Addr) : Core :=
  let c := { c with rfeHold := false }
  let go := c.goto (bundlesOn c.fg.pc 1)
  (match c.delay with
  | some d =>
    if d.slot = 1 then { go with delay := some { d with slot := 2 } }
    else
      let c := { c with delay := none, mpuF := c.mpuT }
      let c := if d.taken then (c.leaveLoops d.target).goto d.target else c.goto (bundlesOn c.fg.pc 1)
      match d.rfe with
      | some p => c.drain.resume p.1 p.2
      | none => c
  | none =>
    match f.delay est epc etgt with
    | some d => { go with delay := some d, mpuT := mpu }
    | none => c.follow f).showDelay

end Sys2Proof.Machine
end

