-- ==== Sys2Proof/Machine/TarnVector.lean ====
section
/-! DEFINITION. What a V-slot instruction does (04_tarn_vector.md R91 to R93, R105 to R113). -/

namespace Sys2Proof.Machine

/-- Elements of w bits of a register image, signed, element 0 first (R92). -/
def elems (w n : Nat) (v : Nat) : List Int := (List.range n).map fun i => sext w (v / 2 ^ (w * i))

/-- A register image of elements of w bits. -/
def packEl (w : Nat) : List Int → Nat
  | [] => 0
  | v :: vs => (BitVec.ofInt w v).toNat + 2 ^ w * packEl w vs

/-- Entry i of a list of integers. -/
def nth (l : List Int) (i : Nat) : Int := l.getD i 0

/-- Elementwise on two lists. -/
def zip2 (f : Int → Int → Int) (a b : List Int) : List Int := List.zipWith f a b

/-- Block exponent of elements of n bits (R112). -/
def blockExp (n : Nat) (l : List Int) : Nat := (l.map (signBits n)).foldl min (n - 1)

/-- Products by mulHigh of two lists (R106). -/
def mulHighAll (a b : List Int) : List Int × Bool :=
  (zip2 (fun p q => (mulHigh p q).1) a b, (a.zip b).any fun p => (mulHigh p.1 p.2).2)

/-- The shift of an instruction and whether it is beyond the maximum: imm6, or d[vb] bits 5:0 (R105, R107). -/
def VIns.shift (i : VIns) (c : Core) (top : Nat) : Nat × Bool :=
  let s := if i.r then (c.d i.vb).toNat % 64 else i.imm6.toNat
  (s, decide (top < s))

/-- A right shift as R107 has it. -/
def VIns.right (i : VIns) (c : Core) (top : Nat) (l : List Int) : List Int :=
  let s := i.shift c top
  l.map fun v => asr v (if s.2 then top else s.1)

/-- A left shift as R107 has it. -/
def VIns.left (i : VIns) (c : Core) (top : Nat) (l : List Int) : List Int :=
  let s := i.shift c top
  l.map fun v => if s.2 then 0 else v * (2 ^ s.1 : Nat)

/-- Differences that vmac and vcmac add (R106, R109); `k` −1 for the subtracting forms. -/
def macTerms (a b : List Int) : List Int :=
  (List.range 32).map fun j => nth a (2 * j) * nth b (2 * j) + nth a (2 * j + 1) * nth b (2 * j + 1)

/-- Terms of vcmac: complex products of a half, real and imaginary parts in turn. -/
def cmacTerms (h conj : Bool) (a b : List Int) : List Int :=
  (List.range 16).flatMap fun j =>
    let o := 32 * h.toNat + 2 * j
    let ar := nth a o
    let ai := nth a (o + 1)
    let br := nth b o
    let bi := if conj then -nth b (o + 1) else nth b (o + 1)
    [ar * br - ai * bi, ar * bi + ai * br]

/-- Effects of a V-slot instruction. -/
def vector (c : Core) (i : VIns) : Eff :=
  let lv (r : BitVec 5) : Nat := c.seen (lvReg r) 0 false
  let sv (r : BitVec 5) : Nat := c.seen (svReg r) 0 false
  let acc (r : BitVec 5) : List Int := elems 48 32 (c.seen (vaccReg r) 0 false)
  let lh (r : BitVec 5) : List Int := elems 16 64 (lv r)
  let lw (r : BitVec 5) : List Int := elems 32 32 (lv r)
  let sh (r : BitVec 5) : List Int := elems 16 8 (sv r)
  let dh : Int := s16 (c.d i.va)
  let n := i.imm6.toNat
  let outS (l : List Int) (lat : Nat) (sat : Bool) : Eff := { writes := [wr (svReg i.vd) 0 128 (packEl 16 l) lat], flags := { sat := sat } }
  let outL (w : Nat) (l : List Int) (lat : Nat) (sat : Bool) : Eff :=
    { writes := [wr (lvReg i.vd) 0 1024 (packEl w l) lat], flags := { sat := sat } }
  let bits (v : Nat) (lat : Nat) : Eff := { writes := [wr (lvReg i.vd) 0 1024 v lat] }
  let half (l : List Int) (sat : Bool) : Eff :=
    { writes := [wr (lvReg i.vd) (512 * i.h.toNat) 512 (packEl 16 l) 2], flags := { sat := sat } }
  let outA (l : List Int) (lat accLat : Nat) (ovf : Bool) : Eff :=
    { writes := [wr (vaccReg i.vd) 0 1536 (packEl 48 l) lat accLat], flags := { ovf := ovf } }
  let outD (v : Int) (lat : Nat) : Eff := { writes := [wrD i.vd v lat] }
  let accum (k : Int) (t : List Int) : Eff :=
    let q := wrapAll 48 (zip2 (fun a d => a + k * d) (elems 48 32 (c.seen (vaccReg i.vd) 0 true)) t)
    outA q.1 3 1 q.2
  match i.mn with
  | .nop | .illegal => {}
  | .vadds_ => outS (zip2 (· + ·) (sh i.va) (sh i.vb)) 1 false
  | .vsubs_ => outS (zip2 (· - ·) (sh i.va) (sh i.vb)) 1 false
  | .vaddss => let q := clampAll 16 (zip2 (· + ·) (sh i.va) (sh i.vb)); outS q.1 1 q.2
  | .vsubss => let q := clampAll 16 (zip2 (· - ·) (sh i.va) (sh i.vb)); outS q.1 1 q.2
  | .vmulhs => let q := mulHighAll (sh i.va) (sh i.vb); outS q.1 2 q.2
  | .vsras => outS (i.right c 15 (sh i.va)) 1 false
  | .vshls => outS (i.left c 15 (sh i.va)) 1 false
  | .vmovs => outD (nth (sh i.va) (n % 8)) 1
  | .vins => { writes := [wr (svReg i.vd) (16 * (n % 8)) 16 (BitVec.ofInt 16 dh).toNat 1] }
  | .vbcsts => outS (List.replicate 8 dh) 1 false
  | .vbexps => outD (blockExp 16 (sh i.va)) 1
  | .vgetc => { writes := [wr (svReg i.vd) 0 128 (lv i.va / 2 ^ (128 * (n % 8)) % 2 ^ 128) 1] }
  | .vputc => { writes := [wr (lvReg i.vd) (128 * (n % 8)) 128 (sv i.va) 1] }
  | .vaddh => outL 16 (zip2 (· + ·) (lh i.va) (lh i.vb)) 1 false
  | .vsubh => outL 16 (zip2 (· - ·) (lh i.va) (lh i.vb)) 1 false
  | .vaddsh => let q := clampAll 16 (zip2 (· + ·) (lh i.va) (lh i.vb)); outL 16 q.1 1 q.2
  | .vsubsh => let q := clampAll 16 (zip2 (· - ·) (lh i.va) (lh i.vb)); outL 16 q.1 1 q.2
  | .vaddw => outL 32 (zip2 (· + ·) (lw i.va) (lw i.vb)) 1 false
  | .vsubw => outL 32 (zip2 (· - ·) (lw i.va) (lw i.vb)) 1 false
  | .vminh => outL 16 (zip2 min (lh i.va) (lh i.vb)) 1 false
  | .vmaxh => outL 16 (zip2 max (lh i.va) (lh i.vb)) 1 false
  | .vand => bits (lv i.va &&& lv i.vb) 1
  | .vor => bits (lv i.va ||| lv i.vb) 1
  | .vxor => bits (lv i.va ^^^ lv i.vb) 1
  | .vsrah => outL 16 (i.right c 15 (lh i.va)) 1 false
  | .vsraw => outL 32 (i.right c 31 (lw i.va)) 1 false
  | .vshlh => outL 16 (i.left c 15 (lh i.va)) 1 false
  | .vshlw => outL 32 (i.left c 31 (lw i.va)) 1 false
  | .vmulhh => let q := mulHighAll (lh i.va) (lh i.vb); outL 16 q.1 2 q.2
  | .vmulw =>
    let o := 32 * i.h.toNat
    outL 32 (zip2 (· * ·) ((lh i.va).drop o |>.take 32) ((lh i.vb).drop o |>.take 32)) 2 false
  | .vmac => accum 1 (macTerms (lh i.va) (lh i.vb))
  | .vmsu => accum (-1) (macTerms (lh i.va) (lh i.vb))
  | .vcmac => accum 1 (cmacTerms i.h i.c (lh i.va) (lh i.vb))
  | .vcmsu => accum (-1) (cmacTerms i.h i.c (lh i.va) (lh i.vb))
  | .vdot8 =>
    let old := elems 32 32 (c.seen (lvReg i.vd) 0 true)
    let a := (elems 8 128 (lv i.va)).map fun v => if i.c ∧ v < 0 then v + 256 else v
    let b := elems 8 128 (lv i.vb)
    let dot (j : Nat) : Int := ((List.range 4).map fun k => nth a (4 * j + k) * nth b (4 * j + k)).foldl (· + ·) 0
    { writes := [wr (lvReg i.vd) 0 1024 (packEl 32 ((List.range 32).map fun j => nth old j + dot j)) 2 1] }
  | .vclr => outA (List.replicate 32 0) 1 1 false
  | .vnarrowh =>
    let l := i.right c 47 (acc i.va)
    let q := if i.s then clampAll 16 l else (l, false)
    half q.1 q.2
  | .vnarroww =>
    let l := i.right c 47 (acc i.va)
    let q := if i.s then clampAll 32 l else (l, false)
    outL 32 q.1 2 q.2
  | .vpack =>
    let l := i.right c 31 (lw i.va)
    let q := if i.s then clampAll 16 l else (l, false)
    half q.1 q.2
  | .vbexph => outD (blockExp 16 ((lh i.va).take (n + 1))) 2
  | .vbexpw => outD (blockExp 32 ((lw i.va).take (n + 1))) 2
  | .vbexpa => outD (blockExp 48 ((acc i.va).take (n + 1))) 2
  | .vconj =>
    let q := clampAll 16 (((lh i.va).zip (List.range 64)).map fun p => if p.2 % 2 = 1 then -p.1 else p.1)
    outL 16 q.1 1 q.2
  | .vswap => outL 16 ((List.range 64).map fun k => nth (lh i.va) (if k % 2 = 0 then k + 1 else k - 1)) 1 false
  | .vmov => bits (lv i.va) 1
  | .vbcsth => outL 16 (List.replicate 64 dh) 1 false
  | .vbcstw => outL 32 (List.replicate 32 (sd (c.d i.va))) 1 false
  | .vaccrd => outL 32 ((acc i.va).map fun v => if i.h then asr v 32 else v) 2 false
  | .vaccwr =>
    outA (zip2 (fun lo hi => ((BitVec.ofInt 16 hi).toNat : Int) * 2 ^ 32 + (BitVec.ofInt 32 lo).toNat) (lw i.va) (lw i.vb)) 1 1 false

end Sys2Proof.Machine
end

