-- ==== Sys2Proof/Machine/TarnMem.lean ====
section
/-! DEFINITION. Loads and stores of the M slot: scalar accesses (03_tarn_scalar.md R61, R64, R84), vector accesses in beats with
faults part-way (04_tarn_vector.md R96 to R104). -/

namespace Sys2Proof.Machine

/-! Accesses of a core -/

/-- A read by a core within work. -/
def Job.coreRead (j : Job) (x : Fin 192) (op a n : Nat) : Job × List Byte :=
  if j.live then j.took (.core x) op a n 0 (j.s.busRead (.core x) a n) else (j, [])

/-- A write by a core within work. -/
def Job.coreWrite (j : Job) (x : Fin 192) (op a : Nat) (data : List Byte) : Job :=
  if j.live then (j.took (.core x) op a data.length 1 (j.s.busWrite (.core x) a (wholeBytes data))).1 else j

/-- Bytes of a scalar access. -/
def MMn.size : MMn → Nat
  | .ldb | .ldbu | .stb => 1
  | .ldh | .ldhu | .sth => 2
  | .ldw | .stw => 4
  | _ => 8

/-- The checks of a scalar access before it is made, in order: ALIGN, DATA_PROT, CIRC_OUT (R84). -/
def scalarChecks (c : Core) (i : MIns) (u : AddrUse) : List Exc :=
  let a := u.addr.toNat
  if a % i.mn.size ≠ 0 then [⟨0x06, 2, u.addr, 0⟩]
  else if c.dataOk i.mn.store a i.mn.size = false then [⟨0x07, 2, u.addr, 0⟩]
  else if u.out && bit c.ctl 0 then [⟨0x09, 2, u.ptr, 0⟩]
  else []

/-- The write of an address register that an access makes, latency 1 (R73). -/
def AddrUse.post (u : AddrUse) (an : BitVec 4) : Eff :=
  { writes := (u.update.map fun v => wrA an v).toList, flags := { circ := u.out } }

/-- What a scalar load writes. -/
def loadWrites (i : MIns) (d : List Byte) : List Pend :=
  let v := ofBytes d
  match i.mn with
  | .ldb => [wrD i.r (sext 8 v) 3]
  | .ldh => [wrD i.r (sext 16 v) 3]
  | .lda => [wrA (low4 i.r) (BitVec.ofNat 40 v) 3]
  | .ldd => [wrD i.r (v % 2 ^ 32 : Nat) 3, wrD (i.r + 1) (v / 2 ^ 32 : Nat) 3]
  | _ => [wrD i.r v 3]

/-- What a scalar store stores. -/
def storeBytes (c : Core) (i : MIns) : List Byte :=
  match i.mn with
  | .sta => toBytes 8 (c.a (low4 i.r)).toNat
  | .std => toBytes 8 ((c.d i.r).toNat + 2 ^ 32 * (c.d (i.r + 1)).toNat)
  | m => toBytes m.size (c.d i.r).toNat

/-- The writes of a load and of its address update; which prevails where ld.a loads its own address register is not stated, so a free
value decides (log entry 24). -/
def loadAndPost (n : Nat) (i : MIns) (loads posts : List Pend) : List Pend :=
  if i.mn = .lda ∧ i.r.toNat = i.an.toNat ∧ n % 2 = 1 then posts ++ loads else loads ++ posts

/-- A scalar access that its checks let pass: effects, or DATA_ERR. -/
def scalarAccess (j : Job) (x : Fin 192) (c : Core) (i : MIns) (u : AddrUse) : Job × Eff :=
  let a := u.addr.toNat
  if i.mn.store then
    let j := j.coreWrite x 0 a (storeBytes c i)
    (j, if j.bus.isSome then { exc := [⟨0x08, 2, u.addr, 0⟩] } else u.post i.an)
  else
    let q := j.coreRead x 0 a i.mn.size
    (q.1, if q.1.bus.isSome then { exc := [⟨0x08, 2, u.addr, 0⟩] }
      else let e := u.post i.an; { e with writes := loadAndPost (q.1.s.free 1) i (loadWrites i q.2) e.writes })

/-! Vector accesses -/

/-- The register bytes a vector access moves: first byte, count, bytes of a beat. -/
def MMn.span : MMn → Nat × Nat × Nat
  | .vlds | .vsts => (0, 16, 16)
  | .vldl | .vstl => (0, 128, 32)
  | .vldlh | .vstlh => (0, 64, 16)
  | _ => (64, 64, 16)

/-- A vector access under way: pieces loaded, by register byte, and the failure: element, exception, beat. -/
structure VRun where
  job : Job
  loaded : List (Nat × List Byte) := []
  fault : Option (Nat × Exc × Nat) := none

/-- The target of the address map, without the place in it. -/
def Target.unit : Target → Target
  | .block b _ => .block b 0
  | t => t

/-- The requests of n bytes at an address: divided where the target changes (R99). -/
def requests (a n : Nat) : List (Nat × Nat) :=
  match ((List.range n).drop 1).find? fun k => (targetOf (a + k)).unit ≠ (targetOf a).unit with
  | some k => [(a, k), (a + k, n - k)]
  | none => [(a, n)]

/-- A request has completed as a bus error, or a byte of the core's own tile is in error: the first byte in question (R100). -/
def failedByte (s : State) (x : Fin 192) (a n : Nat) : Nat :=
  if targetOf a = .tile x.val then
    match (List.range n).find? fun i => s.tileSyn (a + i) ≠ 0 with
    | some i => a + i
    | none => a
  else a

/-- A vector access of core x: register image, element bytes, register byte and address where the access begins, register byte where
it starts. -/
structure VAccess where
  x : Fin 192
  store : Bool
  image : Nat
  eb : Nat
  first : Nat
  count : Nat
  bb : Nat
  addr : Nat
  start : Nat
  resume : Bool

/-- Address of a register byte. -/
def VAccess.at (v : VAccess) (k : Nat) : Nat := (v.addr + (k - v.first)) % 2 ^ 40

/-- The element that holds a register byte fails. -/
def VAccess.fail (v : VAccess) (code k beat : Nat) : Nat × Exc × Nat :=
  let e := k / v.eb
  (e, ⟨code, 2, BitVec.ofNat 40 (v.at (max (e * v.eb) v.first)), 0⟩, beat)

/-- One request of a beat, for the register bytes below `hi`. -/
def VAccess.request (v : VAccess) (lo hi b : Nat) (r : VRun) (q : Nat × Nat) : VRun :=
  let k := lo + (q.1 - v.at lo)
  if r.fault.isSome ∨ !r.job.live ∨ hi ≤ lo then r
  else if v.store then
    let j := r.job.coreWrite v.x b q.1 (toBytes q.2 (v.image / 2 ^ (8 * k)))
    { r with job := j, fault := if j.bus.isSome then some (v.fail 0x08 k b) else none }
  else
    let s0 := r.job.s
    let d := r.job.coreRead v.x b q.1 q.2
    if d.1.bus.isSome then
      let f := v.fail 0x08 (k + (failedByte s0 v.x q.1 q.2 - q.1)) b
      let done := f.1 * v.eb
      { r with
        job := d.1, fault := some f
        loaded := r.loaded ++ if k < done then [(k, s0.bytes q.1 (done - k))] else [] }
    else { r with job := d.1, loaded := r.loaded ++ [(k, d.2)] }

/-- One beat: every element is checked, then its requests are made (R98 to R100); `trap`: CIRC_OUT is due in the first beat (R97).
Where an element of a later beat, or of a resumption, fails its check, the elements below it are carried out (R102, R103; log
entry 23). -/
def VAccess.beat (v : VAccess) (c : Core) (trap : Option Exc) (r : VRun) (b : Nat) : VRun :=
  let lo := max v.start (v.first + b * v.bb)
  let hi := v.first + (b + 1) * v.bb
  if r.fault.isSome ∨ !r.job.live then r
  else
    let send (r : VRun) (hi : Nat) : VRun := (requests (v.at lo) (hi - lo)).foldl (v.request lo hi b) r
    match ((List.range hi).drop lo).find? (fun k => !c.dataOk v.store (v.at k) 1), trap, b with
    | some k, none, _ =>
      let r := if b = 0 ∧ v.resume = false then r else send r (max lo (k / v.eb * v.eb))
      if r.fault.isSome ∨ !r.job.live then r else { r with fault := some (v.fail 0x07 k b) }
    | some k, some _, _ => { r with fault := some (v.fail 0x07 k b) }
    | none, some t, 0 => { r with fault := some (lo / v.eb, t, 0) }
    | none, _, _ => send r hi

/-- Pieces below the failing element are loaded: an element that spans a division completes only with both requests (R99, R102). -/
def VRun.pieces (r : VRun) (eb : Nat) : List (Nat × List Byte) :=
  match r.fault with
  | none => r.loaded
  | some f => r.loaded.map fun p => (p.1, p.2.take (f.1 * eb - p.1))

/-- The access as its instruction, registers and starting element give it. -/
def vAccess (x : Fin 192) (c : Core) (i : MIns) (u : AddrUse) (elem : Option Nat) : VAccess :=
  let q := i.mn.span
  { x := x, store := i.mn.store, eb := i.ebytes, first := q.1, count := q.2.1, bb := q.2.2, addr := u.addr.toNat
    start := max q.1 (elem.getD 0 * i.ebytes)
    resume := elem.isSome
    image := if i.mn.long then c.seen (lvReg i.r) 0 false else c.seen (svReg i.r) 0 false }

/-- The access runs its beats. -/
def VAccess.run (v : VAccess) (c : Core) (trap : Option Exc) (j : Job) : VRun :=
  (List.range (v.count / v.bb)).foldl (v.beat c trap) { job := j }

/-- Writes of the register of a load. -/
def vLoadWrites (i : MIns) (l : List (Nat × List Byte)) : List Pend :=
  l.map fun p => wr (if i.mn.long then lvReg i.r else svReg i.r) (8 * p.1) (8 * p.2.length) (ofBytes p.2) 3

/-- Some beat has bytes in two lines of 64 (R95). -/
def VAccess.crosses (v : VAccess) : Bool :=
  (List.range (v.count / v.bb)).any fun b => decide ((v.addr + b * v.bb) / 64 ≠ (v.addr + (b + 1) * v.bb - 1) / 64)

end Sys2Proof.Machine
end

