-- ==== Sys2Proof/Machine/TarnIssue.lean ====
section
/-! DEFINITION. The issue of a bundle by a core: fetch, legality, slots, exceptions, cpx and its answer, requests (03_tarn_scalar.md
R57, R67, R71, R72, R82 to R90; 04_tarn_vector.md R101 to R104; 05_command_queue.md R114 to R122). The bundle is the command's (log
entry 6); what stands in memory beyond it decides the placement rules. -/

namespace Sys2Proof.Machine

/-! Requests (R87, R88) -/

/-- The asynchronous requests of a core. -/
inductive CoreReq | halt | kill | switch | attn
  deriving DecidableEq, Repr

/-- The core stands at an acceptance point (R87, R88). -/
def Core.accepts (c : Core) : Bool :=
  decide (c.run = .running) && c.wait.isNone && c.delay.isNone && !c.repOn && !c.rfeHold

/-- The pending request the core takes now: HALT, KILL, SWITCH, ATTN in this order; a core stopped by a double fault takes KILL or
SWITCH at once (R88, R147). -/
def Core.takes (c : Core) : Option CoreReq :=
  let exl := bit c.fg.status 2
  let dead := decide (c.run = .faulted)
  if c.haltReq && c.accepts then some .halt
  else if c.killReq && (c.accepts || dead) then some .kill
  else if c.switchReq && ((c.accepts && !exl) || dead) then some .switch
  else if c.attnReq && c.accepts && !exl && bit c.fg.status 1 then some .attn
  else none

/-! Exceptions (R82 to R86, R89) -/

/-- Exception entry, or a double fault (R83, R86): `async` for ATTN, `part` for a long-vector access that failed in a later beat. -/
def State.enterExc (s : State) (x : Fin 192) (e : Exc) (async part : Bool) : State :=
  let c := s.cores[x].drain
  let st := statusView s.compat c.fg.status
  if !async && bit st 2 then
    (s.modCore x fun _ => { c with run := .faulted, switchReq := c.switchReq || c.fgT.isSome }).raise x.val
  else
    let old := if part then setBit st 4 true else st
    let now := setFld (setFld (setFld (setBit c.fg.status 0 true) 2 1 2) 4 4 0) 7 5 0
    s.modCore x fun _ => { c with
      estatus := old &&& 0xFF, epc := c.fg.pc
      cause := BitVec.ofNat 32 (e.code + 256 * e.slot + 1024 * async.toNat + 65536 * e.sub)
      eaddr := e.eaddr
      etarget := match c.delay with
        | some d => d.target
        | none => c.etarget
      fg := { c.fg with status := now, pc := bundleAddr (c.vbase + BitVec.ofNat 40 (e.code * 0x40)) }
      delay := none, repOn := false, rfeHold := false, wait := none }

/-- The exception reported of those raised: the highest priority, then the slot order (R84). -/
def worst (l : List Exc) : Option Exc :=
  l.foldl (fun b e => match b with
    | none => some e
    | some d => if excRank e.code < excRank d.code ∨ (excRank e.code = excRank d.code ∧ e.slot < d.slot) then some e else some d) none

/-- A bundle that raised exceptions takes no effect; a trapping circular update leaves its sticky flag (R73, R82). -/
def State.bundleExc (s : State) (x : Fin 192) (e : Exc) : State :=
  let s := s.modCore x fun c =>
    let k := c.tick
    if e.code = 0x09 then { k with fg := { k.fg with status := setBit k.fg.status 8 true } } else k
  s.enterExc x e false false

/-! Legality (R57, R67, R71, R72) -/

/-- A slot word of a cached line, at an address. -/
def CacheLine.word (l : CacheLine) (a : Addr) (k : Nat) : Word := BitVec.ofNat 32 (ofBytes ((l.data.drop (a.toNat % 64 + 4 * k)).take 4))

/-- A slot word of the bundle at an address: of the line that core x's cache holds, else of memory. -/
def State.slotWord (s : State) (x : Fin 192) (a : Addr) (k : Nat) : Word :=
  match s.lineOf (.core x) (a.toNat / 64) with
  | some l => l.word a k
  | none => BitVec.ofNat 32 (s.leAt (a.toNat + 4 * k) 4)

/-- The bundle at an address holds, in S0 or S1, an instruction of a kind. -/
def State.holds (s : State) (x : Fin 192) (a : Addr) (p : SMn → Bool) : Bool :=
  p (decodeS (s.slotWord x a 0)).mn || p (decodeS (s.slotWord x a 1)).mn

/-- An address is the end bundle of an active level. -/
def Bank.ends (b : Bank) (a : Addr) : Bool := (List.range 3).any fun n => b.active n && decide (v3 b.le n = a)

/-- Not permitted in delay slots: control transfers, loop, rep (R67). -/
def SMn.noDelay (m : SMn) : Bool := m.transfer || decide (m = .loop) || decide (m = .rep)

/-- A loop of a level breaks the nesting of R71. -/
def Bank.misnested (b : Bank) (level : Nat) (fin : Nat) : Bool :=
  let lo := (bundlesOn b.pc 1).toNat
  let hi := (bundlesOn b.pc fin).toNat
  (List.range 3).any fun m => decide (m ≠ level) && b.active m &&
    let l := (v3 b.ls m).toNat
    let h := (v3 b.le m).toNat
    !(if m < level then decide (l ≤ lo ∧ hi ≤ h) else decide (lo ≤ l ∧ h ≤ hi))

/-- The bundle breaks a placement rule (R67, R71, R72). A bundle in a delay slot, or under rep, that holds what R67 or R72 forbids there is
itself illegal where the transfer's bundle saw something else in memory (log entry 6). -/
def State.misplaced (s : State) (x : Fin 192) (c : Core) (b : Bundle) : Bool :=
  let pc := c.fg.pc
  let one := bundlesOn pc 1
  let two := bundlesOn pc 2
  ((c.delay.isSome || c.repOn) && b.s0.mn.noDelay) ||
  (if b.s0.mn.transfer then
    c.fg.ends pc || c.fg.ends one || c.fg.ends two || s.holds x one SMn.noDelay || s.holds x two SMn.noDelay
  else if b.s0.mn = .rep then
    let q := Bank.loopEnd c.fg one 3
    q.1.ends q.2 || s.holds x q.2 SMn.noDelay || decide ((decodeM (s.slotWord x q.2 2)).mn = .cpx)
  else if b.s0.mn = .loop then c.fg.misnested b.s0.cond.toNat b.s0.fin.toNat
  else c.repOn && decide (b.m.mn = .cpx))

/-! Completion -/

/-- Core cycles of a bundle (R94, R95). -/
def bundleCycles (b : Bundle) (crosses : Bool) : Nat := (if b.m.mn.long || b.v.mn.long then 4 else 1) + crosses.toNat

/-- A bundle completes: its effects, then the next bundle; `cycles` core cycles passed. -/
def State.bundleDone (s : State) (x : Fin 192) (es : List Eff) (cycles : Nat) : State :=
  let extra := s.free 0
  let now := s.replica (.ridge (coreRidge x))
  let flow := (es.head?.map (·.flow)).getD .go
  let draws := es.any fun e => e.looks.contains 0x22
  let s := s.modCore x fun c =>
    let k := c.tick
    let d := k.apply now extra es
    let d := d.advance flow k.mpu k.estatus k.epc k.etarget
    { d with cycle := d.cycle + BitVec.ofNat 64 cycles }
  if draws then s.draw else s

/-- What an instruction of an S slot sees. -/
def State.env (s : State) (x : Fin 192) (slot : Nat) (imm : Int) : Env :=
  { x := x, slot := slot, pc := s.cores[x].fg.pc, compat := s.compat, now := s.replica (.ridge (coreRidge x)), extra := s.free 0, imm := imm }

/-- The effects of the S and V slots of a bundle. -/
def State.slotEffs (s : State) (x : Fin 192) (k : Core) (b : Bundle) : List Eff :=
  [scalar k (s.env x 0 (b.imm true)) b.s0 (decide (b.s1.mn = .lit)), scalar k (s.env x 1 (b.imm false)) b.s1 false, vector k b.v]

/-- The exceptions of effects. -/
def excs (es : List Eff) : List Exc := es.flatMap (·.exc)

/-! The M slot -/

/-- A bundle whose M slot holds no access completes, or raises the exceptions of its other slots. -/
def State.issuePlain (s : State) (x : Fin 192) (b : Bundle) (es : List Eff) : State :=
  match worst (excs es) with
  | some e => s.bundleExc x e
  | none => s.bundleDone x es (bundleCycles b false)

/-- A bundle with a scalar access. -/
def State.issueScalar (s : State) (x : Fin 192) (k : Core) (b : Bundle) (es : List Eff) : State :=
  let u := k.address s.compat b.m
  match worst (excs es ++ scalarChecks k b.m u) with
  | some e => s.bundleExc x e
  | none =>
    let q := scalarAccess { s := s } x k b.m u
    q.1.settle s (.core x) fun j =>
      match worst q.2.exc with
      | some e => j.s.bundleExc x e
      | none => j.s.bundleDone x (es ++ [q.2]) (bundleCycles b false)

/-- CIRC_OUT is due with the first beat of a vector access (R97). -/
def circTrap (c : Core) (u : AddrUse) : Option Exc := if u.out && bit c.ctl 0 then some ⟨0x09, 2, u.ptr, 0⟩ else none

/-- tc.vxi set. -/
def Core.setVxi (c : Core) (e : Nat) : Core := { c with fg := { c.fg with vxi := BitVec.ofNat 7 e } }

/-- The checks of a vector access's first beat, when another slot has raised an exception: nothing is sent (R84). -/
def firstChecks (v : VAccess) (c : Core) (trap : Option Exc) : List Exc :=
  match (List.range v.bb).find? fun i => !c.dataOk v.store (v.at (v.first + i)) 1 with
  | some i => [(v.fail 0x07 (v.first + i) 0).2.1]
  | none => trap.toList

/-- A long-vector access failed in a later beat: the other slots have completed, elements below the failing one too, but the address
register is not updated (R82, R102). What S0 asked of program flow, and the address and update of this first execution, wait for the
resumption (log entry 22). -/
def State.lateFault (s : State) (x : Fin 192) (es : List Eff) (u : AddrUse) (f : Nat × Exc) (cycles : Nat) : State :=
  let extra := s.free 0
  let now := s.replica (.ridge (coreRidge x))
  let draws := es.any fun e => e.looks.contains 0x22
  let s := s.modCore x fun c =>
    let k := c.tick
    let d := k.apply now extra es
    let q := d.leave ((es.head?.map (·.flow)).getD .go) k.estatus k.epc k.etarget
    let d := q.1.setVxi f.1
    { d with
      cycle := d.cycle + BitVec.ofNat 64 cycles
      fg := { d.fg with late := some ⟨d.fg.pc, u.addr, u.ptr, u.update, u.out, q.2⟩ } }
  (if draws then s.draw else s).enterExc x f.2 false true

/-- A bundle with a vector access. -/
def State.issueVector (s : State) (x : Fin 192) (k : Core) (b : Bundle) (es : List Eff) : State :=
  let u := k.address s.compat b.m
  let v := vAccess x k b.m u none
  let trap := circTrap k u
  let first := if b.m.mn.long then fun (c : Core) (e : Exc) => if e.slot = 2 ∧ e.code ≠ 0x09 then c.setVxi 0 else c else fun c _ => c
  let fail (s : State) (e : Exc) : State := (s.modCore x fun c => first c e).bundleExc x e
  if (excs es).isEmpty = false then
    match worst (excs es ++ firstChecks v k trap) with
    | some e => fail s e
    | none => s
  else
    let r := v.run k trap { s := s }
    let n := bundleCycles b v.crosses
    let loads : Eff := if b.m.mn.store then {} else { writes := vLoadWrites b.m (r.pieces v.eb) }
    r.job.settle s (.core x) fun j =>
      match r.fault with
      | none =>
        let s := j.s.bundleDone x (es ++ [loads, u.post b.m.an]) n
        if b.m.mn.long then s.modCore x (·.setVxi 0) else s
      | some f =>
        if f.2.2 = 0 then fail j.s f.2.1 else j.s.lateFault x (es ++ [loads]) u (f.1, f.2.1) n

/-- The access that a resumption carries on: the address and update of the first execution of the bundle (R103); where the core does not
hold them, those of the registers as they stand (log entry 22). -/
def Core.lateUse (k : Core) (compat : Bool) (i : MIns) : AddrUse :=
  match k.fg.late.filter fun l => decide (l.pc = k.fg.pc) with
  | some l => ⟨l.addr, l.ptr, l.update, l.out⟩
  | none => k.address compat i

/-- The resumed vector slot of the bundle at tc.epc (R103). -/
def State.resumeVector (s : State) (x : Fin 192) (k : Core) (b : Bundle) : State :=
  if b.m.legal = false ∨ b.m.mn.long = false then s.bundleExc x ⟨0x03, 2, k.fg.pc, 0⟩
  else
    let u := k.lateUse s.compat b.m
    let s0 : Eff := match k.fg.lateAfter with
      | some a => { flow := .after a }
      | none => {}
    let v := vAccess x k b.m u (some k.fg.vxi.toNat)
    let r := v.run k (circTrap k u) { s := s }
    let loads : Eff := if b.m.mn.store then {} else { writes := vLoadWrites b.m (r.pieces v.eb) }
    r.job.settle s (.core x) fun j =>
      match r.fault with
      | none =>
        ((j.s.modCore x fun c => { c with fg := { c.fg with status := setBit c.fg.status 4 false, late := none } }).bundleDone x
          [s0, loads, u.post b.m.an] (4 + v.crosses.toNat)).modCore x (·.setVxi 0)
      | some f => if f.2.1.code = 0x09 then j.s.bundleExc x f.2.1 else j.s.lateFault x [s0, loads] u (f.1, f.2.1) (4 + v.crosses.toNat)

/-! cpx (R114 to R118) -/

/-- The core's own tile memory or its ridge's pool holds an address. -/
def nearPtr (x : Fin 192) (a : Nat) : Bool := decide (targetOf a = .tile x.val) || decide (targetOf a = .pool (x.val / 8))

/-- The first check of R116 that fails. -/
def State.cpxCheck (s : State) (x : Fin 192) (k : Core) (i : MIns) : Option Exc :=
  let ptr := k.a i.an
  let cls := i.func.toNat / 32
  let refused (code : Nat) : Option Exc := some ⟨0x05, 2, ptr, code⟩
  if cls = 3 ∨ cls = 6 then refused 2
  else if cls = 7 then refused 3
  else if s.regBit (cqA x (8 + i.tag.toNat / 32 * 4)) (i.tag.toNat % 32) then refused 1
  else if nearPtr x ptr.toNat = false then refused 4
  else if ptr.toNat % 64 ≠ 0 then some ⟨0x06, 2, ptr, 0⟩
  else if k.dataOk false ptr.toNat 64 = false then some ⟨0x07, 2, ptr, 0⟩
  else none

/-- A refusal is counted and recorded (R118, R127). -/
def State.cpxRefused (s : State) (x : Fin 192) (code : Nat) (func : BitVec 8) (tag : BitVec 6) (squashed : Bool) : State :=
  (s.countUp (cqA x 0x24)).setReg (cqA x 0x2C)
    (BitVec.ofNat 32 (code + 256 * func.toNat + 65536 * tag.toNat + 2 ^ 22 * squashed.toNat))

/-- A check that ends a cpx: a local refusal is recorded. -/
def State.cpxFailed (s : State) (x : Fin 192) (i : MIns) (e : Exc) (squashed : Bool) : State :=
  if e.code = 0x05 then s.cpxRefused x e.sub i.func i.tag squashed else s

/-- The command is sent; the core awaits the answer (R114, R117). -/
def State.cpxSend (s : State) (x : Fin 192) (k : Core) (b : Bundle) (squashed annulled : Bool) : State :=
  let i := b.m
  match engOfClass x (i.func.toNat / 32) with
  | none => s
  | some e =>
    let t := k.fgT.getD 0
    let c : EngCmd := { core := x, tag := i.tag, tcb := t, gen := BitVec.ofNat 4 (fld (s.tcb (coreRange x) t.toNat 44) 27 24)
                        ptr := (k.a i.an).toNat, flag := i.flag, func := i.func, committed := false }
    let s := { s with engSent := s.engSent ++ [EngSent.mk e c (squashed || annulled)] }
    s.modCore x fun d => { d with wait := some ⟨b, squashed, annulled, i.tag, i.flag, i.func, k.a i.an⟩ }

/-- A bundle with a cpx: exceptions that rank above CPX_REFUSED stop it before its checks; then its checks; then it is sent. -/
def State.issueCpx (s : State) (x : Fin 192) (k : Core) (b : Bundle) (es : List Eff) : State :=
  match worst ((excs es).filter fun e => decide (excRank e.code < 6)) with
  | some e => s.bundleExc x e
  | none =>
    match s.cpxCheck x k b.m with
    | some e =>
      match worst (excs es ++ [e]) with
      | some w => (s.cpxFailed x b.m e false).bundleExc x w
      | none => s
    | none => s.cpxSend x k b false false

/-- An annulled delay slot: no effect, but an annulled cpx is checked and sent (R66, R122). -/
def State.issueAnnulled (s : State) (x : Fin 192) (b : Bundle) : State :=
  let k := s.cores[x].tick
  if b.badSlot.isNone && decide (b.m.mn = .cpx) then
    match s.cpxCheck x k b.m with
    | some e => (s.cpxFailed x b.m e true).bundleDone x [] 1
    | none => s.cpxSend x k b true true
  else s.bundleDone x [] 1

/-! Issue -/

/-- An S-slot instruction with the fields it does not use at 0 (log entry 21). -/
def SIns.norm (i : SIns) : SIns :=
  let i := if i.mn = .ext ∨ i.mn = .exts then { i with rs2 := 0 } else { i with sh := 0 }
  match i.mn with
  | .abs | .exp | .expa | .norm | .lda | .movda | .setcb | .setcl | .rdcb | .rdcl | .movad => { i with rs2 := 0 }
  | .jr | .callr => { i with rd := 0, rs2 := 0 }
  | .movi | .movhi | .movia => { i with rs1 := 0 }
  | .trap => { i with rd := 0, rs1 := 0 }
  | _ => i

/-- An M-slot instruction with the fields it does not use at 0, and an element size where it is a vector access. -/
def MIns.norm (i : MIns) : MIns :=
  if i.mn = .nop ∨ i.mn = .fence then { mn := i.mn } else if i.mn.vector then i else { i with ebytes := 1 }

/-- A V-slot instruction with the registers it does not use at 0: a shift uses vb where R is 1 (R105). -/
def VIns.norm (i : VIns) : VIns :=
  let q := i.mn.shape
  { i with vd := if q.vd = .none then 0 else i.vd, va := if q.va = .none then 0 else i.va
           vb := if q.vb = .none ∧ i.r = false then 0 else i.vb }

/-- A bundle without the bits that select nothing. -/
def Bundle.norm (b : Bundle) : Bundle := ⟨b.s0.norm, b.s1.norm, b.m.norm, b.v.norm⟩

/-- The bundle is the one that the line of its address holds, where the core's cache holds that line (log entry 6). -/
def State.fetches (s : State) (x : Fin 192) (a : Addr) (b : Bundle) : Bool :=
  match s.lineOf (.core x) (a.toNat / 64) with
  | some l => decide (b.norm = (Bundle.mk (decodeS (l.word a 0)) (decodeS (l.word a 1)) (decodeM (l.word a 2)) (decodeV (l.word a 3))).norm)
  | none => true

/-- The core issues the bundle next: it runs a thread, awaits no answer, takes no request first, and its cache holds no bad line, and no other
bundle, at that address. -/
def State.mayIssue (s : State) (x : Fin 192) (b : Bundle) : Bool :=
  let c := s.cores[x]
  decide (c.run = .running) && c.wait.isNone && c.takes.isNone && s.ridgeOn (x.val / 8) &&
    !s.lineBad (.core x) (c.fg.pc.toNat / 64) && s.fetches x c.fg.pc b

/-- A bundle is issued (R57, R64, R82). -/
def State.issue (s : State) (x : Fin 192) (b : Bundle) : State :=
  let c := s.cores[x]
  let pc := c.fg.pc
  if s.mayIssue x b = false then s
  else if (c.delay.any (·.annul)) = true then s.issueAnnulled x b
  else if c.fetchOk = false then s.bundleExc x ⟨0x01, 0, pc, 0⟩
  else if s.lineGone (.core x) (pc.toNat / 64) then (s.lineClear (.core x) (pc.toNat / 64)).bundleExc x ⟨0x02, 0, pc, 0⟩
  else
    let k := c.tick
    if bit c.fg.status 4 then s.resumeVector x k b
    else
      match b.badSlot with
      | some sl => s.bundleExc x ⟨0x03, sl, pc, 0⟩
      | none =>
        if s.misplaced x k b then s.bundleExc x ⟨0x03, 0, pc, 0⟩
        else
          let es := s.slotEffs x k b
          if b.m.mn = .cpx then s.issueCpx x k b es
          else if b.m.mn.vector then s.issueVector x k b es
          else if b.m.mn.access then s.issueScalar x k b es
          else s.issuePlain x b es

end Sys2Proof.Machine

namespace Sys2Proof

open Machine

/-- The bundle with an instruction in S0 or S1. -/
def IssueS.bundle (b : IssueS) (i : SIns) : Bundle :=
  match b.slot with
  | .s0 => { s0 := i, s1 := decodeS b.other, m := decodeM b.m, v := decodeV b.v }
  | .s1 => { s0 := decodeS b.other, s1 := i, m := decodeM b.m, v := decodeV b.v }

/-- The bundle with an instruction in the M slot. -/
def IssueM.bundle (b : IssueM) (i : MIns) : Bundle := { s0 := decodeS b.s0, s1 := decodeS b.s1, m := i, v := decodeV b.v }

/-- The bundle with an instruction in the V slot. -/
def IssueV.bundle (b : IssueV) (i : VIns) : Bundle := { s0 := decodeS b.s0, s1 := decodeS b.s1, m := decodeM b.m, v := i }

end Sys2Proof
end

