-- ==== Sys2Proof/Machine/ControlRows.lean ====
section
/-! DEFINITION. Control instructions, CSR accesses and lit: the issue of the bundle that holds each (03_tarn_scalar.md R57, R60). -/

namespace Sys2Proof.Machine

/-- BCC: branch on a condition of rs with two delay slots, annulled when not taken for the .a form (R60, R66). -/
def execBcc (b : IssueS) (cond : BitVec 4) (rs : BitVec 5) (annul : Bool) (off : BitVec 16) (s : State) : Out :=
  run s fun s => s.issue b.core (b.bundle { mn := .bcc, cond := cond, rs1 := rs, flag := annul, imm := off.setWidth 26 })

/-- CALL: writes the return address to a15 and branches with two delay slots (R60, R66). -/
def execCall (b : IssueS) (off : BitVec 26) (s : State) : Out := run s fun s => s.issue b.core (b.bundle { mn := .call, imm := off })

/-- JR: branches to a[rs1] with bits 3:0 taken as 0, with two delay slots (R60, R66). -/
def execJr (b : IssueS) (rs1 : BitVec 5) (s : State) : Out := run s fun s => s.issue b.core (b.bundle { mn := .jr, rs1 := rs1 })

/-- CALLR: branches to a[rs1] and writes a15 as call does (R60, R66). -/
def execCallr (b : IssueS) (rs1 : BitVec 5) (s : State) : Out := run s fun s => s.issue b.core (b.bundle { mn := .callr, rs1 := rs1 })

/-- RFE: restores tc.status and resumes at tc.epc, with delay-slot or vector-slot resumption (R85). -/
def execRfe (b : IssueS) (s : State) : Out := run s fun s => s.issue b.core (b.bundle { mn := .rfe })

/-- LOOP: starts block repeat level n, setting tc.ls, tc.le and tc.lc, or skips the body for a count of 0 (R69 to R71). -/
def execLoop (b : IssueS) (level : BitVec 2) (src : Bool) (count : BitVec 10) (fin : BitVec 13) (s : State) : Out :=
  run s fun s => s.issue b.core (b.bundle { mn := .loop, cond := level.setWidth 4, flag := src, imm := count.setWidth 26, fin := fin })

/-- REP: executes the next bundle count times, tracking the repetitions in tc.rc (R72). -/
def execRep (b : IssueS) (src : Bool) (imm : BitVec 16) (s : State) : Out :=
  run s fun s => s.issue b.core (b.bundle { mn := .rep, flag := src, imm := imm.setWidth 26 })

/-- TRAP: raises TRAP with SUB = imm[7:0] (R60, R84). -/
def execTrap (b : IssueS) (imm : BitVec 16) (s : State) : Out :=
  run s fun s => s.issue b.core (b.bundle { mn := .trap, imm := imm.setWidth 26 })

/-- BREAK: raises BREAK (R60, R84). -/
def execBrk (b : IssueS) (s : State) : Out := run s fun s => s.issue b.core (b.bundle { mn := .brk })

/-- CSRR: reads a 32-bit CSR into a d register; a read of tc.time_lo or tc.cycle_lo latches the high word (R53, R55). -/
def execCsrr (b : IssueS) (rd : BitVec 5) (csr : BitVec 12) (s : State) : Out :=
  run s fun s => s.issue b.core (b.bundle { mn := .csrr, rd := rd, imm := csr.setWidth 26 })

/-- CSRW: writes a d register to a 32-bit CSR, raising PRIV when unprivileged code may not write it (R53, R54). -/
def execCsrw (b : IssueS) (rs : BitVec 5) (csr : BitVec 12) (s : State) : Out :=
  run s fun s => s.issue b.core (b.bundle { mn := .csrw, rd := rs, imm := csr.setWidth 26 })

/-- CSRRA: reads a 40-bit CSR into an a register (R53). -/
def execCsrra (b : IssueS) (rd : BitVec 5) (csr : BitVec 12) (s : State) : Out :=
  run s fun s => s.issue b.core (b.bundle { mn := .csrra, rd := rd, imm := csr.setWidth 26 })

/-- CSRWA: writes an a register to a 40-bit CSR, with region writes taking effect under R81 (R53, R54). -/
def execCsrwa (b : IssueS) (rs : BitVec 5) (csr : BitVec 12) (s : State) : Out :=
  run s fun s => s.issue b.core (b.bundle { mn := .csrwa, rd := rs, imm := csr.setWidth 26 })

/-- LIT: extends the immediate of the S0 instruction to 42 bits (R57, R58). -/
def execLit (b : IssueS) (imm : BitVec 26) (s : State) : Out := run s fun s => s.issue b.core (b.bundle { mn := .lit, imm := imm })

end Sys2Proof.Machine
end

