-- ==== Sys2Proof/Machine/CoreRows.lean ====
section
/-! DEFINITION. What reaches a core from outside: the answer to a cpx and the requests HALT, KILL, SWITCH and ATTN (05_command_queue.md
R117, R118, R121, R122; 03_tarn_scalar.md R87 to R90). -/

namespace Sys2Proof.Machine

/-- COMMIT or CANCEL is sent; CANCEL frees the tag (R121, R122). -/
def State.cpxEnd (s : State) (x : Fin 192) (e : EngId) (tag : BitVec 6) (cancel : Bool) : State :=
  let s := { s with engMsgs := s.engMsgs ++ [⟨e, x, tag, cancel⟩] }
  if cancel then (s.setRegBit (cqA x (8 + tag.toNat / 32 * 4)) (tag.toNat % 32) false).countUp (cqA x 0x28) else s

/-- ACCEPT reaches the core (R117, R121, R122). -/
def State.cpxAccept (s : State) (x : Fin 192) (w : CpxWait) (e : EngId) : State :=
  let o := w.tag.toNat / 32 * 4
  let i := w.tag.toNat % 32
  let s := ((s.setRegBit (cqA x (8 + o)) i true).setRegBit (cqA x (0x10 + o)) i false).countUp (cqA x 0x20)
  if w.annulled then (s.cpxEnd x e w.tag true).bundleDone x [] 1
  else if w.squashed then s.cpxEnd x e w.tag true
  else
    let es := s.slotEffs x s.cores[x].tick w.bundle
    match worst (excs es) with
    | some f => (s.cpxEnd x e w.tag true).bundleExc x f
    | none => (s.cpxEnd x e w.tag false).bundleDone x es (bundleCycles w.bundle false)

/-- REFUSE reaches the core (R118). -/
def State.cpxRefuse (s : State) (x : Fin 192) (w : CpxWait) (code : Nat) : State :=
  let s := s.cpxRefused x code w.func w.tag (w.squashed || w.annulled)
  if w.annulled then s.bundleDone x [] 1
  else if w.squashed then s
  else
    match worst (excs (s.slotEffs x s.cores[x].tick w.bundle) ++ [⟨0x05, 2, w.ptr, code⟩]) with
    | some f => s.bundleExc x f
    | none => s

/-- CPX_ANSWER: the answer to the cpx that core x awaits reaches it. -/
def execCpxAnswer (x : Fin 192) (s : State) : Out :=
  match s.cores[x].wait, s.replies.find? (fun r => decide (r.core = x)) with
  | some w, some r => run s fun s =>
    let s := { s with replies := s.replies.erase r }
    let s := s.modCore x fun c => { c with wait := none }
    match r.refuse, r.eng with
    | some code, _ => s.cpxRefuse x w code
    | none, some e => s.cpxAccept x w e
    | none, none => s
  | _, _ => .next s

/-- HALT_REQUEST: the debug port's HALT, taken at the next acceptance point: the core stops with its state intact (R87, R90). -/
def execHaltRequest (x : Fin 192) (s : State) : Out :=
  act s (s.cores[x].run ≠ .halted) fun s =>
    let s := s.modCore x fun c => { c with haltReq := true }
    if s.cores[x].takes = some .halt then (s.modCore x fun c => { c.drain with run := .halted, haltReq := false }).raise x.val else s

/-- DEBUG_RESUME: the debug port's command resumes a halted core (R90). -/
def execDebugResume (x : Fin 192) (s : State) : Out :=
  act s (s.cores[x].run = .halted) fun s => s.modCore x fun c => { c with run := .running }

/-- KILL_REQUEST: a pending KILL is taken: the foreground thread is abandoned, and the shadow bank's thread runs, or the core stops
(R87, R88, R90). -/
def execKillRequest (x : Fin 192) (s : State) : Out :=
  act s (s.cores[x].takes = some .kill) fun s => (s.modCore x fun c => { c with discard := true }).switchBanks x

/-- SWITCH_REQUEST: a pending SWITCH is taken: the banks exchange roles (R87 to R89). -/
def execSwitchRequest (x : Fin 192) (s : State) : Out := act s (s.cores[x].takes = some .switch) fun s => s.switchBanks x

/-- ATTN_REQUEST: a pending ATTN is taken as an exception with CODE 0x10 and tc.cause.ASYNC (R87 to R89). -/
def execAttnRequest (x : Fin 192) (s : State) : Out :=
  act s (s.cores[x].takes = some .attn) fun s =>
    (s.modCore x fun c => { c with attnReq := false }).enterExc x ⟨0x10, 0, 0, 0⟩ true false

end Sys2Proof.Machine
end

