-- ==== Sys2Proof/Machine/ChannelCode.lean ====
section
/-! DEFINITION. Channel coding that the engines run (07_ridge_engines.md R170, R172, R175): scrambling sequence, modulation mapping,
LDPC, turbo and polar encoding and polar rate matching, as the clauses that the spec cites define them. The tables that the spec does
not print are constants of Config (log entry 20). -/

namespace Sys2Proof.Machine

/-- A bit of an array; false outside it. -/
def bitOf (x : Array Bool) (i : Nat) : Bool := (x[i]?).getD false

/-- Sum of bits modulo 2. -/
def parityOf (l : List Bool) : Bool := l.foldl xor false

/-! Scrambling and modulation (R172) -/

/-- One step of both 31-bit registers of the Gold sequence. -/
def goldStep (x : Nat × Nat) : Nat × Nat :=
  let f (v : Nat) (taps : List Nat) : Nat := v / 2 + 2 ^ 30 * (parityOf (taps.map v.testBit)).toNat
  (f x.1 [0, 3], f x.2 [0, 1, 2, 3])

/-- The registers after n steps. -/
def goldSkip (x : Nat × Nat) (n : Nat) : Nat × Nat := (List.range n).foldl (fun v _ => goldStep v) x

/-- n bits of the Gold sequence seeded with c_init, from its bit o on (TS 38.211 clause 5.2.1; TS 36.211 clause 7.2). -/
def goldBits (cinit o n : Nat) : List Bool :=
  ((List.range n).foldl (fun (st : List Bool × Nat × Nat) _ =>
    ((st.2.1.testBit 0 != st.2.2.testBit 0) :: st.1, goldStep st.2)) ([], goldSkip (1, cinit % 2 ^ 31) (1600 + o))).1.reverse

/-- ±1 of a bit. -/
def signOf (b : Bool) : Int := if b then -1 else 1

/-- The level of one axis from its bits, most significant first. -/
def axisLevel : List Bool → Int
  | [] => 0
  | [b] => signOf b
  | b :: l => signOf b * (2 ^ l.length - axisLevel l)

/-- The mean square of the constellation of QM bits, both axes. -/
def constellationPower (qm : Nat) : Nat :=
  match qm with
  | 4 => 10
  | 6 => 42
  | 8 => 170
  | _ => 2

/-- amp × v / √n, truncated toward minus infinity. -/
def overRoot (amp : Nat) (v : Int) (n : Nat) : Int :=
  let q := (amp * v.natAbs) ^ 2
  if 0 ≤ v then (Nat.sqrt (q / n) : Int)
  else
    let r := Nat.sqrt (q / n)
    Int.neg (if r * r * n = q then r else r + 1 : Nat)

/-- Modulation symbol i of its QM bits, scaled by AMP (TS 38.211 clause 5.1; TS 36.211 clause 7.1). -/
def modSymbol (amp i : Nat) (l : List Bool) : Cplx :=
  let qm := l.length
  let ax (k : Nat) : Int := axisLevel ((l.zipIdx.filter fun p => decide (p.2 % 2 = k)).map (·.1))
  let z : Cplx := if qm = 1 then
      let d := ax 0
      if Config.halfPiBpsk && decide (i % 2 = 1) then (-d, d) else (d, d)
    else (ax 0, ax 1)
  let n := constellationPower qm
  (satS 16 (overRoot amp z.1 n), satS 16 (overRoot amp z.2 n))

/-! LDPC (TS 38.212 clause 5.3.2) -/

/-- Systematic columns and rows of a base graph. -/
def ldpcSize (bg : Nat) : Nat × Nat := if bg = 1 then (22, 46) else (10, 42)

/-- Set index of a lifting size. -/
def liftIndex (z : Nat) : Nat :=
  ([2, 3, 5, 7, 9, 11, 13, 15].findIdx? fun a => (List.range 8).any fun j => decide (z = a * 2 ^ j)).getD 0

/-- The z checks of a row over the first `cols` columns of a word. -/
def ldpcRow (bg z row cols : Nat) (x : Array Bool) : List Bool :=
  (List.range z).map fun r => parityOf ((List.range cols).map fun c =>
    match Config.ldpcShift bg (liftIndex z) row c with
    | some v => bitOf x (c * z + (r + v) % z)
    | none => false)

/-- The first parity block: the sum of the four core rows, turned back by the one shift that does not cancel. -/
def ldpcFirst (bg z : Nat) (x : Array Bool) : List Bool :=
  let kb := (ldpcSize bg).1
  let s := ((List.range 4).map fun r => (ldpcRow bg z r kb x).toArray)
  let vs := (List.range 4).filterMap fun r => (Config.ldpcShift bg (liftIndex z) r kb).map (· % z)
  let v := (vs.find? fun u => decide ((vs.filter (· = u)).length % 2 = 1)).getD 0
  (List.range z).map fun i => parityOf (s.map fun a => bitOf a ((i + z - v) % z))

/-- The codeword of an information word: parity blocks in order, each from the row whose last block it is. -/
def ldpcWord (bg z : Nat) (info : List Bool) : Array Bool :=
  let x := info.toArray
  let x := x ++ (ldpcFirst bg z x).toArray
  ((List.range (ldpcSize bg).2).filter (· ≠ 3)).foldl (fun x r => x ++ (ldpcRow bg z r (x.size / z) x).toArray) x

/-- Every check of the first m rows is satisfied. -/
def ldpcChecks (bg z m : Nat) (x : Array Bool) : Bool :=
  (List.range m).all fun r => (ldpcRow bg z r ((ldpcSize bg).1 + m) x).all fun b => !b

/-! Turbo (TS 36.212 clause 5.1.3.2) -/

/-- One constituent encoder: parity bits of the input, then its three termination bits and their parities. -/
def rscEncode (c : List Bool) : List Bool × List Bool × List Bool :=
  let step (st : List Bool × Bool × Bool × Bool) (b : Bool) : List Bool × Bool × Bool × Bool :=
    let a := xor b (xor st.2.2.1 st.2.2.2)
    (xor a (xor st.2.1 st.2.2.2) :: st.1, a, st.2.1, st.2.2.1)
  let r := c.foldl step ([], false, false, false)
  let t := (List.range 3).foldl (fun (q : List Bool × List Bool × Bool × Bool × Bool) _ =>
    let b := xor q.2.2.2.1 q.2.2.2.2
    let n := step ([], q.2.2) b
    (q.1 ++ [b], q.2.1 ++ n.1, n.2)) ([], [], r.2)
  (r.1.reverse, t.1, t.2.1)

/-- The three streams of K + 4 bits. -/
def turboStreams (c : List Bool) : Array (Array Bool) :=
  let k := c.length
  let a := c.toArray
  let f := Config.qpp k
  let (z, x1, z1) := rscEncode c
  let (z', x2, z2) := rscEncode ((List.range k).map fun i => bitOf a ((f.1 * i + f.2 * i * i) % k))
  let at_ (l : List Bool) (i : Nat) : Bool := l.getD i false
  #[(c ++ [at_ x1 0, at_ z1 1, at_ x2 0, at_ z2 1]).toArray, (z ++ [at_ z1 0, at_ x1 2, at_ z2 0, at_ x2 2]).toArray,
    (z' ++ [at_ x1 1, at_ z1 2, at_ x2 1, at_ z2 2]).toArray]

/-! Polar (TS 38.212 clauses 5.3.1, 5.4.1) -/

/-- Parameters of one polar code word: K bits with CRC, E bits, flags and limits of the command. -/
structure PolarCode where
  k : Nat
  e : Nat
  il : Bool
  bil : Bool
  npc : Nat
  wm : Nat
  nmax : Nat

/-- log2 of the mother code's length. -/
def PolarCode.n (p : PolarCode) : Nat :=
  let lg (x : Nat) : Nat := ((List.range 15).find? fun i => decide (x ≤ 2 ^ i)).getD 14
  let n1 := if 8 * p.e ≤ 9 * 2 ^ (lg p.e - 1) ∧ 16 * p.k < 9 * p.e then lg p.e - 1 else lg p.e
  max 5 (min p.nmax (min n1 (lg (8 * p.k))))

/-- Sub-block interleaver of clause 5.4.1.1. -/
def polarBlocks : List Nat :=
  [0, 1, 2, 4, 3, 5, 6, 7, 8, 16, 9, 17, 10, 18, 11, 19, 12, 20, 13, 21, 14, 22, 15, 23, 24, 25, 26, 28, 27, 29, 30, 31]

/-- J(i) for a mother code of 2^n bits. -/
def polarJ (n i : Nat) : Nat := polarBlocks.getD (32 * i / 2 ^ n) 0 * (2 ^ n / 32) + i % (2 ^ n / 32)

/-- Puncturing, not shortening. -/
def PolarCode.punctured (p : PolarCode) : Bool := decide (16 * p.k ≤ 7 * p.e)

/-- Positions that rate matching freezes. -/
def PolarCode.dropped (p : PolarCode) : List Nat :=
  let n := 2 ^ p.n
  if n ≤ p.e then []
  else if p.punctured then
    ((List.range (n - p.e)).map (polarJ p.n)) ++
      List.range (if 3 * n ≤ 4 * p.e then ceilDiv (3 * n - 2 * p.e) 4 else ceilDiv (9 * n - 4 * p.e) 16)
  else ((List.range n).drop p.e).map (polarJ p.n)

/-- Positions that carry bits, most reliable first. -/
def PolarCode.carriers (p : PolarCode) : List Nat :=
  let q := (((List.range 1024).map Config.polarSeq).filter fun i => decide (i < 2 ^ p.n ∧ i ∉ p.dropped)).reverse
  q.take (p.k + p.npc)

/-- Bits set in a position's number. -/
def onesOf (i : Nat) : Nat := ((List.range 10).filter i.testBit).length

/-- Positions of the parity-check bits: the least reliable, and of the rest the most reliable of least row weight. -/
def PolarCode.checks (p : PolarCode) : List Nat :=
  let q := p.carriers
  let m := p.npc - p.wm
  let rest := q.take (q.length - p.npc)
  let least := (rest.map onesOf).foldl min 10
  q.drop (q.length - m) ++ (rest.filter fun i => decide (onesOf i = least)).take (min p.wm p.npc)

/-- The bits before the polar transform. -/
def PolarCode.inputs (p : PolarCode) (c : List Bool) : Array Bool :=
  let q := p.carriers
  let pc := p.checks
  let r := (List.range (2 ^ p.n)).foldl (fun (st : List Bool × List Bool × List Bool) i =>
    let y := st.2.2.drop 1 ++ st.2.2.take 1
    if i ∉ q then (false :: st.1, st.2.1, y)
    else if i ∈ pc then (y.headD false :: st.1, st.2.1, y)
    else
      let b := st.2.1.headD false
      let y := if p.npc = 0 then y else xor (y.headD false) b :: y.drop 1
      (b :: st.1, st.2.1.drop 1, y)) ([], c, List.replicate 5 false)
  r.1.reverse.toArray

/-- The polar transform: output j sums the inputs whose number contains j's bits. -/
def polarTransform (n : Nat) (u : Array Bool) : Array Bool :=
  ((List.range n).foldl (fun (x : Array Bool) s =>
    ((List.range (2 ^ n)).map fun j => if j.testBit s then bitOf x j else xor (bitOf x j) (bitOf x (j + 2 ^ s))).toArray) u)

/-- The input interleaver (I_IL). -/
def PolarCode.interleave (p : PolarCode) (c : List Bool) : List Bool :=
  if p.il then
    let a := c.toArray
    ((List.range 164).filterMap fun m =>
      let v := Config.polarIl m
      if 164 - p.k ≤ v then some (bitOf a (v - (164 - p.k))) else none)
  else c

/-- The triangular interleaver (I_BIL). -/
def triangle (l : List Bool) : List Bool :=
  let e := l.length
  let a := l.toArray
  let t := ((List.range (e + 1)).find? fun t => decide (2 * e ≤ t * (t + 1))).getD 0
  (List.range t).flatMap fun j => (List.range (t - j)).filterMap fun i =>
    let k := i * t - i * (i - 1) / 2 + j
    if k < e then some (bitOf a k) else none

/-- The E bits of a word of K bits. -/
def PolarCode.encode (p : PolarCode) (c : List Bool) : List Bool :=
  let n := 2 ^ p.n
  let d := polarTransform p.n (p.inputs (p.interleave c))
  let y := ((List.range n).map fun i => bitOf d (polarJ p.n i)).toArray
  let e := (List.range p.e).map fun k =>
    bitOf y (if n ≤ p.e then k % n else if p.punctured then k + n - p.e else k)
  if p.bil then triangle e else e

end Sys2Proof.Machine
end

