-- ==== Sys2Proof/Machine/Engines.lean ====
section
/-! DEFINITION. How an engine executes the command at the head of its queue (05_command_queue.md R119 to R121, 07_ridge_engines.md
R162 to R168): the block is read and checked, operands are read, results are written or staged. What the functions compute is in the
files of the engines. A command executes in one step, and completes in another. -/

namespace Sys2Proof.Machine

/-! Work of a command -/

/-- Work so far: writes staged before COMMIT (R120), or made. -/
structure Work where
  job : Job
  staged : List Staged := []
  committed : Bool
  req : Requester
  /-- unit being worked on -/
  unit : Nat := 0
  /-- CAPTURED_OVER records written, detections ignored (R224) -/
  caught : Nat := 0
  ignored : Nat := 0

/-- The work goes on. -/
def Work.live (w : Work) : Bool := w.job.live

/-- Operand `op` read. -/
def Work.read (w : Work) (op a n : Nat) : Work × List Byte :=
  if n = 0 then (w, [])
  else
    let q := w.job.read w.req op a n
    ({ w with job := q.1 }, q.2)

/-- Operand `op` written, or its write staged; `cap` marks a CAPTURED_OVER record. -/
def Work.write (w : Work) (op a : Nat) (data : List WByte) (cap : Bool := false) : Work :=
  if !w.live || data.isEmpty then w
  else if w.committed then
    let j := w.job.write w.req op a data
    { w with job := j, caught := w.caught + (cap && j.live).toNat }
  else { w with staged := w.staged ++ [⟨op, a, data, w.unit, cap⟩] }

/-- Whole bytes written. -/
def Work.put (w : Work) (op a : Nat) (data : List Byte) : Work := w.write op a (wholeBytes data)

/-- A field of a command block. -/
abbrev bfld (b : List Byte) (o n : Nat) : Nat := eFld b o n

/-- A function of an engine: the length of its block in 64-byte units, the fields in byte order with their checks, and the work on
operands; the stop point where EN was cleared, as units finished. `stops`: it has stop points inside (R168). -/
structure EngFn where
  len : Nat
  stops : Bool := false
  checks : State → EngId → List Byte → List (Nat × Bool)
  work : EngId → Work → List Byte → Option Nat → Work × EngResult

/-! Checks of R163, R164 -/

/-- The ridge whose tile memories and pool, which adjoin, hold an address, or the reservoir (24); none elsewhere. -/
def memHome (a : Nat) : Option Nat :=
  match targetOf a with
  | .reservoir => some 24
  | .pool r => some r
  | .tile x => some (x / 8)
  | _ => none

/-- An operand lies whole in the memories of one ridge of the engine, or in the reservoir; it may span memories that adjoin. -/
def engWindow (e : EngId) (a n : Nat) : Bool :=
  let mine (r : Nat) : Bool := decide (r = 24) || match e with
    | .codec k => decide (r = k.val)
    | .fft k => decide (r = k.val)
    | .eq k => decide (r = k.val)
    | .turbo k => decide (r / 6 = k.val)
    | .nbe k => decide (r / 6 = k.val)
  match memHome a with
  | some r => mine r && decide (memHome (a + (n - 1)) = some r)
  | none => false

/-- A pointer field is good: 40 bits, aligned, its n bytes in a window of the engine. -/
def ptrGood (e : EngId) (p n align : Nat) : Bool := decide (p < 2 ^ 40 ∧ p % align = 0) && engWindow e p n

/-- Two operands do not overlap. -/
def apart (a n b m : Nat) : Bool := decide (n = 0 ∨ m = 0 ∨ a + n ≤ b ∨ b + m ≤ a)

/-- Bytes o to o + n of a block are 0. -/
def zeroAt (b : List Byte) (o n : Nat) : Bool := decide (bfld b o n = 0)

/-- The address lies in a tile memory. -/
def inTile (a : Nat) : Bool :=
  match targetOf a with
  | .tile _ => true
  | _ => false

/-- Units of work done one after another. -/
def Work.units (w : Work) (n : Nat) (f : Work → Nat → Work) : Work := (List.range n).foldl (fun w i => f { w with unit := i } i) w

/-! Execution -/

/-- The coefficient cache of an engine has a line that must be filled again first, or one that cannot be had (R237). -/
def State.coeffBad (s : State) (e : EngId) : Bool := s.prot.lines.any fun l => decide (l.owner = cacheOwner (.eng e)) && l.bad

/-- A line of its coefficient cache cannot be had. -/
def State.coeffGone (s : State) (e : EngId) : Bool := s.prot.fetchErr.any fun p => decide (p.1 = cacheOwner (.eng e))

/-- The marks of an engine's cache removed. -/
def State.coeffClear (s : State) (e : EngId) : State :=
  { s with prot := { s.prot with fetchErr := s.prot.fetchErr.filter fun p => decide (p.1 ≠ cacheOwner (.eng e)) } }

/-- A PARAM completion of a field. -/
def paramAt (o : Nat) : EngResult := ⟨2, o⟩

/-- The command's block is read and checked, and its work done. -/
def engWork (s : State) (e : EngId) (c : EngCmd) (f : EngFn) (stop : Option Nat) : Work × EngResult :=
  let w : Work := { job := { s := s }, committed := c.committed, req := .engine e }
  let (w, h) := w.read 0xFFFF c.ptr 64
  if bfld h 0 2 ≠ f.len then (w, paramAt 0)
  else
    let (w, t) := w.read 0xFFFF (c.ptr + 64) (64 * (f.len - 1))
    let b := h ++ t
    match ((2, zeroAt b 2 2) :: f.checks s e b).find? (fun k => !k.2) with
    | some k => (w, paramAt k.1)
    | none => f.work e w b stop

/-- Bytes that staged writes take. -/
def stagedBytes (l : List Staged) : Nat := (l.map fun x => x.data.length).foldl (· + ·) 0

/-- Writes split where a buffer of n bytes is full: what it holds, and what follows (R120). -/
def splitStaged : Nat → List Staged → List Staged × List Staged
  | _, [] => ([], [])
  | n, x :: l =>
    if x.data.length ≤ n then
      let q := splitStaged (n - x.data.length) l
      (x :: q.1, q.2)
    else if n = 0 then ([], x :: l)
    else ([{ x with data := x.data.take n, cap := false }], { x with addr := x.addr + n, data := x.data.drop n } :: l)

/-- The command is executed: its result waits for COMMIT and completion. Writes before COMMIT are staged; those for which the buffer of
4 KiB has no room are not made until COMMIT, and nothing is discarded (R120). Busy cycles are a free value. -/
def State.engExec (s : State) (e : EngId) (c : EngCmd) (f : EngFn) (stop : Option Nat) : State :=
  let run (t : State) (w : Option Work) (r : EngResult) : State :=
    let st := splitStaged 4096 ((w.map (·.staged)).getD [])
    t.modEng e fun g => { g with
      running := some (c.core, c.tag), staged := st.1, later := st.2, result := some r, gated := false
      caught := (w.map (·.caught)).getD 0, ignored := (w.map (·.ignored)).getD 0
      turn := if e.ofRange then (c.core.val / 8 % 6 + 1) % 6 else g.turn }
  let busy (t : State) : State := t.draw.modEng e fun g => { g with busy := g.busy + t.free 0 }
  if s.coeffGone e then run (s.coeffClear e) none ⟨1, 0⟩
  else
    let q := engWork s e c f stop
    q.1.job.settle s (.engine e) fun j =>
      busy (run j.s (some q.1) (match j.bus with
        | some op => ⟨1, op⟩
        | none => q.2))

/-- The command an engine may execute now: the next of its queue, when none runs. -/
def State.engHead (s : State) (e : EngId) : Option EngCmd := if (s.eng e).running = none then s.engNext e else none

/-- The voter number of an engine and its domain (15_sluices_power.md R355). -/
def State.engQuiet (s : State) : EngId → Bool
  | .codec n => s.voted n.val 2
  | .fft n => s.voted n.val 3
  | .eq n => s.voted n.val 4
  | .turbo r => s.voted (52 + r.val) 7
  | .nbe r => s.voted (52 + r.val) 8

/-- The engine may execute the next command of its queue. -/
def State.engMayRun (s : State) (e : EngId) : Bool := s.engEn e && s.engineOn e && !s.engQuiet e && !s.coeffBad e

/-- An engine row: its command at the head, where it is of that function, is executed. -/
def engRow (e : EngId) (func : Nat) (f : EngFn) (s : State) : Out :=
  match s.engHead e with
  | none => .next s
  | some c => act s (s.engMayRun e = true ∧ c.func.toNat = func) fun s => s.engExec e c f none

/-! Bits and values -/

/-- Bits of BITS bytes, first bit first (R166). -/
def bitsIn (d : List Byte) : List Bool := d.flatMap fun b => (List.range 8).map fun i => bit b (7 - i)

/-- The bytes that hold bits p to p + l of a BITS operand, with a mask over just those bits: address offset and bytes. -/
def bitsOut (p : Nat) (l : List Bool) : Nat × List WByte :=
  let pre := p % 8
  let n := ceilDiv (pre + l.length) 8
  (p / 8, (List.range n).map fun i =>
    let at_ (j : Nat) : Option Bool := if pre ≤ 8 * i + j then l[8 * i + j - pre]? else none
    (BitVec.ofNat 8 ((List.range 8).foldl (fun v j => 2 * v + ((at_ j).getD false).toNat) 0),
     BitVec.ofNat 8 ((List.range 8).foldl (fun v j => 2 * v + (at_ j).isSome.toNat) 0)))

/-- Free bits of a function's result. -/
def numBits (fn : Nat) (ps : List Int) (d : List Byte) (n : Nat) : List Bool := (List.range n).map fun i => decide (Config.numeric fn ps d i % 2 = 1)

/-- Free bytes of a function's result, from place `o`. -/
def numBytes (fn : Nat) (ps : List Int) (d : List Byte) (o n : Nat) : List Byte := (List.range n).map fun i => BitVec.ofNat 8 (Config.numeric fn ps d (o + i))

/-- LLR8 values are never −128 (R166). -/
def llrOut (l : List Byte) : List Byte := l.map fun b => if b = 0x80 then 0x81 else b

/-- LLR8 read: −128 counts as −127 (R166). -/
def llrIn (b : Byte) : Int := max (-127) (sext 8 b.toNat)

/-- LLR8 of a value, saturated (R167). -/
def llrOf (v : Int) : Byte := ofInt 8 (max (-127) (min 127 v))

/-! CRCs (R176; polynomials of TS 38.212 clause 5.1) -/

/-- Length and polynomial of CRC type t. -/
def crcType (t : Nat) : Nat × Nat :=
  match t with
  | 0 => (24, 0x864CFB)
  | 1 => (24, 0x800063)
  | 2 => (24, 0xB2B117)
  | 3 => (16, 0x1021)
  | 4 => (11, 0x621)
  | _ => (6, 0x21)

/-- The CRC of bits: remainder of length L, initial value 0. -/
def crcBits (t : Nat × Nat) (l : List Bool) : Nat :=
  l.foldl (fun c b => (c * 2 % 2 ^ t.1) ^^^ (if c.testBit (t.1 - 1) != b then t.2 else 0)) 0

/-- The CRC with 24 ones before the data, and the RNTI mask (R175). -/
def crcMasked (t : Nat × Nat) (ones : Bool) (rnti : Nat) (l : List Bool) : Nat :=
  crcBits t (if ones then List.replicate 24 true ++ l else l) ^^^ (if 16 ≤ t.1 then rnti else rnti % 2 ^ t.1)

/-- A number as n bits, most significant first. -/
def msbBits (n v : Nat) : List Bool := (List.range n).map fun i => v.testBit (n - 1 - i)

end Sys2Proof.Machine
end

