-- ==== Sys2Proof/Machine/Fec.lean ====
section
/-! DEFINITION. Transport-block commands of the codec and of the turbo decoder (07_ridge_engines.md R170 to R174): segmentation, encoding,
rate matching, scrambling, mapping, HARQ buffers, CRCs and statuses. The hard decisions of a decoder's iterations are free values: the
spec names the algorithms and not their arithmetic (log entry 20). -/

namespace Sys2Proof.Machine

/-! Quantities of R170 -/

/-- A transport-block command's sizes. -/
structure Tb where
  turbo : Bool
  a : Nat
  g : Nat
  qm : Nat
  nl : Nat
  rv : Nat
  bg : Nat
  limit : Nat
  /-- B, the bits with the TB CRC, and C. -/
  bits : Nat
  c : Nat
  /-- A's value gives a segmentation that the engines accept. -/
  ok : Bool
  first : Nat
  count : Nat

/-- Lifting sizes a × 2^j up to 384. -/
def liftSize (z : Nat) : Bool := [2, 3, 5, 7, 9, 11, 13, 15].any fun a => (List.range 8).any fun j => decide (z = a * 2 ^ j)

/-- The smallest lifting size with kb × Z ≥ k. -/
def liftOf (kb k : Nat) : Nat := (((List.range 385).drop 2).find? fun z => liftSize z && decide (k ≤ kb * z)).getD 384

/-- Turbo block sizes. -/
def turboSizes : List Nat :=
  ((List.range 60).map fun i => 40 + 8 * i) ++ ((List.range 32).map fun i => 528 + 16 * i) ++
    ((List.range 32).map fun i => 1056 + 32 * i) ++ ((List.range 64).map fun i => 2112 + 64 * i)

/-- The sizes of a command block (R170, R171). -/
def tbOf (turbo : Bool) (b : List Byte) : Tb :=
  let a := bfld b 56 3
  let bg := bfld b 71 1
  let bits := a + (if turbo || decide (3824 < a) then 24 else 16)
  let kcb := if turbo then 6144 else if bg = 1 then 8448 else 3840
  let c := if bits ≤ kcb then 1 else ceilDiv bits (kcb - 24)
  let first := bfld b 64 2
  { turbo := turbo, a := a, g := bfld b 60 4, qm := bfld b 68 1, nl := bfld b 69 1, rv := bfld b 70 1, bg := bg
    limit := bfld b 72 4, bits := bits, c := c
    ok := decide (0 < a ∧ bfld b 59 1 = 0 ∧ c ≤ 255) && (turbo || decide (bits % c = 0 ∧ bits / c % 8 = 0 ∧ (c = 1 → a % 8 = 0)))
    first := first, count := if bfld b 66 2 = 0 then c - first else bfld b 66 2 }

/-- CRC bits of each code block. -/
def Tb.lcb (t : Tb) : Nat := if t.c = 1 then 0 else 24

/-- Turbo: K+ and K− (TS 36.212 clause 5.1.2), C− and F. -/
def Tb.turboSeg (t : Tb) : Nat × Nat × Nat × Nat :=
  let full := t.bits + t.c * t.lcb
  let kp := (turboSizes.find? fun k => decide (full ≤ t.c * k)).getD 6144
  if t.c = 1 then (kp, 0, 0, kp - full)
  else
    let km := ((turboSizes.filter fun k => decide (k < kp)).getLast?).getD 0
    let cm := (t.c * kp - full) / (kp - km)
    (kp, km, cm, (t.c - cm) * kp + cm * km - full)

/-- K of code block r: K′ for LDPC, K of the turbo code with its filler. -/
def Tb.kOf (t : Tb) (r : Nat) : Nat :=
  if t.turbo then
    let q := t.turboSeg
    if r < q.2.2.1 then q.2.1 else q.1
  else t.bits / t.c + t.lcb

/-- Filler bits of turbo block r, all in block 0. -/
def Tb.turboFill (t : Tb) (r : Nat) : Nat := if r = 0 then t.turboSeg.2.2.2 else 0

/-- Bits of the TB that code block r carries. -/
def Tb.dataOf (t : Tb) (r : Nat) : Nat := t.kOf r - t.lcb - (if t.turbo then t.turboFill r else 0)

/-- Its first bit's place in the TB. -/
def Tb.dataAt (t : Tb) (r : Nat) : Nat := ((List.range r).map t.dataOf).foldl (· + ·) 0

/-- LDPC lifting size Z (TS 38.212 clause 5.2.2). -/
def Tb.z (t : Tb) : Nat :=
  let kb := if t.bg = 1 then 22 else if 640 < t.bits then 10 else if 560 < t.bits then 9 else if 192 < t.bits then 8 else 6
  liftOf kb (t.kOf 0)

/-- Rows of the turbo sub-block interleaver. -/
def Tb.rows (t : Tb) (r : Nat) : Nat := ceilDiv (t.kOf r + 4) 32

/-- Length of the circular buffer without a limit. -/
def Tb.nFull (t : Tb) (r : Nat) : Nat := if t.turbo then 96 * t.rows r else (if t.bg = 1 then 66 else 50) * t.z

/-- N_cb of code block r. -/
def Tb.ncb (t : Tb) (r : Nat) : Nat :=
  if t.limit = 0 then t.nFull r else min (t.nFull r) (if t.turbo then t.limit / t.c else 3 * t.limit / (2 * t.c))

/-- E_r: coded bits of code block r. -/
def Tb.e (t : Tb) (r : Nat) : Nat :=
  let u := t.nl * t.qm
  let n := t.g / u
  if r < t.c - n % t.c then u * (n / t.c) else u * ceilDiv n t.c

/-- First coded bit of code block r in the TB's output. -/
def Tb.eAt (t : Tb) (r : Nat) : Nat := ((List.range r).map t.e).foldl (· + ·) 0

/-- Place of the first bit selected (k0). -/
def Tb.k0 (t : Tb) (r : Nat) : Nat :=
  let n := t.ncb r
  if t.turbo then
    let w := t.rows r
    w * (2 * ceilDiv n (8 * w) * t.rv + 2)
  else
    let m := match t.rv with
      | 0 => 0
      | 1 => if t.bg = 1 then 17 else 13
      | 2 => if t.bg = 1 then 33 else 25
      | _ => if t.bg = 1 then 56 else 43
    m * n / ((if t.bg = 1 then 66 else 50) * t.z) * t.z

/-- Column permutation of the turbo sub-block interleaver (TS 36.212 clause 5.1.4.1.1): bits of the column number reversed. -/
def turboColumn (c : Nat) : Nat := (List.range 5).foldl (fun v i => 2 * v + c / 2 ^ i % 2) 0

/-- Stream and bit of the turbo code at circular-buffer position p of code block r; none: a dummy of the interleaver. -/
def Tb.turboAt (t : Tb) (r p : Nat) : Option (Nat × Nat) :=
  let rows := t.rows r
  let kpi := 32 * rows
  let nd := kpi - (t.kOf r + 4)
  let stream := if p < kpi then 0 else 1 + (p - kpi) % 2
  let k := if p < kpi then p else (p - kpi) / 2
  let y := if stream = 2 then (turboColumn (k / rows) + 32 * (k % rows) + 1) % kpi else 32 * (k % rows) + turboColumn (k / rows)
  if y < nd then none else some (stream, y - nd)

/-- Circular-buffer position p of code block r holds no coded bit: filler, or a dummy of the interleaver. -/
def Tb.filler (t : Tb) (r p : Nat) : Bool :=
  if t.turbo then
    match t.turboAt r p with
    | none => true
    | some (stream, i) => decide (stream ≠ 2 ∧ i < t.turboFill r)
  else
    let z := t.z
    decide (t.kOf r ≤ p + 2 * z ∧ p + 2 * z < (if t.bg = 1 then 22 else 10) * z)

/-- Positions that received bits select, in order of the first pass from k0. -/
def Tb.order (t : Tb) (r : Nat) : List Nat :=
  let n := t.ncb r
  ((List.range n).map fun i => (t.k0 r + i) % n).filter fun p => !t.filler r p

/-! Checks of the block -/

/-- A pointer field: n bytes used from offset o on; none used: only its form is checked. -/
def ptrUsed (e : EngId) (p o n align : Nat) : Bool :=
  decide (p < 2 ^ 40 ∧ p % align = 0) && (decide (n = 0) || engWindow e (p + o) n)

/-- QM and NL are in range. -/
def Tb.layers (t : Tb) : Bool := decide (t.nl ∈ [1, 2, 3, 4] ∧ t.qm ∈ [1, 2, 4, 6, 8] ∧ (t.turbo = true → t.qm ≠ 1))

/-- BG is in range. -/
def Tb.graph (t : Tb) : Bool := if t.turbo then decide (t.bg = 0) else decide (t.bg = 1 ∨ t.bg = 2)

/-- Every size is defined. -/
def Tb.good (t : Tb) : Bool :=
  t.ok && t.layers && t.graph && decide (t.rv ≤ 3 ∧ 0 < t.g ∧ t.g % (t.nl * t.qm) = 0 ∧ 0 < t.count ∧ t.first + t.count ≤ t.c)

/-- The code blocks covered. -/
def Tb.covered (t : Tb) : List Nat := (List.range t.count).map fun i => t.first + i

/-- The checks of bytes 56 to 71 in byte order, that the encoders and the decoders share. -/
def Tb.checks (t : Tb) (b : List Byte) : List (Nat × Bool) :=
  [(56, decide (0 < t.a) && zeroAt b 59 1 && (!t.graph || t.ok)), (60, decide (0 < t.g) && (!t.layers || decide (t.g % (t.nl * t.qm) = 0))),
   (64, !t.ok || !t.graph || decide (t.first < t.c)), (66, !t.ok || !t.graph || decide (t.first + t.count ≤ t.c)),
   (68, decide (t.qm ∈ [1, 2, 4, 6, 8] ∧ (t.turbo = true → t.qm ≠ 1))), (69, decide (t.nl ∈ [1, 2, 3, 4])),
   (70, decide (t.rv ≤ 3)), (71, t.graph)]

/-- A unit count where EN was cleared: units worked on, at least one, and whether the command ends ABORTED. -/
def stopAt (stop : Option Nat) (n : Nat) : Nat × Bool :=
  match stop with
  | none => (n, false)
  | some k => (min (max k 1) n, true)

/-! Encoders (R172) -/

/-- Coded bits of the covered code blocks: first bit and count. -/
def Tb.span (t : Tb) : Nat × Nat := (t.eAt t.first, t.eAt (t.first + t.count) - t.eAt t.first)

/-- Bytes of TB_IN that the encoder reads: first byte and count. -/
def Tb.encIn (t : Tb) (given : Bool) : Nat × Nat :=
  if given then
    let lo := t.dataAt t.first
    (lo / 8, ceilDiv (t.dataAt (t.first + t.count)) 8 - lo / 8)
  else (0, ceilDiv t.a 8)

/-- Checks of an encoder's block. -/
def encChecks (turbo : Bool) (_ : State) (e : EngId) (b : List Byte) : List (Nat × Bool) :=
  let t := tbOf turbo b
  let p0 := bfld b 16 8
  let p1 := bfld b 24 8
  let symbols := decide (bfld b 80 1 = 1)
  let ls := bfld b 84 4
  let g := t.good
  let i := t.encIn (decide (bfld b 81 1 % 2 = 1))
  let q := t.span
  let last := decide (t.first + t.count = t.c)
  let endBit := q.1 + q.2
  let bytes := ceilDiv endBit 8 - q.1 / 8
  let row := q.1 / (t.qm * t.nl) * 4
  let rows := q.2 / (t.qm * t.nl) * 4
  let ins := p0 + i.1
  let outBits := apart (p1 + q.1 / 8) bytes ins i.2 && ptrUsed e p1 (q.1 / 8) bytes 1 &&
    !(inTile p1 && (decide (q.1 % 8 ≠ 0) || (decide (endBit % 8 ≠ 0) && !last)))
  let outSyms := (List.range t.nl).all fun l =>
    ptrUsed e p1 (l * ls + row) rows 4 && apart (p1 + l * ls + row) rows ins i.2
  [(16, ptrUsed e p0 i.1 (if g then i.2 else 1) 1),
   (24, if g then (if symbols then outSyms else outBits) else decide (p1 < 2 ^ 40)),
   (32, zeroAt b 32 8), (40, zeroAt b 40 8), (48, zeroAt b 48 8)] ++ t.checks b ++
  [(76, decide (bfld b 76 4 < 2 ^ 31)), (80, decide (bfld b 80 1 ≤ 1)), (81, decide (bfld b 81 1 < 4)), (84, decide (ls % 4 = 0)),
   (88, zeroAt b 88 40)]

/-- The TB with its CRC: the A bits read, and the CRC attached. -/
def Tb.attach (t : Tb) (l : List Bool) : List Bool :=
  let ty := crcType (if t.turbo || decide (3824 < t.a) then 0 else 3)
  l ++ msbBits ty.1 (crcBits ty l)

/-- Bits of the TB from bit `o`, as far as read: those of code block r. -/
def Tb.blockBits (t : Tb) (l : List Bool) (o r : Nat) : List Bool := (l.drop (t.dataAt r - o)).take (t.dataOf r)

/-- CRC of the transport block, and of a code block (R170, R174). -/
def Tb.tbCrc (t : Tb) : Nat × Nat := crcType (if t.turbo || decide (3824 < t.a) then 0 else 3)

/-- CRC length and polynomial for a code block. -/
def Tb.cbCrc (t : Tb) : Nat × Nat := if t.c = 1 then t.tbCrc else crcType 1

/-- Bits of code block r with the CRC of a code block. -/
def Tb.blockWord (t : Tb) (l : List Bool) : List Bool := if t.c = 1 then l else l ++ msbBits 24 (crcBits t.cbCrc l)

/-- The bit at each circular-buffer position of code block r, from its bits (R170). -/
def Tb.buffer (t : Tb) (r : Nat) (l : List Bool) : Nat → Bool :=
  if t.turbo then
    let d := turboStreams (List.replicate (t.turboFill r) false ++ l)
    fun p => match t.turboAt r p with
      | some (stream, i) => bitOf ((d[stream]?).getD #[]) i
      | none => false
  else
    let z := t.z
    let d := ldpcWord t.bg z (l ++ List.replicate ((ldpcSize t.bg).1 * z - l.length) false)
    fun p => bitOf d (p + 2 * z)

/-- The E_r bits that rate matching selects from the circular buffer, interleaved for LDPC (R170). -/
def Tb.rateMatch (t : Tb) (r : Nat) (f : Nat → Bool) : List Bool :=
  let o := (t.order r).toArray
  let e := t.e r
  let bits := ((List.range e).map fun k => f ((o[k % o.size]?).getD 0)).toArray
  if t.turbo then bits.toList
  else (List.range e).map fun i => bitOf bits (i % t.qm * (e / t.qm) + i / t.qm)

/-- The coded bits of code block r, from the TB as far as read. -/
def Tb.coded (t : Tb) (l : List Bool) (o r : Nat) : List Bool := t.rateMatch r (t.buffer r (t.blockWord (t.blockBits l o r)))

/-- Coded bits scrambled from output bit o of the TB on (R172). -/
def scramble (cinit o : Nat) (l : List Bool) : List Bool := l.zipWith xor (goldBits cinit o l.length)

/-- The modulation symbols of output bits from bit o of the TB on (R172). -/
def Tb.symbols (t : Tb) (amp o : Nat) (l : List Bool) : Array Cplx :=
  ((List.range (l.length / t.qm)).map fun i => modSymbol amp (o / t.qm + i) ((l.drop (i * t.qm)).take t.qm)).toArray

/-- The output bits of code block r are written: as bits, or as symbols layer by layer (R172). -/
def Tb.encOut (t : Tb) (b : List Byte) (l : List Bool) (w : Work) (r : Nat) : Work :=
  let p1 := bfld b 24 8
  let start := t.eAt r
  if bfld b 80 1 = 0 then
    let last := decide (r + 1 = t.c)
    let x := bitsOut start (if last then l ++ List.replicate ((8 - (start + l.length) % 8) % 8) false else l)
    w.write 2 (p1 + x.1) x.2
  else
    let z := t.symbols (bfld b 82 2) start l
    (List.range t.nl).foldl (fun w k =>
      let n := z.size / t.nl
      w.put 2 (p1 + k * bfld b 84 4 + 4 * (start / (t.qm * t.nl)))
        ((List.range n).flatMap fun j => iqBytes ((z[j * t.nl + k]?).getD (0, 0)))) w

/-- Output bits of blocks that share a byte, in tile memory: held until the byte is whole. -/
def Tb.encTile (t : Tb) (b : List Byte) (w : Work) (blocks : List (Nat × List Bool)) : Work :=
  let bits := blocks.flatMap (·.2)
  let start := t.eAt t.first
  let whole := decide (t.first + blocks.length = t.c)
  let bits := if whole then bits ++ List.replicate ((8 - (start + bits.length) % 8) % 8) false
    else bits.take ((start + bits.length) / 8 * 8 - start)
  let x := bitsOut start bits
  { w with unit := blocks.length - 1 }.write 2 (bfld b 24 8 + x.1) x.2

/-- The work of an encoder. -/
def encWork (turbo : Bool) (_ : EngId) (w : Work) (b : List Byte) (stop : Option Nat) : Work × EngResult :=
  let t := tbOf turbo b
  let given := decide (bfld b 81 1 % 2 = 1)
  let q := stopAt stop t.count
  let i := t.encIn given
  let (w, d) := w.read 1 (bfld b 16 8 + i.1) i.2
  let raw := bitsIn d
  let tb := if given then raw else t.attach (raw.take t.a)
  let block (r : Nat) : List Bool :=
    let l := t.coded tb (8 * i.1) r
    if bfld b 81 1 / 2 = 1 then scramble (bfld b 76 4) (t.eAt r) l else l
  let w := if bfld b 80 1 = 0 ∧ inTile (bfld b 24 8) = true then t.encTile b w ((t.covered.take q.1).map fun r => (r, block r))
    else w.units q.1 fun w k => t.encOut b (block (t.first + k)) w (t.first + k)
  (w, if q.2 then ⟨3, q.1⟩ else ⟨0, 0⟩)

/-- The encoders. -/
def encFn (turbo : Bool) : EngFn := { len := 2, stops := true, checks := encChecks turbo, work := encWork turbo }

/-! Decoders (R173, R174) -/

/-- Bytes that buffers of the covered code blocks span from the pointer: first byte and count. -/
def Tb.harqSpan (t : Tb) (stride : Nat) : Nat × Nat :=
  let last := t.first + t.count - 1
  (t.first * stride, (t.count - 1) * stride + t.ncb last)

/-- Bytes of TB_OUT that are written: first byte and count. -/
def Tb.decOut (t : Tb) : Nat × Nat :=
  let lo := t.dataAt t.first
  (lo / 8, ceilDiv (t.dataAt (t.first + t.count)) 8 - lo / 8)

/-- A HARQ pointer: in the reservoir. -/
def harqPtr (e : EngId) (p o n : Nat) : Bool := ptrUsed e p o n 64 && (decide (n = 0) || decide (targetOf (p + o) = .reservoir))

/-- Checks of a decoder's block. -/
def decChecks (turbo : Bool) (_ : State) (e : EngId) (b : List Byte) : List (Nat × Bool) :=
  let t := tbOf turbo b
  let g := t.good
  let p (o : Nat) : Nat := bfld b o 8
  let stride := bfld b 76 4
  let en := g && decide (bfld b 81 1 % 2 = 1)
  let old := en && decide (bfld b 81 1 / 2 % 2 = 0)
  let span := if g then t.harqSpan stride else (0, 0)
  let llr := if g then t.span.2 else 1
  let hin := if old then span.2 else 0
  let hout := if en then span.2 else 0
  let out := if g then t.decOut else (0, 0)
  let sts := if g then 4 * t.count else 0
  let ins (a n : Nat) : Bool := apart a n (p 16) llr && apart a n (p 24 + span.1) hin
  let et := bfld b 81 1 / 4 % 4
  [(16, ptrUsed e (p 16) 0 llr 4), (24, harqPtr e (p 24) span.1 hin),
   (32, harqPtr e (p 32) span.1 hout && apart (p 32 + span.1) hout (p 16) llr &&
      (decide (p 24 = p 32) || apart (p 32 + span.1) hout (p 24 + span.1) hin)),
   (40, ptrUsed e (p 40) out.1 out.2 1 && ins (p 40 + out.1) out.2),
   (48, ptrUsed e (p 48) (4 * t.first) sts 4 && ins (p 48 + 4 * t.first) sts)] ++ t.checks b ++
  [(76, decide (stride % 64 = 0) && (!g || t.covered.all fun r => decide (t.ncb r ≤ stride))),
   (80, decide (1 ≤ bfld b 80 1 ∧ bfld b 80 1 ≤ if turbo then 8 else 32)),
   (81, decide (bfld b 81 1 < 16 ∧ et ≠ 3 ∧ (turbo = true → et ≠ 1))), (82, zeroAt b 82 2), (84, zeroAt b 84 4),
   (88, zeroAt b 88 40)]

/-- The received values of one code block in the order of bit selection: the interleaver of TS 38.212 clause 5.4.2.2 undone. -/
def Tb.deinterleave (t : Tb) (d : List Byte) : Array Int :=
  let a := (d.map llrIn).toArray
  if t.turbo then a
  else
    let n := a.size / t.qm
    ((List.range a.size).map fun i => (a[i / n + i % n * t.qm]?).getD 0).toArray

/-- The HARQ buffer after a reception (R173): filler +127, selected positions accumulated. -/
def Tb.combine (t : Tb) (r : Nat) (old : List Byte) (d : List Byte) : List Byte :=
  let rx := t.deinterleave d
  let order := t.order r
  let m := order.length
  let start : Array Int := ((List.range (t.ncb r)).map fun p => if t.filler r p then 127 else llrIn (old.getD p 0)).toArray
  let done := ((List.range rx.size).foldl (fun (st : Array Int) i =>
    let p := order.getD (i % m) 0
    if m = 0 then st else st.setIfInBounds p (max (-127) (min 127 ((st[p]?).getD 0 + (rx[i]?).getD 0)))) start)
  done.toList.map llrOf

/-- What the decoder has made of the code blocks so far. -/
structure TbSum where
  work : Work
  bits : List Bool := []
  failed : Nat := 0
  iter : Nat := 0

/-- Rows of the base graph that decoding works on (R177). -/
def Tb.layerRows (t : Tb) (r : Nat) : Nat :=
  if t.bg = 1 then min 46 (max 4 (ceilDiv (t.e r) t.z - 20)) else min 42 (max 4 (ceilDiv (t.e r) t.z - 8))

/-- Hard decisions after iteration i on code block r: its bits with CRC, and whether every parity check holds. The decisions are free
values, but for filler bits, which are known zeros; the checks are computed from them (R173, R174). -/
def Tb.decided (t : Tb) (b : List Byte) (r : Nat) (soft : List Byte) (i : Nat) : List Bool × Bool :=
  let ps : List Int := [t.kOf r, t.bg, t.z, t.rv, t.ncb r, bfld b 80 1, t.turboFill r, i]
  let n := t.dataOf r + t.lcb
  if t.turbo then (numBits 19 ps soft n, false)
  else
    let z := t.z
    let kb := (ldpcSize t.bg).1
    let m := t.layerRows r
    let x := numBits 17 ps soft ((kb + m) * z)
    let x := x.take n ++ List.replicate (kb * z - n) false ++ x.drop (kb * z)
    (x.take n, ldpcChecks t.bg z m x.toArray)

/-- One code block is combined, decoded and written. -/
def Tb.decodeOne (t : Tb) (b : List Byte) (st : TbSum) (r : Nat) : TbSum :=
  let fl := bfld b 81 1
  let stride := bfld b 76 4
  let (w, d) := st.work.read 1 (bfld b 16 8 + (t.eAt r - t.eAt t.first)) (t.e r)
  let (w, old) := if fl % 4 = 1 then w.read 2 (bfld b 24 8 + r * stride) (t.ncb r) else (w, [])
  let soft := t.combine r old d
  let w := if fl % 2 = 1 then w.put 3 (bfld b 32 8 + r * stride) soft else w
  let maxIter := bfld b 80 1
  let et := fl / 4 % 4
  let crcOf (l : List Bool) : Bool := decide (crcBits t.cbCrc l = 0)
  let done (i : Nat) : Bool :=
    let h := t.decided b r soft i
    (decide (et = 1) && h.2) || (decide (et = 2) && crcOf h.1 && (t.turbo || h.2))
  let iter := (((List.range maxIter).map (· + 1)).find? done).getD maxIter
  let (bits, parity) := t.decided b r soft iter
  let crcOk := crcOf bits
  let x := bitsOut (t.dataAt r) (bits.take (t.dataOf r))
  let w := w.write 4 (bfld b 40 8 + x.1) x.2
  let w := w.put 5 (bfld b 48 8 + 4 * r) (toBytes 4 (iter % 64 + 64 * parity.toNat + 128 * crcOk.toNat))
  { work := w, bits := st.bits ++ bits.take (t.dataOf r), failed := st.failed + (!crcOk).toNat, iter := max st.iter iter }

/-- The work of a decoder. -/
def decWork (turbo : Bool) (_ : EngId) (w : Work) (b : List Byte) (stop : Option Nat) : Work × EngResult :=
  let t := tbOf turbo b
  let q := stopAt stop t.count
  let r := (List.range q.1).foldl (fun (st : TbSum) k => t.decodeOne b { st with work := { st.work with unit := k } } (t.first + k))
    { work := w }
  let tbBad := decide (t.count = t.c) && decide (crcBits t.tbCrc r.bits ≠ 0)
  (r.work, if q.2 then ⟨3, q.1⟩
    else if tbBad || decide (0 < r.failed) then ⟨0x40, r.failed + 0x8000 * tbBad.toNat⟩ else ⟨0, r.iter⟩)

/-- The decoders. -/
def decFn (turbo : Bool) : EngFn := { len := 2, stops := true, checks := decChecks turbo, work := decWork turbo }

/-! Rows -/

/-- LDPC_ENC (0x01): R161, R170 to R172. -/
def execLdpcEnc (n : Fin 24) (s : State) : Out := engRow (.codec n) 0x01 (encFn false) s

/-- LDPC_DEC (0x05): R170, R171, R173, R174. -/
def execLdpcDec (n : Fin 24) (s : State) : Out := engRow (.codec n) 0x05 (decFn false) s

/-- TURBO_ENC (0x81). -/
def execTurboEnc (r : Fin 4) (s : State) : Out := engRow (.turbo r) 0x81 (encFn true) s

/-- TURBO_DEC (0x85). -/
def execTurboDec (r : Fin 4) (s : State) : Out := engRow (.turbo r) 0x85 (decFn true) s

end Sys2Proof.Machine
end

