-- ==== Sys2Proof/Machine/Equaliser.lean ====
section
/-! DEFINITION. The EQ engine: CHEST and EQUALISE (07_ridge_engines.md R181 to R187). Values are computed exactly and narrowed once; what
the rules leave to the engine is free: how far above the smallest one a block exponent lies, the taps of the smoothing, the RSRP, and a
quotient by zero (log entry 20). -/

namespace Sys2Proof.Machine

/-- Symbols of a mask. -/
def maskSyms (m n : Nat) : List Nat := (List.range n).filter fun i => m.testBit i

/-- Grid (p, s) of a command with NSYM symbols and a stride. -/
def gridAt (nsym stride p s : Nat) : Nat := (p * nsym + s) * stride

/-- Offsets of grids of all paths, the symbols given. -/
def gridsOf (npath nsym stride : Nat) (syms : List Nat) : List Nat := (List.range npath).flatMap fun p => syms.map (gridAt nsym stride p)

/-- Sizes of the fields that CHEST and EQUALISE share are good. -/
def eqSizes (nsc npath nsym stride : Nat) : List Bool :=
  [decide (stride % 4 = 0 ∧ 4 * nsc ≤ stride), decide (12 ≤ nsc ∧ nsc ≤ 3300 ∧ nsc % 12 = 0), decide (1 ≤ npath ∧ npath ≤ 4),
   decide (nsym = 12 ∨ nsym = 14)]

/-- Every one of the chunks is good, from the pointer. -/
def chunksGood (e : EngId) (p : Nat) (offs : List Nat) (n : Nat) : Bool :=
  decide (p < 2 ^ 40 ∧ p % 4 = 0) && offs.all fun o => engWindow e (p + o) n

/-- Chunks of an output are apart from an input. -/
def chunksApart (p : Nat) (offs : List Nat) (n : Nat) (ins : List (Nat × Nat)) : Bool :=
  offs.all fun o => ins.all fun i => apart (p + o) n i.1 i.2

/-! CHEST -/

/-- Pilot REs of a symbol (PTYPE). -/
def pilotsPerSym (ptype nsc : Nat) : Nat := nsc / 12 * (match ptype with
  | 0 => 6
  | 1 => 4
  | _ => 2)

/-- Checks of R181. A mask bit at or above NSYM names no symbol and is refused (log entry 113). -/
def chestChecks (_ : State) (e : EngId) (b : List Byte) : List (Nat × Bool) :=
  let p (o : Nat) : Nat := bfld b o 8
  let stride := bfld b 64 4
  let nsc := bfld b 68 2
  let npath := bfld b 70 1
  let nsym := bfld b 71 1
  let ptype := bfld b 74 1
  let sizes := eqSizes nsc npath nsym stride
  let good := sizes.all id
  let syms := if good then maskSyms (bfld b 72 2) nsym else []
  let rx := if good then gridsOf npath nsym stride syms else []
  let hs := if good then gridsOf npath nsym stride (List.range nsym) else []
  let n := if good then 4 * nsc else 0
  let expN := if good then npath * nsym else 0
  let pilN := if good then 4 * pilotsPerSym ptype nsc * syms.length else 0
  let ctxN := if good then 64 + 4 * nsc * npath else 0
  let base := rx.map fun o => (p 16 + o, n)
  let ins := base ++ [(p 24, expN), (p 32, pilN)]
  let mask := bfld b 72 2
  let par := bfld b 75 1
  [(16, chunksGood e (p 16) rx n), (24, ptrUsed e (p 24) 0 expN 1), (32, ptrUsed e (p 32) 0 pilN 4),
   (40, ptrUsed e (p 40) 0 ctxN 64 && chunksApart (p 40) [0] ctxN ins),
   (48, chunksGood e (p 48) hs n && chunksApart (p 48) hs n (ins ++ [(p 40, ctxN)])),
   (56, ptrUsed e (p 56) 0 128 4 && chunksApart (p 56) [0] 128 (ins ++ [(p 40, ctxN)])),
   (64, sizes.getD 0 false), (68, sizes.getD 1 false), (70, sizes.getD 2 false), (71, sizes.getD 3 false),
   (72, decide (mask < 2 ^ 14 ∧ (nsym = 12 → mask < 2 ^ 12))), (74, decide (ptype ≤ 2)),
   (75, decide ((ptype = 0 → par ≤ 1) ∧ (ptype = 1 → par ≤ 2))), (80, decide (bfld b 80 1 ≤ 2)), (81, decide (bfld b 81 1 ≤ 2)),
   (82, decide (bfld b 82 1 ≤ 7)), (83, decide (1 ≤ bfld b 83 1)), (84, decide (bfld b 84 1 ≤ 3)), (85, zeroAt b 85 43)]

/-- How CHEST classifies a command (R185). -/
inductive History where
  | activation
  | continuation
  | repeated
  | restart
  deriving DecidableEq, Repr

/-- The class: MAGIC 0x4551_0001, sizes, and d = (SLOT − LAST_SLOT) mod 2^32. -/
def historyOf (b ctx : List Byte) : History :=
  let d := (bfld b 76 4 + 2 ^ 32 - bfld ctx 4 4) % 2 ^ 32
  if bfld ctx 0 4 ≠ 0x45510001 ∨ bfld ctx 10 2 ≠ bfld b 70 1 ∨ bfld ctx 12 2 ≠ bfld b 68 2 then .activation
  else if 1 ≤ d ∧ d ≤ bfld b 83 1 ∧ 1 ≤ bfld ctx 8 2 then .continuation
  else if d = 0 then .repeated
  else .restart

/-- COUNT before the command, and after it (R185). -/
def historyCount (h : History) (ctx : List Byte) : Nat × Nat :=
  let c := bfld ctx 8 2
  match h with
  | .activation => (0, 1)
  | .restart => (0, 1)
  | .continuation => (c, min (c + 1) 65535)
  | .repeated => (c, c)

/-- DETAIL of an OK CHEST. -/
def chestDetail (h : History) (ctx : List Byte) (pilots : Nat) : Nat :=
  (decide ((historyCount h ctx).1 < 4)).toNat + 2 * (decide (pilots < 2 ∧ ¬(pilots = 1 ∧ h = .continuation))).toNat +
    4 * (decide (h = .restart)).toNat + 8 * (decide (h = .repeated)).toNat

/-- A list of NSC values, by subcarrier. -/
abbrev Grid := List Cx

/-- Subcarriers of the pilot REs of the i-th pilot symbol, in order (R181). -/
def pilotSubs (b : List Byte) (i : Nat) : List Nat :=
  let par := bfld b 75 1
  (List.range (bfld b 68 2)).filter fun k => match bfld b 74 1 with
    | 0 => decide (k % 2 = par)
    | 1 => decide (k % 6 / 2 = par)
    | _ => decide (k % 6 = (par + 3 * (i % 2)) % 6)

/-- What a CHEST has read: the received grid of path p and i-th pilot symbol, their reference values, the history; and its free values,
by purpose and place. -/
structure ChestIn where
  b : List Byte
  syms : List Nat
  rx : Nat → Nat → Array Cx
  ref : Nat → Nat → Cx
  hist : Option (Nat → Grid)
  free : Nat → Nat → Nat

/-- A free value between −1 and 1. -/
def freeRat (n : Nat) : Rat := ((n % 2 ^ 33 : Nat) : Rat) / ((2 ^ 32 : Nat) : Rat) - 1

/-- LS estimates of path p at the i-th pilot symbol: subcarrier, y x* / |x|², |x|² (R182 step 1). With a reference value of 0 the estimate
is not stated. -/
def ChestIn.ls (c : ChestIn) (p i : Nat) : List (Nat × Cx × Rat) :=
  (pilotSubs c.b i).zipIdx.map fun q =>
    let x := c.ref i q.2
    let h : Cx := if x.norm2 = 0 then ⟨freeRat (c.free 0 (2 * (q.1 + 4096 * (p + 4 * i)))), freeRat (c.free 0 (2 * (q.1 + 4096 * (p + 4 * i)) + 1))⟩
      else (((c.rx p i)[q.1]?).getD Cx.zero).div x
    (q.1, h, x.norm2)

/-- The 3-tap smoothing, edge values held; its taps are constants of the engine (R181). -/
def smooth3 (l : List Cx) : List Cx :=
  let a := l.toArray
  let at_ (i : Nat) : Cx := (a[min i (a.size - 1)]?).getD Cx.zero
  let w (i : Nat) : Rat := (Config.smoothTap i : Rat)
  (List.range l.length).map fun i =>
    (Cx.sum [(at_ (i - 1)).scale (w 0), (at_ i).scale (w 1), (at_ (i + 1)).scale (w 2)]).scale (1 / (w 0 + w 1 + w 2))

/-- A value between two places, linear in between, held beyond. -/
def between (x0 x1 : Nat) (a b : Cx) (x : Nat) : Cx :=
  if x ≤ x0 ∨ x1 ≤ x0 then a
  else if x1 ≤ x then b
  else a.add ((b.sub a).scale ((x - x0 : Nat) / (x1 - x0 : Nat) : Rat))

/-- Values at places in rising order, extended over n places: linear, edge values held. -/
def spread (l : List (Nat × Cx)) (n : Nat) : List Cx :=
  (List.range n).map fun k =>
    match (l.filter fun p => decide (p.1 ≤ k)).getLast?, l.find? fun p => decide (k < p.1) with
    | some a, some b => between a.1 b.1 a.2 b.2 k
    | some a, none => a.2
    | none, some b => b.2
    | none, none => Cx.zero

/-- The estimate of path p over frequency at the i-th pilot symbol (R182 step 2, FINT). -/
def ChestIn.overFreq (c : ChestIn) (p i : Nat) : Grid :=
  let l := c.ls p i
  let nsc := bfld c.b 68 2
  match bfld c.b 80 1 with
  | 0 => spread (l.map fun q => (q.1, q.2.1)) nsc
  | 1 =>
    let mean (prb : Nat) : Cx := Cx.mean ((l.filter fun q => decide (q.1 / 12 = prb)).map (·.2.1))
    (List.range (nsc / 12)).flatMap fun prb => List.replicate 12 (mean prb)
  | _ => spread ((l.map (·.1)).zip (smooth3 (l.map (·.2.1)))) nsc

/-- The average with the history (R182 step 4). -/
def averaged (b : List Byte) (old new : Grid) : Grid :=
  old.zipWith (fun o n => o.add ((n.sub o).scale (pow2 (-(bfld b 82 1 : Int))))) new

/-- The estimates of path p at the pilot symbols, the first one averaged with the history where TINT is 2 and it is used. -/
def ChestIn.atPilots (c : ChestIn) (p : Nat) : List Grid :=
  (List.range c.syms.length).map fun i =>
    let g := c.overFreq p i
    match c.hist with
    | some h => if i = 0 ∧ bfld c.b 81 1 = 2 then averaged c.b (h p) g else g
    | none => g

/-- The estimate of path p at symbol s (R182 step 3; R185: as TINT = 0 without history). No pilot symbol: not stated. -/
def ChestIn.atSymbol (c : ChestIn) (p s : Nat) : Grid :=
  let l := c.syms.zip (c.atPilots p)
  let nsc := bfld c.b 68 2
  let before := (l.filter fun q => decide (q.1 ≤ s)).getLast?
  let after := l.find? fun q => decide (s < q.1)
  match before, after with
  | some a, some b =>
    if c.hist.isSome ∧ bfld c.b 81 1 ≠ 0 then a.2.zipWith (fun x y => between a.1 b.1 x y s) b.2
    else if s - a.1 < b.1 - s ∨ (s - a.1 = b.1 - s ∧ Config.nearestLater = false) then a.2
    else b.2
  | some a, none => a.2
  | none, some b => b.2
  | none, none => (List.range nsc).map fun k =>
      ⟨freeRat (c.free 1 (2 * (k + 4096 * (p + 4 * s)))), freeRat (c.free 1 (2 * (k + 4096 * (p + 4 * s)) + 1))⟩

/-- The noise of path p: the mean over its pilots of |LS − smoothed|² |x|² (R182). -/
def ChestIn.noise (c : ChestIn) (p : Nat) : Rat :=
  ratMean ((List.range c.syms.length).flatMap fun i =>
    let l := c.ls p i
    (l.zip (smooth3 (l.map (·.2.1)))).map fun q => (q.1.2.1.sub q.2).norm2 * q.1.2.2)

/-- The symbols or slots that the CFO compares, and the time between them in seconds (R183); none: no history usable. The slot lasts
1 ms / 2^MU. -/
def ChestIn.cfoPair (c : ChestIn) (d : Nat) : Option (List (Grid × Grid) × Rat) :=
  let slot : Rat := 1 / ((1000 * 2 ^ bfld c.b 84 1 : Nat) : Rat)
  let paths := List.range (bfld c.b 70 1)
  match c.syms with
  | [] => none
  | [_] => c.hist.map fun h => (paths.map fun p => (h p, c.overFreq p 0), (d : Rat) * slot)
  | a :: l =>
    let z := l.getLast?.getD a
    some (paths.map fun p => (c.overFreq p 0, c.overFreq p l.length), ((z - a : Nat) : Rat) * slot / (bfld c.b 71 1 : Rat))

/-- The CFO report: the angle of Σ h_b h_a* over 2π Δt, in 0.1 Hz, truncated and saturated (R183). The angle of 0 is not stated. -/
def ChestIn.cfo (c : ChestIn) (d : Nat) : List Byte :=
  match c.cfoPair d with
  | none => toBytes 4 0
  | some (l, dt) =>
    let z := Cx.sum (l.flatMap fun g => g.2.zipWith (fun x y => x.mul y.conj) g.1)
    let turns : Rat := if z = Cx.zero then freeRat (c.free 2 0) / 2 else turnsOf z
    toBytes 4 (ofInt 32 (max (-2147483647) (min 2147483647 (turns * 10 / dt).floor))).toNat

/-- The report of R185; RSRP, whose formula is not given, is free, as are the entries of paths and grids that the command does not have
and what the engine adds to an exponent. -/
def ChestIn.report (c : ChestIn) (d count detail : Nat) (exps : List Int) : List Byte :=
  let np := bfld c.b 70 1
  let paths (f : Nat → List Byte) : List Byte := (List.range 4).flatMap fun p => if p < np then f p else toBytes 3 (c.free 7 p) ++ [0]
  paths (fun p => noiseOf (c.noise p) (c.free 3 p)) ++ paths (fun p => toBytes 3 (c.free 4 p) ++ [0]) ++
  (if detail / 2 % 2 = 1 then toBytes 4 0 else c.cfo d) ++
  toBytes 2 count ++ toBytes 2 detail ++ List.replicate 24 0 ++
  (exps.map (ofInt 8)) ++ ((List.range 56).drop exps.length).map (fun i => BitVec.ofNat 8 (c.free 8 i)) ++ List.replicate 8 0

/-- The operands of a CHEST, read in their order. -/
def chestRead (w : Work) (b : List Byte) : Work × List Byte × List Byte × List Byte × List Byte :=
  let p (o : Nat) : Nat := bfld b o 8
  let nsc := bfld b 68 2
  let npath := bfld b 70 1
  let syms := maskSyms (bfld b 72 2) (bfld b 71 1)
  let (w, rx) := (gridsOf npath (bfld b 71 1) (bfld b 64 4) syms).foldl (fun (st : Work × List Byte) o =>
    let q := st.1.read 1 (p 16 + o) (4 * nsc)
    (q.1, st.2 ++ q.2)) (w, [])
  let (w, ex) := w.read 2 (p 24) (npath * bfld b 71 1)
  let (w, pil) := w.read 3 (p 32) (4 * pilotsPerSym (bfld b 74 1) nsc * syms.length)
  let (w, ctx) := w.read 4 (p 40) (64 + 4 * nsc * npath)
  (w, rx, ex, pil, ctx)

/-- The values of a CHEST's operands. -/
def chestIn (b : List Byte) (h : History) (rx ex pil ctx : List Byte) : ChestIn :=
  let nsc := bfld b 68 2
  let syms := maskSyms (bfld b 72 2) (bfld b 71 1)
  let n := pilotsPerSym (bfld b 74 1) nsc
  let src := rx ++ ex ++ pil ++ ctx
  { b := b, syms := syms
    rx := fun p i =>
      let e := sext 8 (eFld ex (p * bfld b 71 1 + syms.getD i 0) 1)
      let d := rx.drop (4 * nsc * (p * syms.length + i))
      ((List.range nsc).map fun k => Cx.ofInts (iqAt d k) e).toArray
    ref := fun i k => Cx.ofInts (iqAt pil (i * n + k)) 0
    hist := if h = .continuation then
        some fun p => (List.range nsc).map fun k => Cx.ofInts (iqAt (ctx.drop (64 + 4 * nsc * p)) k) (sext 8 (eFld ctx (16 + p) 1))
      else none
    free := fun purpose i => Config.numeric 23 (b.map (fun x => (x.toNat : Int)) ++ [(purpose : Int)]) src i }

/-- The work of CHEST. -/
def chestWork (_ : EngId) (w : Work) (b : List Byte) (_ : Option Nat) : Work × EngResult :=
  let p (o : Nat) : Nat := bfld b o 8
  let nsc := bfld b 68 2
  let npath := bfld b 70 1
  let nsym := bfld b 71 1
  let (w, rx, ex, pil, ctx) := chestRead w b
  let h := historyOf b ctx
  let c := chestIn b h rx ex pil ctx
  let count := (historyCount h ctx).2
  let detail := chestDetail h ctx c.syms.length
  let d := (bfld b 76 4 + 2 ^ 32 - bfld ctx 4 4) % 2 ^ 32
  let grids := (List.range npath).flatMap fun q => (List.range nsym).map fun s => (q, s, c.atSymbol q s)
  let exps := grids.map fun g => someExp (partsOf g.2.2) (c.free 5 (g.1 * nsym + g.2.1))
  let w := (grids.zip exps).foldl (fun (w : Work) g =>
    w.put 5 (p 48 + gridAt nsym (bfld b 64 4) g.1.1 g.1.2.1) (iqOut g.1.2.2 g.2)) w
  let w := w.put 6 (p 56) (c.report d count detail exps)
  let last := (List.range npath).map fun q => ((c.atPilots q).getLast?).getD (c.atSymbol q 0)
  let hexp := last.zipIdx.map fun g => someExp (partsOf g.1) (c.free 6 g.2)
  let w := if h = .repeated then w else w.put 4 (p 40)
    (toBytes 4 0x45510001 ++ toBytes 4 (bfld b 76 4) ++ toBytes 2 count ++ toBytes 2 npath ++ toBytes 2 nsc ++ [0, 0] ++
      hexp.map (ofInt 8) ++ List.replicate (48 - npath) 0 ++ (last.zip hexp).flatMap fun g => iqOut g.1 g.2)
  (w, ⟨0, detail⟩)

/-- CHEST. -/
def chestFn : EngFn := { len := 2, checks := chestChecks, work := chestWork }

/-! EQUALISE -/

/-- Checks of R186. -/
def equaliseChecks (_ : State) (e : EngId) (b : List Byte) : List (Nat × Bool) :=
  let p (o : Nat) : Nat := bfld b o 8
  let stride := bfld b 72 4
  let nsc := bfld b 76 2
  let npath := bfld b 78 1
  let nsym := bfld b 79 1
  let sizes := eqSizes nsc npath nsym stride
  let good := sizes.all id
  let syms := if good then maskSyms (bfld b 80 2) nsym else []
  let grids := gridsOf npath nsym stride syms
  let n := if good then 4 * nsc else 0
  let expN := if good then npath * nsym else 0
  let ins := (grids.map fun o => (p 16 + o, n)) ++ (grids.map fun o => (p 32 + o, n)) ++ [(p 24, expN), (p 40, 128)]
  let mask := bfld b 80 2
  let sinr := if good then nsc / 12 * 2 else 0
  [(16, chunksGood e (p 16) grids n), (24, ptrUsed e (p 24) 0 expN 1), (32, chunksGood e (p 32) grids n),
   (40, ptrUsed e (p 40) 0 128 4), (48, chunksGood e (p 48) (syms.map (· * stride)) n && chunksApart (p 48) (syms.map (· * stride)) n ins),
   (56, (syms.all fun s => ptrUsed e (p 56) s 1 1) && decide (p 56 < 2 ^ 40) && chunksApart (p 56) syms 1 ins),
   (64, ptrUsed e (p 64) 0 sinr 1 && chunksApart (p 64) [0] sinr ins),
   (72, sizes.getD 0 false), (76, sizes.getD 1 false), (78, sizes.getD 2 false), (79, sizes.getD 3 false),
   (80, decide (mask < 2 ^ 14 ∧ (nsym = 12 → mask < 2 ^ 12))), (82, decide (bfld b 82 1 ≤ 2)), (83, decide (bfld b 83 1 ≤ 15)),
   (87, decide (bfld b 87 1 ≤ 1)), (88, zeroAt b 91 1), (92, zeroAt b 92 36)]

/-- σ²: the mean of the report's noise over the paths, or NOISE of the block (R186). -/
def eqNoise (b rep : List Byte) : Rat :=
  if bfld b 87 1 = 0 then ratMean ((List.range (bfld b 78 1)).map fun p => noiseVal rep (4 * p)) else noiseVal b 88

/-- FLOOR: M and E at bytes 84 to 86 (R186). -/
def eqFloor (b : List Byte) : Rat := noiseVal b 84

/-- One RE equalised: its estimates and received values by path (R187): z, and whether its denominator is below FLOOR. A quotient by 0
that FLOOR lets pass is free. -/
def eqPoint (b : List Byte) (sigma floor : Rat) (free : Cx) (h r : List Cx) : Cx × Bool :=
  let s := ratSum (h.map Cx.norm2)
  let z := Cx.sum (h.zipWith (fun x y => x.conj.mul y) r)
  if bfld b 82 1 = 2 then (z.scale (pow2 (-(bfld b 83 1 : Int))), false)
  else
    let den := if bfld b 82 1 = 1 then s + sigma else s
    if den < floor then (Cx.zero, true) else if den = 0 then (free, false) else (z.scale (1 / den), false)

/-- S / σ² of PRB k in units of 0.125 dB, the mean over its REs in all data symbols (R187); a logarithm or quotient that has no value is
free. -/
def eqSinr (sigma : Rat) (free : Nat → Nat) (powers : List (List Rat)) (k : Nat) : List Byte :=
  let l := powers.flatMap fun g => (g.drop (12 * k)).take 12
  let x := ratMean l / sigma
  toBytes 2 (if sigma = 0 ∨ x = 0 then free k % 65536 else (ofInt 16 (db8 x)).toNat)

/-- The work of EQUALISE. -/
def equaliseWork (_ : EngId) (w : Work) (b : List Byte) (stop : Option Nat) : Work × EngResult :=
  let p (o : Nat) : Nat := bfld b o 8
  let stride := bfld b 72 4
  let nsc := bfld b 76 2
  let npath := bfld b 78 1
  let nsym := bfld b 79 1
  let syms := maskSyms (bfld b 80 2) nsym
  let q := stopAt stop syms.length
  let (w, ex) := w.read 2 (p 24) (npath * nsym)
  let (w, rep) := w.read 4 (p 40) 128
  let sigma := eqNoise b rep
  let floor := eqFloor b
  let free (s i : Nat) : Nat := Config.numeric 24 (b.map (fun x => (x.toNat : Int)) ++ [(s : Int)]) (ex ++ rep) i
  let read (op base : Nat) (s : Nat) (exp : Nat → Int) (w : Work) : Work × List (Array Cx) :=
    (List.range npath).foldl (fun (st : Work × List (Array Cx)) i =>
      let r := st.1.read op (base + gridAt nsym stride i s) (4 * nsc)
      (r.1, st.2 ++ [((List.range nsc).map fun k => Cx.ofInts (iqAt r.2 k) (exp i)).toArray])) (w, [])
  let (w, powers, bad) := (syms.take q.1).zipIdx.foldl (fun (st : Work × List (List Rat) × List Nat) (u : Nat × Nat) =>
    let s := u.1
    let (w, r) := read 1 (p 16) s (fun i => sext 8 (eFld ex (i * nsym + s) 1)) { st.1 with unit := u.2 }
    let (w, h) := read 3 (p 32) s (fun i => sext 8 (eFld rep (64 + i * nsym + s) 1)) w
    let at_ (l : List (Array Cx)) (k : Nat) : List Cx := l.map fun a => (a[k]?).getD Cx.zero
    let z := (List.range nsc).map fun k => eqPoint b sigma floor ⟨freeRat (free s (2 * k)), freeRat (free s (2 * k + 1))⟩ (at_ h k) (at_ r k)
    let e := someExp (partsOf (z.map (·.1))) (free (64 + s) 0)
    let w := w.put 5 (p 48 + s * stride) (iqOut (z.map (·.1)) e)
    let w := w.put 6 (p 56 + s) [ofInt 8 e]
    (w, st.2.1 ++ [(List.range nsc).map fun k => ratSum ((at_ h k).map Cx.norm2)],
      st.2.2 ++ (z.zipIdx.filterMap fun x => if x.1.2 then some (x.2 / 12) else none))) (w, [], [])
  if q.2 then (w, ⟨3, q.1⟩)
  else
    let ill := min 65535 bad.eraseDups.length
    let w := { w with unit := syms.length }.put 7 (p 64) ((List.range (nsc / 12)).flatMap (eqSinr sigma (free 128) powers))
    (w, if ill = 0 then ⟨0, 0⟩ else ⟨0x50, ill⟩)

/-- EQUALISE. -/
def equaliseFn : EngFn := { len := 2, stops := true, checks := equaliseChecks, work := equaliseWork }

/-- CHEST (0x41): R181 to R185. -/
def execChest (n : Fin 24) (s : State) : Out := engRow (.eq n) 0x41 chestFn s

/-- EQUALISE (0x45): R186, R187. -/
def execEqualise (n : Fin 24) (s : State) : Out := engRow (.eq n) 0x45 equaliseFn s

end Sys2Proof.Machine
end

