-- ==== Sys2Proof/Machine/Fft.lean ====
section
/-! DEFINITION. The FFT/DFT engine (07_ridge_engines.md R178 to R180). Outputs are the exact transform, narrowed once; which of its two
exponents a scaled transform takes is a free value (log entry 20). -/

namespace Sys2Proof.Machine

/-- Transform functions. -/
inductive FftFunc where
  | demod
  | mod
  | dft
  deriving DecidableEq, Repr

/-- A transform size of DFT: 12 × 2^a 3^b 5^c, 12 to 3,240. -/
def dftSize (n : Nat) : Bool :=
  decide (12 ≤ n ∧ n ≤ 3240) && (List.range 9).any fun a => (List.range 6).any fun b => (List.range 4).any fun c =>
    decide (n = 12 * 2 ^ a * 3 ^ b * 5 ^ c)

/-- CP of symbol s. -/
def fftCp (b : List Byte) (s : Nat) : Nat := if s = 0 then bfld b 52 2 else bfld b 54 2

/-- First time sample of symbol s. -/
def fftStart (b : List Byte) (s : Nat) : Nat := ((List.range s).map fun i => bfld b 48 2 + fftCp b i).foldl (· + ·) 0

/-- Where symbol s of the input or output lies, and its length, in bytes; time or frequency side. -/
def fftSlice (f : FftFunc) (b : List Byte) (time : Bool) (s : Nat) : Nat × Nat :=
  match f with
  | .dft => (4 * bfld b 48 2 * s, 4 * bfld b 48 2)
  | _ => if time then (4 * fftStart b s, 4 * (bfld b 48 2 + fftCp b s)) else (4 * bfld b 56 2 * s, 4 * bfld b 56 2)

/-- PHASE_TAB is read: PHASE_EN of an OFDM function. -/
def fftPhase (f : FftFunc) (b : List Byte) : Bool := decide (f ≠ .dft) && decide (bfld b 51 1 % 2 = 1)

/-- Checks of R178. -/
def fftChecks (f : FftFunc) (_ : State) (e : EngId) (b : List Byte) : List (Nat × Bool) :=
  let n := bfld b 48 2
  let k := bfld b 50 1
  let dft := decide (f = .dft)
  let nOk := if dft then dftSize n else decide (n ∈ [128, 256, 512, 1024, 1536, 2048, 3072, 4096])
  let kOk := decide (1 ≤ k ∧ k ≤ 14)
  let size (time : Bool) : Nat := if !(nOk && kOk) then 1 else
    let l := fftSlice f b time (k - 1)
    l.1 + l.2
  let inB := size (decide (f = .demod))
  let outB := size (decide (f = .mod))
  let tab := if fftPhase f b && kOk then 4 * k else 0
  let p (o : Nat) : Nat := bfld b o 8
  let expB := if kOk then k else 1
  let fromIns (a m : Nat) : Bool := apart a m (p 16) inB && apart a m (p 40) tab
  let nsc := bfld b 56 2
  let adv := bfld b 58 2
  [(16, ptrUsed e (p 16) 0 inB 4), (24, ptrUsed e (p 24) 0 outB 4 && fromIns (p 24) outB),
   (32, ptrUsed e (p 32) 0 expB 1 && fromIns (p 32) expB), (40, ptrUsed e (p 40) 0 tab 1), (48, nOk), (50, kOk),
   (51, decide (bfld b 51 1 < if dft then 16 else 8)), (52, !dft || zeroAt b 52 2), (54, !dft || zeroAt b 54 2),
   (56, if dft then decide (nsc = 0) else decide (nsc % 2 = 0 ∧ nsc ≤ n)),
   (58, if dft then decide (adv = 0) else decide (adv ≤ bfld b 52 2 ∧ (1 < k → adv ≤ bfld b 54 2))),
   (60, decide (bfld b 60 1 ≤ 12)), (61, zeroAt b 61 3), (64, !dft || zeroAt b 64 4), (68, zeroAt b 68 60)]

/-- Bins of an OFDM symbol in increasing order (R179 step 4). -/
def fftBins (b : List Byte) : List Int :=
  let h : Int := (bfld b 56 2 / 2 : Nat)
  (List.range (bfld b 56 2)).map fun (i : Nat) =>
    let k := (i : Int) - h
    if 0 ≤ k ∧ bfld b 51 1 / 2 % 2 = 1 then k + 1 else k

/-- Angle of FSHIFT at time sample n of the command, in cycles. -/
def fftShift (b : List Byte) (n : Nat) : Rat := ((bfld b 64 4 * n : Nat) : Rat) / ((2 ^ 32 : Nat) : Rat)

/-- Bin k of the demodulated symbol s, whose samples are x; `ph` is its phase word's angle (R179). -/
def demodBin (b : List Byte) (s : Nat) (x : Array Cplx) (ph : Rat) (k : Int) : Cx :=
  let n := bfld b 48 2
  let first := fftCp b s - bfld b 58 2
  turnSum ((List.range n).map fun m =>
    ((x[first + m]?).getD (0, 0), ((k * ((bfld b 58 2 : Int) - m) : Int) : Rat) / (n : Rat) - fftShift b (fftStart b s + first + m) - ph))

/-- Sample i of the modulated symbol s, CP included, whose subcarriers are x (R179). -/
def modSample (b : List Byte) (s : Nat) (x : List Cplx) (ph : Rat) (i : Nat) : Cx :=
  let n := bfld b 48 2
  let m : Int := (i : Int) - fftCp b s
  turnSum ((fftBins b).zip x |>.map fun p =>
    (p.2, ((p.1 * m : Int) : Rat) / (n : Rat) + fftShift b (fftStart b s + i) + ph))

/-- Output k of a DFT of the samples x (R179). -/
def dftOut (b : List Byte) (x : List Cplx) (k : Nat) : Cx :=
  let n := bfld b 48 2
  turnSum (x.zipIdx.map fun p =>
    let t : Rat := ((k * p.2 : Nat) : Rat) / (n : Rat)
    (p.1, if bfld b 51 1 / 8 % 2 = 1 then t else -t))

/-- The exact outputs of a symbol or DFT, from its input bytes and its phase word (R179). -/
def fftExact (f : FftFunc) (b : List Byte) (s : Nat) (d ph : List Byte) : List Cx :=
  let x := (List.range (d.length / 4)).map (iqAt d)
  let a : Rat := (eFld ph 0 4 : Rat) / ((2 ^ 32 : Nat) : Rat)
  match f with
  | .demod => (fftBins b).map (demodBin b s x.toArray a)
  | .mod => (List.range (bfld b 48 2 + fftCp b s)).map (modSample b s x a)
  | .dft => (List.range (bfld b 48 2)).map (dftOut b x)

/-- One symbol or DFT: operands read, outputs and exponent written; whether it saturated (R180). -/
def fftOne (f : FftFunc) (b : List Byte) (st : Work × Nat) (s : Nat) : Work × Nat :=
  let i := fftSlice f b (decide (f = .demod)) s
  let o := fftSlice f b (decide (f = .mod)) s
  let (w, d) := { st.1 with unit := s }.read 1 (bfld b 16 8 + i.1) i.2
  let (w, ph) := if fftPhase f b then w.read 4 (bfld b 40 8 + 4 * s) 4 else (w, [])
  let fixed := decide (bfld b 51 1 / 4 % 2 = 1)
  let z := fftExact f b s d ph
  let exp : Int := if fixed then (bfld b 60 1 : Int)
    else someExp (partsOf z) (Config.numeric 22 (b.map fun x => (x.toNat : Int)) (d ++ ph) s % 2)
  let w := w.put 2 (bfld b 24 8 + o.1) (iqOut z exp)
  (w.put 3 (bfld b 32 8 + s) [ofInt 8 exp], st.2 + (fixed && anySat z exp).toNat)

/-- The work of a transform command. -/
def fftWork (f : FftFunc) (_ : EngId) (w : Work) (b : List Byte) (stop : Option Nat) : Work × EngResult :=
  let q := stopAt stop (bfld b 50 1)
  let r := (List.range q.1).foldl (fftOne f b) (w, 0)
  (r.1, if q.2 then ⟨3, q.1⟩ else if r.2 = 0 then ⟨0, 0⟩ else ⟨0x48, r.2⟩)

/-- A transform function of the engine. -/
def fftFn (f : FftFunc) : EngFn := { len := 2, stops := true, checks := fftChecks f, work := fftWork f }

/-- OFDM_DEMOD (0x21): R178 to R180. -/
def execOfdmDemod (n : Fin 24) (s : State) : Out := engRow (.fft n) 0x21 (fftFn .demod) s

/-- OFDM_MOD (0x25). -/
def execOfdmMod (n : Fin 24) (s : State) : Out := engRow (.fft n) 0x25 (fftFn .mod) s

/-- DFT (0x29). -/
def execDftOp (n : Fin 24) (s : State) : Out := engRow (.fft n) 0x29 (fftFn .dft) s

end Sys2Proof.Machine
end

