-- ==== Sys2Proof/Machine/Narrowband.lean ====
section
/-! DEFINITION. The narrowband burst engines (09_narrowband_engines.md R220 to R232). Waveforms, correlations and powers are computed;
the shape of the Gaussian pulse, the demodulated values and the estimates of offset and SINR are free (log entry 20). -/

namespace Sys2Proof.Machine

/-- A carrier's entry (R222, R232). -/
structure NbCarrier where
  en : Bool
  wave : Nat
  spsCode : Nat
  h : Nat
  bt : Nat
  thr : Nat
  capDb : Nat
  rate : Nat

/-- The entry of carrier c. -/
def State.nbCarrier (s : State) (e : EngId) (c : Nat) : NbCarrier :=
  let f0 := s.reg (engA e (0x400 + 16 * c))
  let f1 := s.reg (engA e (0x404 + 16 * c))
  { en := bit f0 0, wave := fld f0 2 1, spsCode := fld f0 4 3, h := fld f0 16 8, bt := fld f0 23 17
    thr := max 1 (fld f1 7 0), capDb := fld f1 13 8, rate := (s.reg (engA e (0x408 + 16 * c))).toNat }

/-- The entry is enabled and valid (R222). -/
def NbCarrier.usable (c : NbCarrier) : Bool :=
  c.en && decide (c.wave ≠ 3 ∧ c.spsCode ≠ 3 ∧ (c.wave ≠ 0 → 64 ≤ c.h ∧ c.h ≤ 256 ∧ 30 ≤ c.bt ∧ c.bt ≤ 50 ∧ c.rate ≠ 0))

/-- Samples per symbol. -/
def NbCarrier.sps (c : NbCarrier) : Nat := 2 * 2 ^ c.spsCode

/-- Bits of a symbol. -/
def NbCarrier.bits (c : NbCarrier) : Nat := if c.wave = 2 then 2 else 1

/-- Parameters of a carrier. -/
def NbCarrier.params (c : NbCarrier) : List Int :=
  if c.wave = 0 then [0, c.spsCode] else [c.wave, c.spsCode, c.h, c.bt, c.rate]

/-! Waveforms (R222, R228) -/

/-- Symbol rate in symbol/s. -/
def NbCarrier.rs (c : NbCarrier) : Rat := if c.wave = 0 then 1625000 / 6 else (c.rate : Rat)

/-- Frequency levels of symbols from their bits, from symbol `o` on: ±1, or ±1 and ±3. GMSK is differentially encoded, and the modulator
acts as if ones had gone before and followed (TS 45.004 clauses 2.2, 2.3). -/
def NbCarrier.levels (c : NbCarrier) (l : List Bool) : List (Int × Int) :=
  let number (o : Int) (m : List Int) : List (Int × Int) := m.zipIdx.map fun p => (o + p.2, p.1)
  match c.wave with
  | 0 =>
    let d := List.replicate 9 true ++ l ++ List.replicate 8 true
    number (-8) ((d.drop 1).zipWith (fun a b => if a = b then 1 else -1) d)
  | 1 => number 0 (l.map fun b => if b then -1 else 1)
  | _ => number 0 ((List.range (l.length / 2)).map fun i =>
      match l.getD (2 * i) false, l.getD (2 * i + 1) false with
      | false, true => 3
      | false, false => 1
      | true, false => -1
      | true, true => -3)

/-- Cycles that a level of 1 turns the phase by. -/
def NbCarrier.turn (c : NbCarrier) : Rat :=
  match c.wave with
  | 0 => 1 / 4
  | 1 => (c.h : Rat) / 512
  | _ => (c.h : Rat) / 1536

/-- Phase in cycles at a sample, of levels; sample 0 has phase 0. -/
def NbCarrier.phase (c : NbCarrier) (m : List (Int × Int)) (n : Nat) : Rat :=
  let bt := if c.wave = 0 then 30 else c.bt
  let at_ (n : Int) : Rat := ratSum (m.map fun p =>
    (p.2 : Rat) * c.turn * (Config.gaussPulse bt c.sps (n - p.1 * c.sps) : Rat) / ((2 ^ 32 : Nat) : Rat))
  at_ n - at_ 0

/-- Training sequences of GSM bursts (TS 45.002 clauses 5.2.3, 5.2.5, 5.2.7). -/
def gsmSync (sync tsc : Nat) : List Bool :=
  match sync with
  | 0 => msbBits 26 ([0x970897, 0xB778B7, 0x10EE90E, 0x11ED11E, 0x6B906B, 0x13AC13A, 0x29F629F, 0x3BC4BBC].getD tsc 0)
  | 1 => msbBits 41 0x96FF335478
  | _ => msbBits 64 0xB962040F2D45761B

/-! BURST_RX -/

/-- Geometry of a burst (R223): symbols, sync symbols, payload symbols. -/
def burstGeom (b : List Byte) : Nat × Nat × Nat :=
  match bfld b 55 1 with
  | 0 => (148, 26, 116)
  | 1 => (88, 41, 36)
  | 2 => (148, 64, 78)
  | _ => (bfld b 58 2 + bfld b 56 1 + bfld b 60 2 - bfld b 62 2, bfld b 56 1, bfld b 60 2)

/-- First sync symbol of a burst. -/
def burstSync (b : List Byte) : Nat :=
  match bfld b 55 1 with
  | 0 => 61
  | 1 => 8
  | 2 => 42
  | _ => bfld b 58 2

/-- Bytes of the custom sync sequence. -/
def syncBytes (k : NbCarrier) (b : List Byte) : Nat := if bfld b 55 1 = 3 then ceilDiv (bfld b 56 1 * k.bits) 8 else 0

/-- Checks of BURST_RX; the carrier last, at 0xFFFF. -/
def burstRxChecks (s : State) (e : EngId) (b : List Byte) : List (Nat × Bool) :=
  let p (o : Nat) : Nat := bfld b o 8
  let k := s.nbCarrier e (bfld b 48 2)
  let sync := bfld b 55 1
  let custom := decide (sync = 3)
  let tsc := bfld b 56 1
  let n := bfld b 50 2
  let rec_ := bfld b 57 1
  let stride := bfld b 64 2
  let llrs := (burstGeom b).2.2 * k.bits
  let srch := bfld b 54 1
  let pos := bfld b 58 2
  let pay := bfld b 60 2
  let pre := bfld b 62 2
  let recOk := decide (1 ≤ rec_ ∧ rec_ ≤ 8)
  let nOk := decide (64 ≤ n ∧ n ≤ 8192)
  let inB := if nOk then 4 * n else 1
  let outB := if recOk then (rec_ - 1) * stride + llrs else 1
  let resB := if recOk then 32 * rec_ else 1
  let fromIns (a m : Nat) : Bool := apart a m (p 16) inB && apart a m (p 40) (syncBytes k b)
  [(16, ptrUsed e (p 16) 0 inB 4), (24, ptrUsed e (p 24) 0 outB 4 && fromIns (p 24) outB),
   (32, ptrUsed e (p 32) 0 resB 4 && fromIns (p 32) resB), (40, ptrUsed e (p 40) 0 (syncBytes k b) 1),
   (48, decide (bfld b 48 2 < 128)), (50, nOk), (54, decide (srch ≤ 64 ∨ srch = 255)), (55, decide (sync ≤ 3 ∧ (sync ≠ 3 → k.wave = 0))),
   (56, if custom then decide (8 ≤ tsc ∧ tsc ≤ 64) else if sync = 0 then decide (tsc ≤ 7) else decide (tsc = 0)), (57, recOk),
   (58, if custom then decide (pre ≤ pos) else decide (pos = 0)), (60, if custom then decide (8 ≤ pay ∧ pay ≤ 512) else decide (pay = 0)),
   (62, if custom then decide (pre ≤ pay) else decide (pre = 0)), (64, decide (stride % 4 = 0 ∧ llrs ≤ stride)), (66, zeroAt b 66 62),
   (0xFFFF, k.usable)]

/-- A window as a BURST_RX sees it: its samples, the sync sequence's waveform, and free values by purpose and place. -/
structure BurstIn where
  k : NbCarrier
  b : List Byte
  rx : Array Cplx
  ref : List Cplx
  free : Nat → Nat → Nat

/-- The window of the operands read; the sync sequence is modulated as BURST_TX modulates. -/
def burstIn (k : NbCarrier) (b d sq : List Byte) : BurstIn :=
  let bits := if bfld b 55 1 = 3 then (bitsIn sq).take (bfld b 56 1 * k.bits) else gsmSync (bfld b 55 1) (bfld b 56 1)
  let m := k.levels bits
  { k := k, b := b
    rx := ((List.range (d.length / 4)).map (iqAt d)).toArray
    ref := (List.range ((burstGeom b).2.1 * k.sps)).map fun n => cis (k.phase m n)
    free := fun purpose i => Config.numeric 25 (k.params ++ b.map (fun x => (x.toNat : Int)) ++ [(purpose : Int)]) (d ++ sq) i }

/-- Samples under the sync sequence of a burst at position x. -/
def BurstIn.under (v : BurstIn) (x : Nat) : List Cplx :=
  (List.range v.ref.length).map fun i => (v.rx[x + v.k.sps * burstSync v.b + i]?).getD (0, 0)

/-- Energy received over the sync symbols. -/
def BurstIn.energy (v : BurstIn) (x : Nat) : Nat := ((v.under x).map fun z => (z.1 * z.1 + z.2 * z.2).toNat).foldl (· + ·) 0

/-- The normalised correlation |c|² / (E_seq E_rx) of R224; with no energy it is not stated. -/
def BurstIn.corr (v : BurstIn) (x : Nat) : Rat :=
  let c := csum (v.ref.zipWith (fun s z => (z.1 * s.1 + z.2 * s.2, z.2 * s.1 - z.1 * s.2)) (v.under x))
  if v.energy x = 0 then (v.free 0 x % 2 : Nat)
  else ((c.1 * c.1 + c.2 * c.2 : Int) : Rat) / ((2 ^ 128 * v.ref.length * v.energy x : Nat) : Rat)

/-- P: the mean received power over the sync symbols in units of 0.125 dB (R224); that of no power is not stated. -/
def BurstIn.power (v : BurstIn) (x : Nat) : Int :=
  if v.energy x = 0 ∨ v.ref = [] then sext 16 (v.free 1 x) else db8 ((v.energy x : Rat) / (v.ref.length : Rat))

/-- What a scan has found: the current burst and its power, bursts abandoned with the position that captured each, detections
ignored, whether the search range held a detection. -/
structure Scan where
  cur : Option (Nat × Int) := none
  lost : List (Nat × Int × Nat) := []
  ignored : Nat := 0
  seen : Bool := false

/-- One position is scanned (R224). -/
def scanOne (v : BurstIn) (sc : Scan) (x : Nat) : Scan :=
  let b := v.b
  let k := v.k
  let g := burstGeom b
  let n := bfld b 50 2
  let len := k.sps * g.1
  let visible := decide (x + k.sps * (burstSync b + g.2.1) ≤ n)
  let fits (x : Nat) : Bool := decide (x + len ≤ n)
  let half := bfld b 54 1 * k.sps
  let expect := bfld b 52 2
  let inRange := decide (bfld b 54 1 = 255 ∨ expect ≤ x + half ∧ x ≤ expect + half)
  if !visible || !decide ((k.thr : Rat) / 256 ≤ v.corr x) then sc
  else
    match sc.cur with
    | none =>
      if !inRange then sc
      else if !fits x then { sc with ignored := sc.ignored + 1, seen := true }
      else
        let best := (List.range k.sps).foldl (fun t i => if fits (x + i) && decide (v.corr t < v.corr (x + i)) then x + i else t) x
        { sc with cur := some (best, v.power best), seen := true }
    | some (t, p) =>
      if x ≤ t ∨ t + len ≤ x then sc
      else if fits x && decide (k.capDb ≠ 0 ∧ sc.lost.length + 1 < bfld b 57 1 ∧ 4 * (k.capDb : Int) ≤ v.power x - p) then
        { sc with cur := some (x, v.power x), lost := sc.lost ++ [(t, p, x)] }
      else { sc with ignored := sc.ignored + 1 }

/-- A frequency offset report: a free estimate, within ±Rs / (2 LS), beyond which offsets alias (R227). -/
def BurstIn.cfo (v : BurstIn) (purpose x : Nat) : List Byte :=
  let l := (v.k.rs * 5 / ((burstGeom v.b).2.1 : Rat)).floor
  toBytes 4 (ofInt 32 ((v.free purpose (16 * x) : Int) % (2 * l + 1) - l)).toNat

/-- A result record (R227). -/
def nbRecord (rstat by_ : Nat) (t : Nat) (cfo : List Byte) (sinr : List Byte) (p : Int) (nout nsym : Nat) : List Byte :=
  toBytes 2 rstat ++ toBytes 2 by_ ++ toBytes 4 (16 * t) ++ cfo ++ sinr ++ toBytes 2 (ofInt 16 p).toNat ++ toBytes 2 nout ++
    toBytes 2 nsym ++ List.replicate 12 0

/-- The records of a scan's bursts (R224, R227), the burst demodulated last with its LLRs. -/
def burstRecords (w : Work) (b : List Byte) (v : BurstIn) (sc : Scan) (t : Nat) (pw : Int) : Work :=
  let p (o : Nat) : Nat := bfld b o 8
  let sinr (purpose x : Nat) : List Byte := toBytes 2 (v.free purpose (16 * x + 1))
  let w := sc.lost.zipIdx.foldl (fun (w : Work) q =>
    let (t0, p0, x) := q.1
    w.write 3 (p 32 + 32 * q.2)
      (wholeBytes (nbRecord 1 (q.2 + 1) t0 (v.cfo 2 t0) (sinr 2 t0) p0 0 (ceilDiv (x - t0) v.k.sps))) true) w
  let j := sc.lost.length
  let llrs := (burstGeom b).2.2 * v.k.bits
  let w := w.put 2 (p 24 + j * bfld b 64 2) (llrOut ((List.range llrs).map fun i => BitVec.ofNat 8 (v.free 4 i)))
  w.put 3 (p 32 + 32 * j) (nbRecord 0 0xFFFF t (v.cfo 3 t) (sinr 3 t) pw llrs (burstGeom b).1)

/-- The work of BURST_RX: after a failed read nothing is scanned (R165). -/
def burstRxWork (e : EngId) (w : Work) (b : List Byte) (_ : Option Nat) : Work × EngResult :=
  let k := w.job.s.nbCarrier e (bfld b 48 2)
  let (w, d) := w.read 1 (bfld b 16 8) (4 * bfld b 50 2)
  let (w, sq) := w.read 4 (bfld b 40 8) (syncBytes k b)
  if !w.live then (w, ⟨0, 0⟩)
  else
    let v := burstIn k b d sq
    let sc := (List.range (bfld b 50 2)).foldl (scanOne v) {}
    let w := { w with ignored := sc.ignored }
    match sc.cur with
    | none => (w, if sc.seen then ⟨0, 0⟩ else ⟨0x60, 0⟩)
    | some (t, pw) => (burstRecords w b v sc t pw, ⟨0, sc.lost.length + 1⟩)

/-- BURST_RX. -/
def burstRxFn : EngFn := { len := 2, checks := burstRxChecks, work := burstRxWork }

/-! BURST_TX -/

/-- Checks of BURST_TX (R228); the carrier last. -/
def burstTxChecks (s : State) (e : EngId) (b : List Byte) : List (Nat × Bool) :=
  let p0 := bfld b 16 8
  let p1 := bfld b 24 8
  let k := s.nbCarrier e (bfld b 32 2)
  let n := bfld b 34 2
  let nOk := decide (8 ≤ n ∧ n ≤ 1024)
  let inB := if nOk then ceilDiv (n * k.bits) 8 else 1
  let outB := if nOk && k.usable then 4 * n * k.sps else 1
  [(16, ptrUsed e p0 0 inB 1), (24, ptrUsed e p1 0 outB 4 && apart p1 outB p0 inB), (32, decide (bfld b 32 2 < 128)), (34, nOk),
   (38, decide (bfld b 38 1 ≤ 8 ∧ 2 * bfld b 38 1 ≤ n)), (39, zeroAt b 39 25), (0xFFFF, k.usable)]

/-- The raised-cosine amplitude of sample n: up over the first RAMP symbols, down over the last, between 0 and 1 (R228). -/
def rampAt (k : NbCarrier) (nsym ramp n : Nat) : Rat :=
  let r := ramp * k.sps
  let j := min n (nsym * k.sps - 1 - n)
  if r ≤ j then 1 else (1 - ((cis ((j : Rat) / (2 * r : Nat))).1 : Rat) / ((2 ^ 64 : Nat) : Rat)) / 2

/-- Sample n of a burst (R228). -/
def burstSample (k : NbCarrier) (m : List (Int × Int)) (nsym amp ramp n : Nat) : Cplx :=
  let c := cis (k.phase m n)
  let f (x : Int) : Int := satS 16 (nearly ((amp : Rat) * rampAt k nsym ramp n * (x : Rat) / ((2 ^ 64 : Nat) : Rat))).floor
  (f c.1, f c.2)

/-- The work of BURST_TX. -/
def burstTxWork (e : EngId) (w : Work) (b : List Byte) (_ : Option Nat) : Work × EngResult :=
  let k := w.job.s.nbCarrier e (bfld b 32 2)
  let n := bfld b 34 2
  let (w, d) := w.read 1 (bfld b 16 8) (ceilDiv (n * k.bits) 8)
  let m := k.levels ((bitsIn d).take (n * k.bits))
  (w.put 2 (bfld b 24 8) ((List.range (n * k.sps)).flatMap fun i => iqBytes (burstSample k m n (bfld b 36 2) (bfld b 38 1) i)), ⟨0, 0⟩)

/-- BURST_TX. -/
def burstTxFn : EngFn := { len := 1, checks := burstTxChecks, work := burstTxWork }

/-- BURST_RX (0xA1): R223 to R227. -/
def execBurstRx (r : Fin 4) (s : State) : Out := engRow (.nbe r) 0xA1 burstRxFn s

/-- BURST_TX (0xA5): R228. -/
def execBurstTx (r : Fin 4) (s : State) : Out := engRow (.nbe r) 0xA5 burstTxFn s

end Sys2Proof.Machine
end

