-- ==== Sys2Proof/Machine/Packets.lean ====
section
/-! DEFINITION. Transactions of initiator NIs as packets (11_leat_fabric.md R259 to R262, R265 to R268, R275): sending, the request at its
target, the response at its initiator, the response timeout; with them the messages to range engines. -/

namespace Sys2Proof.Machine

/-- SRC or DST, and its _EP bit, of an endpoint; a unit of the range infrastructure is a second target (R258). -/
def nodeBits (e : Nat) (infra : Bool) : Nat := epNode e + 64 * (decide (36 ≤ e) || infra).toNat

/-- The requester is a unit of the range infrastructure. -/
def infraReq : Requester → Bool
  | .engine e => e.ofRange
  | _ => false

/-- An address names the range infrastructure target of an HBM port node. -/
def infraAddr (p : Part) (a : Nat) : Bool :=
  match decodeAddr p a with
  | .block (.dpt _) _ => true
  | .block (.reng _) _ => true
  | _ => false

/-- A header from its fields (R259). -/
def header (ty : Nat) (epoch order vcs : Bool) (dst src payload status tid len addr m0 m1 : Nat) : BitVec 128 :=
  BitVec.ofNat 128 (ty + 2 ^ 4 * epoch.toNat + 2 ^ 5 * order.toNat + 2 ^ 6 * vcs.toNat + 2 ^ 8 * dst + 2 ^ 16 * src +
    2 ^ 24 * ((16 + payload + 127) / 128) + 2 ^ 26 * status + 2 ^ 32 * tid + 2 ^ 48 * len + 2 ^ 64 * addr + 2 ^ 104 * m0 + 2 ^ 112 * m1)

/-- Address that names the target of a transaction's request: of an engine message, the engine's registers. -/
def Txn.where_ (t : Txn) : Nat :=
  match t.carry with
  | .access => t.addr
  | .cmd e _ => e.base
  | .ctl m => m.eng.base

/-- ADDR of a transaction's request (R259, R260). -/
def Txn.addrField (t : Txn) : Nat :=
  match t.carry with
  | .access => t.addr
  | .cmd _ _ => 0
  | .ctl m => m.tag.toNat + 2 ^ 7 * m.cancel.toNat + 2 ^ 8 * (m.core.val % 8)

/-- The header of a transaction's request, as it leaves the network at its destination (R259 to R262). -/
def State.reqHeader (s : State) (t : Txn) : BitVec 128 :=
  let wr := decide (t.ty = 1)
  header t.ty t.epoch (t.via.getD false) (lastVc t.via (epNode t.init) (epNode t.dest)) (nodeBits t.dest (infraAddr s.part t.where_))
    (nodeBits t.init (infraReq t.req)) (if t.ty = 1 ∨ t.ty = 2 then t.len else 0) 0 t.tid t.len t.addrField
    (if wr then t.maskFirst.toNat else 0) (if wr then t.maskLast.toNat else 0)

/-- TYPE of the response to a request: RD_DATA, WR_ACK, or ENG_ACK to an engine message (R259, R260). -/
def respType (ty : Nat) : Nat := if ty < 2 then 8 + ty else 10

/-- The header of a transaction's response, as it leaves the network at its initiator. -/
def State.respHeader (s : State) (t : Txn) : BitVec 128 :=
  let n := if t.ty = 0 ∧ t.err = false then t.len else 0
  header (respType t.ty) t.respEpoch (t.respVia.getD false) (lastVc t.respVia (epNode t.dest) (epNode t.init)) (nodeBits t.init (infraReq t.req))
    (nodeBits t.dest (infraAddr s.part t.where_)) n t.err.toNat t.tid n 0 0 0

/-- Reserved TYPE, reserved STATUS or a reserved field that is not 0 (R260). -/
def malformed (h : BitVec 128) : Bool :=
  let f (hi lo : Nat) : Nat := fld h hi lo
  !decide (f 3 0 ∈ [0, 1, 2, 3, 8, 9, 10]) || decide (2 ≤ f 29 26) ||
    [(7, 7), (15, 15), (23, 23), (31, 30), (47, 42), (63, 57), (127, 120)].any (fun p => decide (f p.1 p.2 ≠ 0))

/-- The endpoint that a header's SRC or DST names. -/
def endpointAt (h : BitVec 128) (lo : Nat) : Nat :=
  let n := fld h (lo + 5) lo
  if fld h (lo + 6) (lo + 6) = 1 ∧ n = 6 then 36 else if fld h (lo + 6) (lo + 6) = 1 ∧ n = 7 then 37 else n

/-- A transaction of an initiator endpoint, by its identifier. -/
def State.txnOf (s : State) (init tid : Nat) : Option Txn := s.fabric.txns.find? fun t => decide (t.init = init ∧ t.tid = tid)

/-- A transaction removed: its credit and response slot return. -/
def State.dropTxn (s : State) (init tid : Nat) : State :=
  { s with fabric := { s.fabric with txns := s.fabric.txns.filter fun t => !decide (t.init = init ∧ t.tid = tid) } }

/-- A transaction changed. -/
def State.setTxn (s : State) (init tid : Nat) (f : Txn → Txn) : State :=
  { s with fabric := { s.fabric with txns := s.fabric.txns.map fun t => if t.init = init ∧ t.tid = tid then f t else t } }

/-- A transaction changed and made the last: the order of the list is that in which requests were sent, and responses after them. -/
def State.moveTxn (s : State) (t : Txn) (f : Txn → Txn) : State :=
  let u := s.dropTxn t.init t.tid
  { u with fabric := { u.fabric with txns := u.fabric.txns ++ [f t] } }

/-! Sending (R266, R267, R271 step 4) -/

/-- The bytes of a transaction's write, with the masks of its first and last byte. -/
def Txn.wbytes (t : Txn) : List WByte :=
  t.data.zipIdx.map fun p =>
    (p.1, (if p.2 = 0 then t.maskFirst else 0xFF) &&& (if p.2 + 1 = t.data.length then t.maskLast else 0xFF))

/-- What an access of a transaction does at its target. -/
def State.txnAt (s : State) (t : Txn) : State × Res :=
  if s.targetBusy t.addr then (s.targetHold t.addr, .held)
  else if t.ty = 0 then s.targetRead t.req t.addr t.len
  else s.targetWrite t.req t.addr t.wbytes

/-- The access ends at its requester. -/
def State.finish (s : State) (r : Res) : State :=
  { s with acc := match r with
    | .ok d => .ok d
    | .held => .held
    | _ => .busError }

/-- A request as its NI sends it to an endpoint: EPOCH and ORDER are stamped (R262, R271). -/
def State.stamp (s : State) (e : Nat) (t : Txn) : Txn :=
  { t with dest := e, st := .sent, epoch := s.niEpoch t.init, via := s.viaOf t.init e }

/-- A transaction taken up by its NI, in some standing. -/
def State.enqueue (s : State) (t : Txn) : State := { s with fabric := { s.fabric with txns := s.fabric.txns ++ [t] } }

/-- A reservation at an initiator's NI for an endpoint that is OPEN, FENCING or ASLEEP: sent, waiting in the order of issue, or held (R266,
R267). -/
def State.reserve (s : State) (t : Txn) (e : Nat) (held : Bool) : State :=
  if held then (s.holdFor e).enqueue { t with dest := e, st := .held }
  else s.enqueue (if s.niFree t.init && s.maySend t.init e then s.stamp e t else { t with dest := e, st := .waiting })

/-- A request at the NI of its requester: a failing decode is a bus error there, a target of the same node is served without a packet,
else it is sent, waits, is held or is refused by the state of its endpoint. -/
def State.request (s : State) (t : Txn) : State :=
  match s.reach t.req t.addr with
  | .fail => s.busError
  | .own => let q := s.txnAt t; q.1.finish q.2
  | .off e => s.refuse t.req e t.ty true
  | .fenced e => s.refuse t.req e t.ty false
  | .held e => { s.reserve t e true with acc := .held }
  | .send e => s.reserve t e false

/-- A waiting request is sent, in its turn, or turned back by what its endpoint has become; one whose port is now in its own node is served
there. -/
def State.resend (s : State) (t : Txn) : State :=
  match s.reach t.req t.where_ with
  | .send e =>
    let first := (s.fabric.txns.find? fun k => decide (k.init = t.init ∧ k.st = .waiting)) == some t
    if first && s.maySend t.init e then s.moveTxn t (s.stamp e) else s
  | .fail => (s.dropTxn t.init t.tid).busError
  | .own =>
    match s.txnAt t with
    | (u, .held) => u
    | (u, r) => (u.dropTxn t.init t.tid).finish r
  | _ => s

/-- A message to a range engine: the ridge NI of a core sends it over the fabric (R260, 05_command_queue.md R117). One that finds its
endpoint refusing, or not reached by the plan, goes no further (DESIGN CHOICE, log entry 125). -/
def State.sendMsg (s : State) (x : Fin 192) (c : Carry) : State :=
  let i := (Requester.core x).endpoint
  let t : Txn := { req := .core x, init := i, dest := 0, tid := s.freeTid i, ty := if c matches .cmd _ _ then 2 else 3, addr := 0
                   len := if c matches .cmd _ _ then 32 else 0, data := [], maskFirst := 0, maskLast := 0, epoch := false, respEpoch := false
                   carry := c, st := .waiting, late := false, lost := false, resp := [], err := false }
  match s.reach (.core x) t.where_ with
  | .send e => s.reserve t e false
  | .held e => s.reserve t e true
  | .off e => s.refused e t.ty
  | .fenced e => s.refused e t.ty
  | _ => s

/-- REQUEST_SEND: a request of a requester to its NI, or, where the identifier is that of a waiting request, that request in its turn
(R266). A write carries `data`; a read names `len` bytes. -/
def execRequestSend (req : Requester) (wr : Bool) (tid : BitVec 10) (a : Addr) (len : Fin 257) (data : List Byte) (m0 m1 : Byte) (s : State) : Out :=
  let n := if wr then data.length else len.val
  match s.txnOf req.endpoint tid.toNat with
  | some t => act s (t.st = .waiting) fun s => s.resend t
  | none =>
    act s (1 ≤ n ∧ n ≤ 256 ∧ a.toNat % 256 + n ≤ 256) fun s =>
      s.request { req := req, init := req.endpoint, dest := 0, tid := tid.toNat, ty := wr.toNat, addr := a.toNat, len := n,
                  data := if wr then data else [], maskFirst := m0, maskLast := m1, epoch := false, respEpoch := false,
                  st := .waiting, late := false, lost := false, resp := [], err := false }

/-! Packets at their destinations (R260) -/

/-- A malformed packet is dropped and reported; the transaction it belongs to has lost a packet. -/
def State.dropPacket (s : State) (h : BitVec 128) (init : Nat) : State :=
  let s := s.setTxn init (fld h 41 32) fun t => { t with lost := true }
  ((s.setRegBit (leatA 0xC) 3 true).leatLast (endpointAt h 8) (fld h 3 0) 2).leatErrEvent 1800

/-- No packet sent earlier by the same initiator endpoint to the same destination endpoint in the same epoch is still on its way (R266). -/
def State.inOrder (s : State) (t : Txn) : Bool :=
  t.there || (s.fabric.txns.find? fun k =>
    decide (k.init = t.init ∧ k.dest = t.dest ∧ k.st = .sent) && k.epoch == t.epoch && !k.there && !k.lost) == some t

/-- The transaction whose request a header names, where it may reach its target now: in order, over links that pass it (R266, R275). -/
def State.arrival (s : State) (h : BitVec 128) (ty : Nat) : Option Txn :=
  s.fabric.txns.find? fun t => decide (t.st = .sent ∧ t.ty = ty) && !t.lost && decide (s.reqHeader t = h) && s.inOrder t &&
    (t.there || s.pathClear t.via t.init t.dest)

/-- The target has answered a request: EPOCH and ORDER are stamped on the response. -/
def State.answered (s : State) (t : Txn) (data : List Byte) (err : Bool) : State :=
  s.moveTxn t fun k => { k with
    st := .answered, respEpoch := s.niEpoch t.dest, respVia := s.viaOf t.dest t.init, resp := data, err := err }

/-- A request packet reaches its target: the transaction it is the request of is served, or held there. -/
def State.serve (s : State) (h : BitVec 128) (ty : Nat) : State :=
  if malformed h then s.dropPacket h (endpointAt h 16)
  else match s.arrival h ty with
    | none => s
    | some t =>
      match s.txnAt t with
      | (u, .held) => u.setTxn t.init t.tid fun k => { k with there := true }
      | (u, .ok d) => u.answered t d false
      | (u, _) => u.answered t [] true

/-- A message packet that carries what is wanted reaches a range engine, which answers with ENG_ACK (R260). -/
def State.message (s : State) (h : BitVec 128) (ty : Nat) (want : Carry → Bool) (f : State → Carry → State) : State :=
  if malformed h then s.dropPacket h (endpointAt h 16)
  else match (s.arrival h ty).filter fun t => want t.carry with
    | none => s
    | some t => f (s.answered t [] false) t.carry

/-- No response answered earlier between the same endpoints in the same epoch is still on its way. -/
def State.backInOrder (s : State) (t : Txn) : Bool :=
  (s.fabric.txns.find? fun k =>
    decide (k.init = t.init ∧ k.dest = t.dest ∧ k.st = .answered) && k.respEpoch == t.respEpoch && !k.lost) == some t

/-- A response packet reaches its initiator: the transaction completes, or is discarded after its timeout (R266). An engine message has no
requester that waits. -/
def State.complete (s : State) (h : BitVec 128) (tys : List Nat) : State :=
  if malformed h then s.dropPacket h (endpointAt h 8)
  else match s.fabric.txns.find? (fun t => decide (t.st = .answered ∧ t.ty ∈ tys) && !t.lost && decide (s.respHeader t = h) &&
      s.backInOrder t && s.pathClear t.respVia t.dest t.init) with
    | none => s
    | some t =>
      let u := s.dropTxn t.init t.tid
      if t.late ∨ t.carry ≠ .access then u else u.finish (if t.err then .err else .ok t.resp)

/-- RD: a read request reaches its target. -/
def execRdReq (hdr : BitVec 128) (s : State) : Out := run s fun s => s.serve hdr 0

/-- WR: a write request reaches its target, with the bytes its initiator sent. -/
def execWrReq (hdr : BitVec 128) (s : State) : Out := run s fun s => s.serve hdr 1

/-- RD_DATA: a read response reaches its initiator. -/
def execRdData (hdr : BitVec 128) (s : State) : Out := run s fun s => s.complete hdr [0]

/-- WR_ACK: a write acknowledgement reaches its initiator; so does the ENG_ACK of an engine message (log entry 125). -/
def execWrAck (hdr : BitVec 128) (s : State) : Out := run s fun s => s.complete hdr [1, 2, 3]

/-- A request in the network has had no response in time (R266): its requester sees a bus error; credit and slot return with a late
response, or now where a packet was dropped. -/
def State.timeout (s : State) (t : Txn) : State :=
  let s := if t.lost then s.dropTxn t.init t.tid else s.setTxn t.init t.tid fun k => { k with late := true }
  let s := s.timedOut t.init t.ty
  if t.carry = .access then s.busError else s

/-- RESPONSE_TIMEOUT of a transaction of an initiator endpoint. -/
def execResponseTimeout (init : Fin 38) (tid : BitVec 10) (s : State) : Out :=
  match s.txnOf init.val tid.toNat with
  | none => .next s
  | some t => act s ((t.st = .sent ∨ t.st = .answered) ∧ t.late = false) fun s => s.timeout t

/-- HOST_REQUEST_TIMEOUT: a read request at the HIF for the host window has had no completion from the host in 50 ms
(18_events_host_management.md R420): it is answered as a bus error. -/
def execHostRequestTimeout (init : Fin 38) (tid : BitVec 10) (s : State) : Out :=
  match s.txnOf init.val tid.toNat with
  | none => .next s
  | some t =>
    act s (t.st = .sent ∧ t.ty = 0 ∧ decodeAddr s.part t.addr = .hostWindow) fun s =>
      (s.answered t [] true).raise 1971

end Sys2Proof.Machine
end

