-- ==== Sys2Proof/Machine/Polar.lean ====
section
/-! DEFINITION. Polar and CRC commands of the codec (07_ridge_engines.md R175, R176). The paths that a list decoder keeps, and how likely
they are, are free values: the spec names the algorithm and not its arithmetic (log entry 20). -/

namespace Sys2Proof.Machine

/-- The checks of bytes 32 to 63 of a polar command; a decoder has a list size. -/
def polarChecks (dec : Bool) (_ : State) (e : EngId) (b : List Byte) : List (Nat × Bool) :=
  let a := bfld b 32 2
  let n := bfld b 34 2
  let crc := bfld b 36 1
  let aOk := if crc = 0 then decide (1 ≤ a ∧ a ≤ 140) else decide (12 ≤ a ∧ a ≤ 1706)
  let inB := if dec then n else ceilDiv a 8
  let outB := ceilDiv (if dec then a else n) 8
  let p0 := bfld b 16 8
  let p1 := bfld b 24 8
  let list := bfld b 42 1
  [(16, ptrUsed e p0 0 inB (if dec then 4 else 1)), (24, ptrUsed e p1 0 outB 1 && apart p1 outB p0 inB),
   (32, aOk), (34, decide (1 ≤ n ∧ n ≤ 8192)), (36, decide (crc ≤ 2)), (37, decide (bfld b 37 1 < 32)),
   (38, decide (bfld b 38 1 = 0 ∨ bfld b 38 1 = 3)), (39, decide (bfld b 39 1 = 9 ∨ bfld b 39 1 = 10)),
   (42, if dec then decide (list ∈ [0, 1, 2, 4, 8]) else decide (list = 0)), (43, zeroAt b 43 21)]

/-- Parameters of polar coding. -/
def polarParams (b : List Byte) : List Int := [bfld b 32 2, bfld b 34 2, bfld b 36 1, bfld b 37 1, bfld b 38 1, bfld b 39 1, bfld b 40 2, bfld b 42 1]

/-- CRC type of a polar command. -/
def polarCrc (b : List Byte) : Nat × Nat :=
  crcType (match bfld b 36 1 with
    | 0 => 2
    | 1 => 4
    | _ => 5)

/-- The masked CRC of a segment's bits (R175). -/
def polarMask (b : List Byte) (l : List Bool) : List Bool :=
  msbBits (polarCrc b).1 (crcMasked (polarCrc b) (decide (bfld b 37 1 / 16 % 2 = 1)) (bfld b 40 2) l)

/-- The payload is split into two segments (SEG). -/
def polarSeg (b : List Byte) : Bool := decide (bfld b 37 1 / 4 % 2 = 1)

/-- The code of a segment: its bits with CRC, its share of E. -/
def polarCode (b : List Byte) : PolarCode :=
  let fl := bfld b 37 1
  let a := bfld b 32 2
  let e := bfld b 34 2
  { k := (if polarSeg b then ceilDiv a 2 else a) + (polarCrc b).1, e := if polarSeg b then e / 2 else e
    il := decide (fl % 2 = 1), bil := decide (fl / 2 % 2 = 1), npc := bfld b 38 1, wm := fl / 8 % 2, nmax := bfld b 39 1 }

/-- The segments of a payload; with an odd count the first starts with a 0 (TS 38.212 clause 6.3.1.2.1). -/
def polarSplit (b : List Byte) (l : List Bool) : List (List Bool) :=
  if polarSeg b then
    let h := ceilDiv l.length 2
    let m := List.replicate (2 * h - l.length) false ++ l
    [m.take h, m.drop h]
  else [l]

/-- Bits with whole bytes filled up by free bits: what the last byte of a polar output holds beyond them is not stated. -/
def fillByte (fn : Nat) (b : List Byte) (src : List Byte) (l : List Bool) : List WByte :=
  (bitsOut 0 (l ++ numBits fn (polarParams b ++ [-1]) src ((8 - l.length % 8) % 8))).2

/-- The work of POLAR_ENC. -/
def polarEncWork (_ : EngId) (w : Work) (b : List Byte) (_ : Option Nat) : Work × EngResult :=
  let (w, d) := w.read 1 (bfld b 16 8) (ceilDiv (bfld b 32 2) 8)
  let l := (bitsIn d).take (bfld b 32 2)
  let out := (polarSplit b l).flatMap fun m => (polarCode b).encode (m ++ polarMask b m)
  let out := out ++ List.replicate (bfld b 34 2 - out.length) false
  (w.write 2 (bfld b 24 8) (fillByte 20 b d out), ⟨0, 0⟩)

/-- The most likely path of a segment whose masked CRC passes, with its list index: the paths and their likelihoods are free values. -/
def polarPath (b : List Byte) (src : List Byte) (seg : Nat) : Option (Nat × List Bool) :=
  let n := if bfld b 42 1 = 0 then 8 else bfld b 42 1
  let k := (polarCode b).k - (polarCrc b).1
  let path (i : Nat) : List Bool := numBits 21 (polarParams b ++ [(seg : Int), i]) src ((polarCode b).k)
  let metric (i : Nat) : Nat := Config.numeric 21 (polarParams b ++ [(seg : Int), -2]) src i
  let good := (List.range n).filter fun i => decide ((path i).drop k = polarMask b ((path i).take k))
  (good.find? fun i => good.all fun j => decide (metric j ≤ metric i)).map fun i => (i, (path i).take k)

/-- The work of POLAR_DEC: the payload of the most likely path whose CRC passes, or none. With two segments both must have one, and
whose list index DETAIL holds is not stated. -/
def polarDecWork (_ : EngId) (w : Work) (b : List Byte) (_ : Option Nat) : Work × EngResult :=
  let (w, d) := w.read 1 (bfld b 16 8) (bfld b 34 2)
  let src := llrOut d
  let put (l : List Bool) (i : Nat) : Work × EngResult :=
    (w.write 2 (bfld b 24 8) (fillByte 21 b src (l.drop (l.length - bfld b 32 2))), ⟨0, i⟩)
  if polarSeg b then
    let e := bfld b 34 2 / 2
    match polarPath b (src.take e) 0, polarPath b ((src.drop e).take e) 1 with
    | some p, some q => put (p.2 ++ q.2) (if Config.numeric 21 (polarParams b ++ [-3]) src 0 % 2 = 0 then p.1 else q.1)
    | _, _ => (w, ⟨0x41, 0⟩)
  else
    match polarPath b src 0 with
    | some p => put p.2 p.1
    | none => (w, ⟨0x41, 0⟩)

/-- Checks of a CRC command. -/
def crcChecks (_ : State) (e : EngId) (b : List Byte) : List (Nat × Bool) :=
  let n := bfld b 32 4
  let ty := bfld b 36 1
  let mode := bfld b 37 1
  let l := (crcType ty).1
  let p0 := bfld b 16 8
  let p1 := bfld b 24 8
  let good := decide (1 ≤ n ∧ n < 2 ^ 24 ∧ ty ≤ 5 ∧ mode ≤ 2)
  let inB := if good then ceilDiv n 8 else 1
  let outB := if good && decide (mode = 2) then ceilDiv (n + l) 8 else 4
  let masked := decide (mode = 2) && decide ((n + l) % 8 ≠ 0) && inTile p1
  [(16, ptrUsed e p0 0 inB 1),
   (24, ptrUsed e p1 0 outB 1 && !masked && (apart p1 outB p0 inB || decide (mode = 2 ∧ p0 = p1))),
   (32, decide (1 ≤ n ∧ n < 2 ^ 24 ∧ (mode = 1 → l ≤ n))), (36, decide (ty ≤ 5)), (37, decide (mode ≤ 2)),
   (38, decide (bfld b 38 1 < 2)), (39, zeroAt b 39 1), (42, zeroAt b 42 22)]

/-- The work of CRC: COMPUTE, CHECK, ATTACH. -/
def crcWork (_ : EngId) (w : Work) (b : List Byte) (_ : Option Nat) : Work × EngResult :=
  let n := bfld b 32 4
  let ty := crcType (bfld b 36 1)
  let mode := bfld b 37 1
  let p1 := bfld b 24 8
  let (w, d) := w.read 1 (bfld b 16 8) (ceilDiv n 8)
  let bits := (bitsIn d).take n
  let data := if mode = 1 then bits.take (n - ty.1) else bits
  let crc := crcMasked ty (decide (bfld b 38 1 = 1)) (bfld b 40 2) data
  if mode = 2 then
    let x := bitsOut 0 (data ++ msbBits ty.1 crc)
    (w.write 2 (p1 + x.1) x.2, ⟨0, 0⟩)
  else
    let w := w.put 2 p1 (toBytes 4 crc)
    (w, if mode = 1 ∧ bits.drop (n - ty.1) ≠ msbBits ty.1 crc then ⟨0x42, 0⟩ else ⟨0, 0⟩)

/-- The polar functions of the engine. -/
def polarFn (dec : Bool) : EngFn :=
  { len := 1, checks := polarChecks dec, work := if dec then polarDecWork else polarEncWork }

/-- POLAR_ENC (0x09): R175. -/
def execPolarEnc (n : Fin 24) (s : State) : Out := engRow (.codec n) 0x09 (polarFn false) s

/-- POLAR_DEC (0x0D): R175. -/
def execPolarDec (n : Fin 24) (s : State) : Out := engRow (.codec n) 0x0D (polarFn true) s

/-- The CRC function of the engine. -/
def crcFn : EngFn := { len := 1, checks := crcChecks, work := crcWork }

/-- CRC (0x11): R176. -/
def execCrcOp (n : Fin 24) (s : State) : Out := engRow (.codec n) 0x11 crcFn s

end Sys2Proof.Machine
end

