-- ==== Sys2Proof/Machine/RegRows.lean ====
section
/-! DEFINITION. The commands that are writes of registers, and the fire of a comparator. Each write is a word written by a requester
under the rules of Machine/RegWrite.lean. -/

namespace Sys2Proof.Machine

/-- A 32-bit word from a number. -/
def w32 (n : Nat) : Word := BitVec.ofNat 32 n

/-- A bit as a word with that bit set. -/
def bitWord (i : Nat) (b : Bool) : Word := setBit 0 i b

/-- A store as a command. -/
def storeCmd (req : Requester) (a : Nat) (v : Word) (s : State) : Out := run s fun s => s.store req a v

/-- REGISTER_WRITE of a word at an address (R6, R8). -/
def execRegisterWrite (req : Requester) (a : Addr) (v : Word) (s : State) : Out :=
  storeCmd req (a.toNat / 4 * 4) v s

/-- LOCK_SET of the block that holds an address (R7). -/
def execLockSet (req : Requester) (a : Addr) (s : State) : Out :=
  match decodeAddr s.part a.toNat with
  | .block b _ =>
    match lockOff b with
    | some l => storeCmd req (b.at l) 1 s
    | none => .next s
  | _ => .next s

/-! Timebase (02_device_time.md) -/

/-- TB_CAP (R50). -/
def execTbCap (req : Requester) (s : State) : Out := storeCmd req (tbA 0x18) 1 s

/-- TICK_DIV_WRITE (R42). -/
def execTickDivWrite (req : Requester) (v : Word) (s : State) : Out := storeCmd req (tbA 0x70) v s

/-- COMPARATOR_ARM: a CTL write with ARM set; the other bits are the operand's (R33, R35, R36). -/
def execComparatorArm (req : Requester) (c : CmpId) (v : Word) (s : State) : Out :=
  storeCmd req (c.base + 0xC) (setBit v 0 true) s

/-- COMPARATOR_DISARM: a CTL write with DISARM set and ARM clear (R33). -/
def execComparatorDisarm (req : Requester) (c : CmpId) (v : Word) (s : State) : Out :=
  storeCmd req (c.base + 0xC) (setBit (setBit v 0 false) 1 true) s

/-- TB_RATE_WRITE (R38). -/
def execTbRateWrite (req : Requester) (v : Word) (s : State) : Out := storeCmd req (tbA 0x40) v s

/-- STEP_GO; `load`: LOAD_AT_PPS in the same write (R39, R41). -/
def execStepGo (req : Requester) (load : Bool) (s : State) : Out := storeCmd req (tbA 0x58) (setBit 1 1 load) s

/-- STEP_LOAD_AT_PPS (R39). -/
def execStepLoadAtPps (req : Requester) (s : State) : Out := storeCmd req (tbA 0x58) 2 s

/-! Dispatchers (06_dispatcher.md) -/

/-- CS_DATA_WRITE (R130). -/
def execCsDataWrite (req : Requester) (r : Fin 4) (v : Word) (s : State) : Out := storeCmd req (dptA r 0x24) v s

/-- TCB_START of TCB t (R134). -/
def execTcbStart (req : Requester) (r : Fin 4) (t : BitVec 10) (s : State) : Out :=
  storeCmd req (dptA r 0x28) (w32 (t.toNat + 0x1000)) s

/-- TCB_KILL of TCB t (R134, R148). -/
def execTcbKill (req : Requester) (r : Fin 4) (t : BitVec 10) (s : State) : Out :=
  storeCmd req (dptA r 0x28) (w32 (t.toNat + 0x2000)) s

/-- TCB_RESTART of TCB t (R134). -/
def execTcbRestart (req : Requester) (r : Fin 4) (t : BitVec 10) (s : State) : Out :=
  storeCmd req (dptA r 0x28) (w32 (t.toNat + 0x3000)) s

/-- DPT_POST of a flag to TCB t (R135). -/
def execDptPost (req : Requester) (r : Fin 4) (t : BitVec 10) (flag : BitVec 5) (s : State) : Out :=
  storeCmd req (dptA r 0x30) (w32 (t.toNat + 1024 * flag.toNat)) s

/-- A store of core x to its self port (R157). -/
def selfStore (x : Fin 192) (o : Nat) (v : Word) (s : State) : Out := storeCmd (.core x) (dptA (coreRange x) o) v s

/-- OP_WAIT by the thread of core x (R136). -/
def execOpWait (x : Fin 192) (all : Bool) (s : State) : Out := selfStore x 0x7010 (setBit 1 4 all) s

/-- OP_WAIT_UNTIL by the thread of core x; the wake tick is DPT_SELF_ARG (R134, R136). -/
def execOpWaitUntil (x : Fin 192) (all : Bool) (s : State) : Out := selfStore x 0x7010 (setBit 2 4 all) s

/-- OP_SLEEP_UNTIL by the thread of core x (R134). -/
def execOpSleepUntil (x : Fin 192) (s : State) : Out := selfStore x 0x7010 3 s

/-- OP_YIELD by the thread of core x (R138). -/
def execOpYield (x : Fin 192) (s : State) : Out := selfStore x 0x7010 4 s

/-- OP_EXIT by the thread of core x (R134). -/
def execOpExit (x : Fin 192) (s : State) : Out := selfStore x 0x7010 5 s

/-- OP_DONE: op number op + 1 with its DONE bit (R146). -/
def execOpDone (x : Fin 192) (op : Fin 5) (all : Bool) (s : State) : Out :=
  selfStore x 0x7010 (setBit (w32 (op.val + 1 + 0x20)) 4 all) s

/-- SELF_DL_HI_WRITE by the thread of core x (R146). -/
def execSelfDlHiWrite (x : Fin 192) (v : Word) (s : State) : Out := selfStore x 0x701C v s

/-- SELF_LEVEL_WRITE by the thread of core x (R138). -/
def execSelfLevelWrite (x : Fin 192) (v : Word) (s : State) : Out := selfStore x 0x7038 v s

/-- LOCK_ENTER of lock l by the thread of core x (R149). -/
def execLockEnter (x : Fin 192) (l : BitVec 8) (s : State) : Out := selfStore x 0x7020 (l.setWidth 32) s

/-- LOCK_RELEASE of lock l at sequence number n, with DPT_SELF_REL_ARG (R150). -/
def execLockRelease (x : Fin 192) (l : BitVec 8) (n : BitVec 16) (s : State) : Out :=
  selfStore x 0x7028 (w32 (n.toNat + 2 ^ 16 * l.toNat)) s

/-- CORE_EN_WRITE (R160). -/
def execCoreEnWrite (req : Requester) (r : Fin 4) (hi : Bool) (v : Word) (s : State) : Out :=
  storeCmd req (dptA r (if hi then 0x14 else 0x10)) v s

/-- LOCK_CFG_WRITE of lock l (R152). -/
def execLockCfgWrite (req : Requester) (r : Fin 4) (l : BitVec 8) (v : Word) (s : State) : Out :=
  storeCmd req (lockA r l.toNat) v s

/-- LOCK_SEQ_WRITE of lock l (R159). -/
def execLockSeqWrite (req : Requester) (r : Fin 4) (l : BitVec 8) (v : Word) (s : State) : Out :=
  storeCmd req (lockA r l.toNat + 4) v s

/-! Beamforming arrays (08_beamforming_array.md) -/

/-- STREAM_WRITE of entry i (R193). -/
def execStreamWrite (req : Requester) (r : Fin 4) (i : BitVec 8) (v : Word) (s : State) : Out :=
  storeCmd req (bfaA r (0x1000 + 4 * i.toNat)) v s

/-- SEQ_START of channel h (R210). -/
def execSeqStart (req : Requester) (r : Fin 4) (h : Fin 4) (s : State) : Out := storeCmd req (seqA r h.val 0x20) 1 s

/-- SEQ_STOP of channel h (R212). -/
def execSeqStop (req : Requester) (r : Fin 4) (h : Fin 4) (s : State) : Out := storeCmd req (seqA r h.val 0x20) 2 s

/-- IMM_OP of entry e (R213). -/
def execImmOp (req : Requester) (r : Fin 4) (e : BitVec 9) (s : State) : Out := storeCmd req (bfaA r 0x10) (e.setWidth 32) s

/-- CELL_ACTIVATE of cell c (R208). -/
def execCellActivate (req : Requester) (r : Fin 4) (c : Fin 16) (s : State) : Out := storeCmd req (cellA r c.val 12) 0x10000 s

/-- FORCE_COLD_UL of cell c (R208). -/
def execForceColdUl (req : Requester) (r : Fin 4) (c : Fin 16) (s : State) : Out := storeCmd req (cellA r c.val 12) 0x20000 s

/-- FORCE_COLD_DL of cell c (R208). -/
def execForceColdDl (req : Requester) (r : Fin 4) (c : Fin 16) (s : State) : Out := storeCmd req (cellA r c.val 12) 0x40000 s

/-- CELL_CFG_WRITE of word w of cell c: CFG0, CFG1 or SETS (R208). -/
def execCellCfgWrite (req : Requester) (r : Fin 4) (c : Fin 16) (w : Fin 3) (v : Word) (s : State) : Out :=
  storeCmd req (cellA r c.val (4 * w.val)) v s

/-- BFA_ENABLE: BFA_CTL with EN set (R216). -/
def execBfaEnable (req : Requester) (r : Fin 4) (v : Word) (s : State) : Out := storeCmd req (bfaA r 4) (setBit v 0 true) s

/-! Memories (10_memory_protection.md) -/

/-- POOL_INIT of ridge n (R245). -/
def execPoolInit (req : Requester) (n : Fin 24) (banks : BitVec 16) (s : State) : Out :=
  storeCmd req (memA n.val 0xA4) (banks.setWidth 32) s

/-- Base of the injection registers of a memory (R252, R256). -/
def flipRegs : Option (Fin 24) → Nat
  | some n => memA n.val 0x100
  | none => Block.rsv.at 0x400

/-- POISON_WRITE: the high word, of ridge n's MEM_POISON, or of RSV_POISON; the low word is in its register (R245). -/
def execPoisonWrite (req : Requester) (n : Option (Fin 24)) (hi : Byte) (s : State) : Out :=
  storeCmd req (match n with
    | some n => memA n.val 0xB4
    | none => Block.rsv.at 0x304) (hi.setWidth 32) s

/-- FLIP_ARM: a write of MEM_FLIP_CTL of ridge n, or of RSV_FLIP_CTL, with ARM set (R252, R253). -/
def execFlipArm (req : Requester) (n : Option (Fin 24)) (v : Word) (s : State) : Out := storeCmd req (flipRegs n) (setBit v 0 true) s

/-- FLIP_DISARM: DISARM set and ARM clear (R253). -/
def execFlipDisarm (req : Requester) (n : Option (Fin 24)) (v : Word) (s : State) : Out :=
  storeCmd req (flipRegs n) (setBit (setBit v 0 false) 1 true) s

/-! Fabric manager (11_leat_fabric.md) -/

/-- GRANT_WRITE of a grant, or of an override entry (R265). -/
def execGrantWrite (req : Requester) (k : Fin 38 ⊕ Fin 64) (v : Word) (s : State) : Out :=
  storeCmd req (match k with
    | .inl e => leatA (0x200 + 4 * e.val)
    | .inr i => leatA (0x300 + 4 * i.val)) v s

/-- PLAN_VALIDATE: RANGES and VALID = 1 written to a plan's CFG (R270). -/
def execPlanValidate (req : Requester) (p : Fin 8) (ranges : BitVec 4) (s : State) : Out :=
  storeCmd req (leatA (0x400 + 4 * p.val)) (w32 (ranges.toNat + 0x100)) s

/-! Flumes (12_flume_engines.md) -/

/-- DOORBELL of a channel (R282, R283). -/
def execDoorbell (req : Requester) (f : FlumeId) (count : BitVec 16) (s : State) : Out :=
  storeCmd req (f.base + 0x20) (count.setWidth 32) s

/-- FLUME_DISABLE: FLM_CHCTL with EN clear (R293). -/
def execFlumeDisable (req : Requester) (f : FlumeId) (v : Word) (s : State) : Out := storeCmd req f.base (setBit v 0 false) s

/-- FLUME_ENABLE: FLM_CHCTL with EN set (R293). -/
def execFlumeEnable (req : Requester) (f : FlumeId) (v : Word) (s : State) : Out := storeCmd req f.base (setBit v 0 true) s

/-- FLUME_CFG_WRITE: one of RING_LO, RING_HI, RING_SIZE, HEAD, GATE (R293). -/
def execFlumeCfgWrite (req : Requester) (f : FlumeId) (k : Fin 5) (v : Word) (s : State) : Out :=
  storeCmd req (f.base + if k.val = 4 then 0x24 else 0x10 + 4 * k.val) v s

/-! Lanes and framing (13_fronthaul_lanes.md, 14_fronthaul_framing.md) -/

/-- RATE_WRITE: LN_CFG of a lane (R303). -/
def execRateWrite (req : Requester) (l : Fin 96) (v : Word) (s : State) : Out := storeCmd req (lnA l 0) v s

/-- FAMILY_WRITE of quad q of the device (R303). -/
def execFamilyWrite (req : Requester) (q : Fin 24) (v : Word) (s : State) : Out := storeCmd req (quadA q.val 0) v s

/-- TXEQ_WRITE of a lane (R309). -/
def execTxeqWrite (req : Requester) (l : Fin 96) (v : Word) (s : State) : Out := storeCmd req (lnA l 0x10) v s

/-- PRBS_CLEAR: LN_PRBS_CTL with CLR set (R314). -/
def execPrbsClear (req : Requester) (l : Fin 96) (v : Word) (s : State) : Out := storeCmd req (lnA l 0x30) (setBit v 8 true) s

/-- LANE_COUNTER_CLEAR (R319). -/
def execLaneCounterClear (req : Requester) (l : Fin 96) (s : State) : Out := storeCmd req (lnA l 0x40) 1 s

/-- LANE_PWR_REQ (R316). -/
def execLanePwrReq (req : Requester) (l : Fin 96) (state : BitVec 2) (s : State) : Out :=
  storeCmd req (lnA l 4) (state.setWidth 32) s

/-- Register that binds a user of lanes, entries or AxCs (R320, R324, R335): ETH_Pp_CFG, CPRI_Lk_CFG, TRK_Gg_LANES,
ECP_EAXCi_W0 or _W1, CPRI_AXCa. -/
def bindReg (h : Fin 4) (k : Fin 6) (i : Nat) : Nat :=
  match k with
  | 0 => ethA h (i % 24) 0
  | 1 => cpriA h (i % 12) 0
  | 2 => trkA h (i % 24) 4
  | 3 => hubA h 2 (0x9000 + 8 * (i % 384))
  | 4 => hubA h 2 (0x9004 + 8 * (i % 384))
  | _ => hubA h 3 (0x1000 + 16 * (i % 64))

/-- USER_BIND_WRITE of unit i of a kind (R320). -/
def execUserBindWrite (req : Requester) (h : Fin 4) (k : Fin 6) (i : BitVec 9) (v : Word) (s : State) : Out :=
  storeCmd req (bindReg h k i.toNat) v s

/-- SCHEDULE_ENABLE: FHH_SCHs_CFG with EN set (R330). -/
def execScheduleEnable (req : Requester) (h : Fin 4) (i : Fin 16) (v : Word) (s : State) : Out :=
  storeCmd req (schA h i.val 0) (setBit v 0 true) s

/-- TRUNK_GROUP_EN_WRITE: TRK_Gg_CFG (R342). -/
def execTrunkGroupEnWrite (req : Requester) (h : Fin 4) (g : Fin 24) (v : Word) (s : State) : Out := storeCmd req (trkA h g.val 0) v s

/-! Sluices (15_sluices_power.md) -/

/-- FORCE_WRITE: SLC_DOMd_CFG (R349). -/
def execForceWrite (req : Requester) (d : Fin 62) (v : Word) (s : State) : Out := storeCmd req (domCfg d.val) v s

/-- CLOCK_SEL_WRITE: SLC_RANGEr_CLK (R361). -/
def execClockSelWrite (req : Requester) (r : Fin 4) (v : Word) (s : State) : Out := storeCmd req (rangeClk r.val) v s

/-- HUB_LIMIT_WRITE: SLC_HUBh_LIM0 or _LIM1 (R365). -/
def execHubLimitWrite (req : Requester) (h : Fin 4) (hi : Bool) (v : Word) (s : State) : Out :=
  storeCmd req (slcA (0x500 + 8 * h.val + 4 * hi.toNat)) v s

/-! Start-up (16_startup_images_modes.md) -/

/-- FUSE_REVOKE (R381). -/
def execFuseRevoke (req : Requester) (keys : BitVec 4) (s : State) : Out := storeCmd req (bootA 0x8004) (keys.setWidth 32) s

/-- BOOT_MODE_WRITE (R385). -/
def execBootModeWrite (req : Requester) (v : Word) (s : State) : Out := storeCmd req (bootA 0x20) v s

/-- H2S_DOORBELL (18_events_host_management.md R423). -/
def execH2sDoorbell (req : Requester) (prod : BitVec 16) (s : State) : Out := storeCmd req (mbxA 0x10) (prod.setWidth 32) s

/-- S2H_DOORBELL (R423). -/
def execS2hDoorbell (req : Requester) (prod : BitVec 16) (s : State) : Out := storeCmd req (mbxA 0x14) (prod.setWidth 32) s

/-! Housekeeping (17_housekeeping_converters.md) -/

/-- DAC_IN_WRITE (R396). -/
def execDacInWrite (req : Requester) (c : Fin 8) (code : BitVec 16) (s : State) : Out := storeCmd req (dacA c 8) (code.setWidth 32) s

/-- DAC_STROBE of groups (R396). -/
def execDacStrobe (req : Requester) (groups : BitVec 4) (s : State) : Out := storeCmd req (hkA 0x10) (groups.setWidth 32) s

/-- DAC_QSTOP: QCFG as it stands, with QSTOP set (R398). -/
def execDacQstop (req : Requester) (c : Fin 8) (s : State) : Out := storeCmd req (dacA c 0x18) (setBit (s.reg (dacA c 0x18)) 31 true) s

/-- DAC_QCFG_WRITE: HKD_CHc_QCFG, or QPERIOD (R398). -/
def execDacQcfgWrite (req : Requester) (c : Fin 8) (period : Bool) (v : Word) (s : State) : Out :=
  storeCmd req (dacA c (if period then 0x1C else 0x18)) v s

/-- DAC_RANGE_WRITE: HKD_CHc_CTL as it stands, with RANGE set (R400). -/
def execDacRangeWrite (req : Requester) (c : Fin 8) (range : Bool) (s : State) : Out :=
  storeCmd req (dacA c 0) (setBit (s.reg (dacA c 0)) 6 range) s

/-- DAC_OUT_EN_WRITE: HKD_CHc_CTL as it stands, with OUT_EN set or clear (R392). -/
def execDacOutEnWrite (req : Requester) (c : Fin 8) (en : Bool) (s : State) : Out :=
  storeCmd req (dacA c 0) (setBit (s.reg (dacA c 0)) 7 en) s

/-- DAC_FORCE_SAFE of channels (R394). -/
def execDacForceSafe (req : Requester) (chans : BitVec 8) (s : State) : Out := storeCmd req (hkA 0x1C) (chans.setWidth 32) s

/-- DAC_RESUME of a channel (R395). -/
def execDacResume (req : Requester) (c : Fin 8) (s : State) : Out := storeCmd req (dacA c 0x20) 1 s

/-- TONE_FTW_WRITE (R401). -/
def execToneFtwWrite (req : Requester) (v : Word) (s : State) : Out := storeCmd req (hkA 0x20) v s

/-- ADC_URGENT of an input (R405). -/
def execAdcUrgent (req : Requester) (a : Fin 2) (input : BitVec 5) (s : State) : Out :=
  storeCmd req (adcA a 0xC) (input.setWidth 32) s

/-- ADC_REF_WRITE: HKA_a_CTL (R404). -/
def execAdcRefWrite (req : Requester) (a : Fin 2) (v : Word) (s : State) : Out := storeCmd req (adcA a 0) v s

/-! Events and the host port (18_events_host_management.md) -/

/-- ROUTE_WRITE of source i (R412). -/
def execRouteWrite (req : Requester) (i : BitVec 11) (v : Word) (s : State) : Out := storeCmd req (routeAddr i.toNat) v s

/-- SWEVT (R416). -/
def execSwevt (req : Requester) (v : Word) (s : State) : Out := storeCmd req (Block.evf.at 0x10) v s

/-- EVENT_COUNT_CLEAR (R426). -/
def execEventCountClear (req : Requester) (s : State) : Out := storeCmd req (Block.evf.at 0x14) 1 s

/-- MSIX_SIZE_WRITE of function f (R421). -/
def execMsixSizeWrite (req : Requester) (f : Fn) (v : Word) (s : State) : Out := storeCmd req (hifA (0x100 + 0x20 * f.val)) v s

/-! Comparators (02_device_time.md R34) -/

/-- The channels of a beamforming array before channel h. -/
def earlier (h : Fin 4) : List (Fin 4) := ([0, 1, 2, 3] : List (Fin 4)).filter fun g => decide (g < h)

/-- A comparator fires in its turn: a sequencer channel after the lower channels of its array that fire in the same cycle or before
(08_beamforming_array.md R211). -/
def State.cmpTurn (s : State) (c : CmpId) : Bool :=
  match c with
  | .seq r h => (earlier h).all fun g =>
      !(s.seqRun r g.val && s.cmpDue (.seq r g) && decide ((s.target (CmpId.seq r g).base).toNat ≤ (s.target c.base).toNat))
  | _ => true

end Sys2Proof.Machine
end

