-- ==== Sys2Proof/Machine/EngineRows.lean ====
section
/-! DEFINITION. What reaches an engine: commands, COMMIT and CANCEL (05_command_queue.md R117, R121 to R123; 11_leat_fabric.md R260);
enabling and disabling it (07_ridge_engines.md R168; 09_narrowband_engines.md R221). -/

namespace Sys2Proof.Machine

/-! Messages. A ridge engine has them by its ridge's command port. For a range engine the ridge NI takes them and sends packets over the
fabric: with a packet's header, that packet reaches the engine (R260; log entry 125). -/

/-- An accepted command joins the queue of its engine; a sleeping range engine is asked to wake (R117, R125). -/
def State.engJoin (s : State) (e : EngId) (c : EngCmd) : State :=
  let s := s.modEng e fun g => { g with queue := g.queue ++ [c], gated := false }
  if e.ofRange ∧ s.dom (52 + e.range) ≠ 0 then s.wakeReq (52 + e.range) else s

/-- ENGINE_COMMAND: the oldest command on its way to an engine reaches its front end, or, for a range engine, the ridge NI, which answers and
sends it on (R117, R123, R125); or an ENG_CMD packet reaches a range engine. -/
def execEngineCommand (m : EngMeet) (s : State) : Out :=
  let e := m.eng
  match m.packet with
  | some h => run s fun s =>
    s.message h 2 (fun c => match c with
      | .cmd k _ => decide (k = e)
      | _ => false) fun s c => match c with
      | .cmd _ c => s.engJoin e c
      | _ => s
  | none =>
    match s.engArrival e with
    | none => .next s
    | some m => act s (s.rfabOn e.range = true) fun s =>
      let s := { s with engSent := s.engSent.erase m }
      let a := s.engAnswer e m.cmd
      let s := { s with replies := s.replies ++ [⟨m.cmd.core, some e, a⟩] }
      if a.isSome then s
      else if e.ofRange then s.sendMsg m.cmd.core (.cmd e m.cmd)
      else s.engJoin e m.cmd

/-- COMMIT or CANCEL, as `cancel` says: the oldest on its way to an engine reaches it, or, for a range engine, the ridge NI, which sends it on;
or an ENG_CTRL packet reaches a range engine. -/
def State.control (s : State) (at_ : EngMeet) (cancel : Bool) (f : State → EngId → EngMsg → State) : Out :=
  let e := at_.eng
  match at_.packet with
  | some h => run s fun s =>
    s.message h 3 (fun c => match c with
      | .ctl m => decide (m.eng = e ∧ m.cancel = cancel)
      | _ => false) fun s c => match c with
      | .ctl m => f s e m
      | _ => s
  | none =>
    match s.engMsg e with
    | none => .next s
    | some m => act s (m.cancel = cancel) fun s =>
      if e.ofRange then (s.engTake m).sendMsg m.core (.ctl m) else f (s.engTake m) e m

/-- COMMIT reaches an engine (R121). -/
def execCommit (m : EngMeet) (s : State) : Out :=
  s.control m false fun s e m => s.engCommit e m.core m.tag

/-- CANCEL reaches an engine (R122). -/
def execCancel (m : EngMeet) (s : State) : Out :=
  s.control m true fun s e m => s.engCancel e m.core m.tag

/-- The function of an engine that a code names (R161, R220). -/
def engFnOf (e : EngId) (code : Nat) : Option EngFn :=
  match e, code with
  | .codec _, 0x01 => some (encFn false)
  | .codec _, 0x05 => some (decFn false)
  | .codec _, 0x09 => some (polarFn false)
  | .codec _, 0x0D => some (polarFn true)
  | .codec _, 0x11 => some crcFn
  | .fft _, 0x21 => some (fftFn .demod)
  | .fft _, 0x25 => some (fftFn .mod)
  | .fft _, 0x29 => some (fftFn .dft)
  | .eq _, 0x41 => some chestFn
  | .eq _, 0x45 => some equaliseFn
  | .turbo _, 0x81 => some (encFn true)
  | .turbo _, 0x85 => some (decFn true)
  | .nbe _, 0xA1 => some burstRxFn
  | .nbe _, 0xA5 => some burstTxFn
  | _, _ => none

/-- The command at the head was executing when EN was cleared, and stops after `k` units; one that pauses with its buffer full ends
ABORTED there, the unit whose write fills the buffer finished at least (R120, R168). -/
def State.engStop (s : State) (e : EngId) (k : Nat) : State :=
  match (s.eng e).running with
  | none =>
    match s.engHead e with
    | none => s
    | some c =>
      match engFnOf e c.func.toNat with
      | none => s
      | some f => if s.engMayRun e then s.engExec e c f (some k) else s
  | some (x, tag) =>
    match (s.eng e).later, s.engCmd e x tag with
    | w :: l, some c =>
      match engFnOf e c.func.toNat with
      | some f =>
        if f.stops then
          let n := max k (w.unit + 1)
          s.modEng e fun g => { g with later := (w :: l).filter fun v => decide (v.unit < n), result := some ⟨3, n⟩ }
        else s
      | none => s
    | _, _ => s

/-- ENGINE_DISABLE: a write of x_CTL with EN clear; `started`: a command was executing, and the units it finishes (R168). A write that is
refused stops nothing. -/
def execEngineDisable (req : Requester) (e : EngId) (started : Option Nat) (s : State) : Out :=
  run s fun s =>
    let a := engA e 4
    let v := setBit (s.reg a) 0 false
    let u := s.store req a v
    match started with
    | none => u
    | some k =>
      if u.acc = .ok [] ∧ s.engEn e = true then
        (s.engStop e k).store req a v
      else u

/-- ENGINE_ENABLE: a write of x_CTL with EN set (R168). -/
def execEngineEnable (req : Requester) (e : EngId) (v : Word) (s : State) : Out := storeCmd req (engA e 4) (setBit v 0 true) s

end Sys2Proof.Machine
end

