-- ==== Sys2Proof/Machine/FlumeData.lean ====
section
/-! DEFINITION. What a flume channel moves (12_flume_engines.md R282 to R294): descriptor fetches, write bursts, write-backs. A burst's
reads are made and its write is sent when it starts; the write is acknowledged by a command of its own. -/

namespace Sys2Proof.Machine

/-- The flume engine of a channel has voted to let its domain sleep and starts nothing new (15_sluices_power.md R355). -/
def State.flumeQuiet (s : State) : FlumeId → Bool
  | .ridge n _ => s.voted n.val 5
  | .hub h _ => s.voted (48 + h.val) 10
  | .host _ => false

/-- The channel is enabled, clocked, and may start new work. -/
def State.flumeMayWork (s : State) (f : FlumeId) : Bool := s.flumeOn f && s.flumeEn f && !s.flumeQuiet f

/-- The endpoint to which an access of a channel is sent; none within its own node. -/
def State.sentTo (s : State) (f : FlumeId) (a : Nat) : Option Nat :=
  match s.reach (.flume f) a with
  | .send e => some e
  | _ => none

/-- DESCRIPTOR_FETCH: a channel in FETCH reads the descriptor at FLM_HEAD; the fetch clears DB_PENDING (R282). -/
def execDescriptorFetch (f : FlumeId) (s : State) : Out :=
  act s (s.flumeMayWork f = true ∧ s.chState f = 3 ∧ (s.chan f).fetch = none) fun s =>
    let q := s.busRead (.flume f) (s.descAddr f) s.descSize
    match q.2 with
    | .held => q.1
    | .ok d => (q.1.setRegBit (f.base + 4) 4 false).modChan f fun c => { c with fetch := some (some d), ringDest := s.sentTo f (s.descAddr f) }
    | r =>
      let t := match r with
        | .fenced e => q.1.refused e 0
        | .off e => q.1.refused e 0
        | _ => q.1
      (t.setRegBit (f.base + 4) 4 false).modChan f fun c => { c with fetch := some none }

/-- DESCRIPTOR_RETURN: the fetched descriptor arrives (R282, R293, R297). -/
def execDescriptorReturn (f : FlumeId) (s : State) : Out :=
  match (s.chan f).fetch with
  | some d => act s (s.flumeOn f = true) fun s => s.flumeReturn f d
  | none => .next s

/-- Bytes of the next write burst (R285 to R287). -/
def State.burstLen (s : State) (f : FlumeId) (x : Desc) (started : Nat) : Nat :=
  let n := min 256 (x.count - started)
  let n := if x.trig = 2 then min n (32 * 2 ^ s.regFld f.base 9 8) else n
  if x.dstFixed then n else min n (256 - (x.dst + started) % 256)

/-- Destination of the next write burst. -/
def burstTo (x : Desc) (started : Nat) : Nat := if x.dstFixed then x.dst else x.dst + started

/-- The source read that the next burst still needs, address and length; none where the funnel holds its bytes. A source block is read once,
to its end or that of the transfer, but for a PERIPH transfer and for a fixed source, which read the burst's bytes only (R285 to R287; log
entry 126). -/
def State.burstFrom (s : State) (f : FlumeId) (x : Desc) : Option (Nat × Nat) :=
  let c := s.chan f
  let n := s.burstLen f x c.started
  let k := c.funnel.length
  if n ≤ k then none
  else
    let a := (if x.srcFixed then x.src else x.src + c.started) + k
    if x.srcFixed ∨ x.trig = 2 then some (a, n - k)
    else some (a, min (x.src + x.count) ((a + n - k + 255) / 256 * 256) - a)

/-- A burst's access was turned back, by an endpoint or as a bus error (R291, R294). -/
def State.burstRefused (s : State) (f : FlumeId) (r : Res) (ty : Nat) : State :=
  let refuse (e : Nat) (off : Bool) : State := if s.chanBusy f then s.refuse (.flume f) e ty off else s.refused e ty
  match r with
  | .fenced e => refuse e false
  | .off e => let t := s.dropUnsent f e; if t.chanBusy f then t.refuse (.flume f) e ty true else t.refused e ty
  | .err => s.chanEnd f (1 + ty)
  | _ => s

/-- A burst's write is sent: the burst is in flight until it is acknowledged. A PERIPH channel then samples its line again (R287, R297). -/
def State.burstSent (s : State) (f : FlumeId) (dest : Option Nat) (err : Nat) : State :=
  let s := s.modChan f fun c => { c with
    bursts := c.bursts.map fun b => if b.wait.isSome then { b with wait := none, err := err, dest := dest } else b }
  match (s.chan f).desc with
  | some x => if x.trig = 2 ∧ (s.chan f).started < x.count ∧ s.chState f = 6 then s.setChState f 5 else s
  | none => s

/-- The burst whose bytes have been read and whose write waits: where to, and what. -/
def State.unsent (s : State) (f : FlumeId) : Option (Nat × List Byte) := (s.chan f).bursts.findSome? (·.wait)

/-- The write of a burst whose bytes have been read is sent, or waits, or is refused (R291, R294). -/
def State.burstWrite (s : State) (f : FlumeId) : State :=
  match s.unsent f with
  | none => s
  | some (a, d) =>
    let q := s.busWrite (.flume f) a (wholeBytes d)
    match q.2 with
    | .held => q.1
    | .ok _ => q.1.burstSent f (s.sentTo f a) 0
    | .err => q.1.burstSent f (s.sentTo f a) 2
    | r => q.1.burstRefused f r 1

/-- A burst whose source bytes are there: it leaves the funnel, and its write is sent. -/
def State.burstMake (s : State) (f : FlumeId) (x : Desc) (read : List Byte) : State :=
  let c := s.chan f
  let n := s.burstLen f x c.started
  let all := c.funnel ++ read
  (s.modChan f fun c => { c with
    started := c.started + n, funnel := all.drop n
    bursts := c.bursts ++ [{ bytes := n, err := 0, wait := some (burstTo x c.started, all.take n) }] }).burstWrite f

/-- The channel starts a write burst of a descriptor: its reads feed the funnel and its write is sent (R285). -/
def State.burst (s : State) (f : FlumeId) (x : Desc) : State :=
  let s := s.setChState f 6
  match s.burstFrom f x with
  | none => s.burstMake f x []
  | some (a, n) =>
    match s.busRead (.flume f) a n with
    | (t, .ok d) => t.burstMake f x d
    | (t, r) => t.burstRefused f r 0

/-! Turns of the channels of an engine (R289) -/

/-- A channel can start a burst, or send the write of one. -/
def State.burstReady (s : State) (f : FlumeId) : Bool :=
  let c := s.chan f
  match c.desc with
  | none => false
  | some x =>
    (s.flumeOn f && (s.unsent f).isSome) ||
    (s.flumeMayWork f && decide (c.bursts.length < 4 ∧ c.status = 0) &&
      (decide (s.chState f = 6 ∧ c.started < x.count) || (decide (s.chState f = 5) && s.reqAsserted f)))

/-- The access that the channel makes next is held. -/
def State.burstHeld (s : State) (f : FlumeId) : Bool :=
  let held (a n : Nat) : Bool := match s.gate (.flume f) a n with
    | some (_, .held) => true
    | _ => false
  match s.unsent f, (s.chan f).desc with
  | some (a, d), _ => held a d.length
  | none, some x =>
    match s.burstFrom f x with
    | some (a, n) => held a n
    | none => held (burstTo x (s.chan f).started) (s.burstLen f x (s.chan f).started)
  | none, none => false

/-- Number of a channel's flume engine, and the channels of one engine. -/
def flumeEngine : FlumeId → Nat
  | .ridge n _ => n.val
  | .hub h _ => 24 + h.val
  | .host _ => 28

/-- The channels of a channel's engine, in order. -/
def flumePeers : FlumeId → List FlumeId
  | .ridge n _ => (List.finRange 16).map (FlumeId.ridge n)
  | .hub h _ => (List.finRange 32).map (FlumeId.hub h)
  | .host _ => (List.finRange 16).map FlumeId.host

/-- Group of a channel for its engine's turns: the engine, and FLM_CHCTL.PRIO. -/
def State.flumeGroup (s : State) (f : FlumeId) : Nat := 2 * flumeEngine f + (s.regBit f.base 4).toNat

/-- The engine serves the channel now: no channel of PRIO 1 comes before it, and in its group it is the next after the one served last. A
channel whose access is held has no turn to wait for: the access waits in the NI. -/
def State.flumeServes (s : State) (f : FlumeId) : Bool :=
  s.burstHeld f ||
  let l := (flumePeers f).filter fun g => s.burstReady g && !s.burstHeld g
  let g := l.filter fun k => decide (s.flumeGroup k = s.flumeGroup f)
  let last := sget (fun _ => 0) s.flumeTurn (s.flumeGroup f)
  let next := (g.find? fun k => decide (last < k.index + 1)).getD (g.headD f)
  (s.regBit f.base 4 || l.all fun k => !s.regBit k.base 4) && decide (next = f)

/-- BURST_START: a channel whose trigger allows it, in its turn, starts the next write burst, at most 4 in flight, or sends the write of one
that waited (R284 to R289, R294). A PERIPH channel in REQ_WAIT samples its request line; a transfer of no bytes ends there. -/
def execBurstStart (f : FlumeId) (s : State) : Out :=
  match (s.chan f).desc with
  | none => .next s
  | some x =>
    act s (s.burstReady f = true ∧ s.flumeServes f = true) fun s =>
      let s := if s.burstHeld f then s else { s with flumeTurn := sset (fun _ => 0) s.flumeTurn (s.flumeGroup f) (f.index + 1) }
      if (s.unsent f).isSome then s.burstWrite f
      else if x.count = 0 then s.setChState f 7
      else s.burst f x

/-- BURST_ACK: the oldest write burst in flight is acknowledged; bytes written without error count as moved (R290, R291). -/
def execBurstAck (f : FlumeId) (s : State) : Out :=
  match (s.chan f).bursts, (s.chan f).desc with
  | b :: bs, some x => act s (s.flumeOn f = true ∧ b.wait = none) fun s =>
    let ok := decide (b.err = 0)
    let s := s.modChan f fun c => { c with
      bursts := bs
      moved := if ok then c.moved + b.bytes else c.moved
      total := if ok then c.total + b.bytes else c.total }
    if ok = false then s.chanEnd f b.err
    else if bs = [] ∧ x.count ≤ (s.chan f).started ∧ (s.chState f = 6 ∨ s.chState f = 5) then s.setChState f 7
    else s
  | _, _ => .next s

/-- WRITEBACK: after the last write the channel writes the descriptor back with OWN = 0, STATUS and RESID (R290). -/
def execWriteback (f : FlumeId) (s : State) : Out :=
  match (s.chan f).desc with
  | none => .next s
  | some x =>
    act s (s.flumeOn f = true ∧ s.chState f = 7 ∧ (s.chan f).bursts = [] ∧ (s.chan f).wb = none) fun s =>
      let w := s.wbBytes f x
      let q := s.busWrite (.flume f) w.1 (wholeBytes w.2)
      match q.2 with
      | .held => q.1
      | .ok _ => q.1.modChan f fun c => { c with wb := some false, ringDest := s.sentTo f w.1 }
      | r =>
        let t := match r with
          | .fenced e => q.1.refused e 1
          | .off e => q.1.refused e 1
          | _ => q.1
        t.modChan f fun c => { c with wb := some true }

/-- WRITEBACK_ACK: the write-back is acknowledged or has failed (R290 to R294). -/
def execWritebackAck (f : FlumeId) (s : State) : Out :=
  match (s.chan f).wb with
  | some failed => act s (s.flumeOn f = true) fun s => s.flumeWbEnd f failed
  | none => .next s

end Sys2Proof.Machine
end

