-- ==== Sys2Proof/Machine/HostAccess.lean ====
section
/-! DEFINITION. Memory requests of the host through the BARs of the PCIe functions (18_events_host_management.md R418 to R420). -/

namespace Sys2Proof.Machine

/-- What an offset of a BAR reaches (R418). -/
inductive BarTarget
  | map (a : Nat)
  | page (off : Nat)      -- doorbell page
  | table (off : Nat)     -- MSI-X table
  | pba (off : Nat)
  | nothing               -- within the BAR, with nothing there
  | guarded               -- the Summit region, seen from PF1
  | none                  -- in no BAR of the function
  deriving DecidableEq, Repr

/-- Size of the reservoir window of a function (R418, R427). -/
def State.barSize (s : State) (f bar : Nat) : Nat :=
  if f = 0 then (if bar = 0 then 0x800000 else if bar = 2 then 0x10000000 else if bar = 4 then 0x2000 else 0)
  else if f = 1 then (if bar = 0 then 0x20000 else if bar = 2 then 0x800000000 else 0)
  else if bar = 0 then 0x4000
  else if bar = 2 then 2 ^ min 15 (s.regFld (hifA (0x10C + 0x20 * f)) 5 0) * 0x100000
  else 0

/-- An offset of MSI-X structures and doorbells in a block of size `page`, table at `tab`, PBA at `pend`. -/
def msixPart (page tab pend off : Nat) : BarTarget :=
  if off < page then .page off
  else if tab ≤ off ∧ off < pend then .table (off - tab)
  else if pend ≤ off then .pba (off - pend)
  else .nothing

/-- What an offset of a function's BAR reaches. -/
def State.barTarget (s : State) (f bar off : Nat) : BarTarget :=
  if s.barSize f bar ≤ off then .none
  else if f = 0 then
    (if bar = 0 then .map (0x2000000000 + off)
     else if bar = 2 then .map (0x3F0000000 + off)
     else msixPart 0 0 0x1000 off)
  else if bar = 2 then
    let a := if f = 1 then off else s.regFld (hifA (0x108 + 0x20 * f)) 14 0 * 0x100000 + off
    if f = 1 ∧ 0x3F0000000 ≤ a ∧ a < 0x400000000 then .guarded else .map a
  else if f = 1 then msixPart 0x1000 0x8000 0x10000 off
  else msixPart 0x1000 0x2000 0x3000 off

/-- A function claims a request of n bytes at an offset of a BAR (R420). -/
def State.hostClaims (s : State) (f bar off n : Nat) : Bool :=
  s.fnThere f && !s.flrBusy f && decide (off + n ≤ s.barSize f bar)

/-- A word of a doorbell page (R419). -/
def State.pageWord (s : State) (f off : Nat) : Word :=
  if 0x400 ≤ off ∧ off < 0x800 ∧ s.regFld (hifA (0x500 + 4 * ((off - 0x400) / 16))) 4 0 = f then
    let q := (off - 0x400) / 16
    if off % 16 = 0 then s.hqProd q else if off % 16 = 4 then s.hqCons q else 0
  else 0

/-- A word of the MSI-X structures of a function: entry words within its table, pending bits. -/
def State.msixWord (s : State) (f : Nat) (t : BarTarget) : Word :=
  match t with
  | .page o => s.pageWord f o
  | .table o => if o / 16 < s.vectors f then s.msixW f (o / 16) (o % 16 / 4) else 0
  | .pba o => BitVec.ofNat 32 ((List.range 32).foldl (fun v i =>
      if decide (8 * o + i < s.vectors f) && s.pba f (8 * o + i) then v + 2 ^ i else v) 0)
  | _ => 0

/-- A word written to a doorbell page or an MSI-X table (R419). -/
def State.barWrite (s : State) (f : Nat) (t : BarTarget) (v m : Word) : State :=
  match t with
  | .page o =>
    if h : o < 0x100 ∧ o % 16 = 0 then
      let q : Fin 16 := ⟨o / 16, by omega⟩
      if s.regFld (hifA (0x400 + 4 * q.val)) 4 0 = f then s.ring (.host q) (fld (v &&& m) 15 0) else s
    else if 0x400 ≤ o ∧ o < 0x800 ∧ o % 16 = 4 ∧ s.regFld (hifA (0x500 + 4 * ((o - 0x400) / 16))) 4 0 = f then
      let q := (o - 0x400) / 16
      s.setHq (64 + q) ((s.hqCons q &&& ~~~m) ||| (v &&& m))
    else s
  | .table o =>
    if o / 16 < s.vectors f then
      let k := o % 16 / 4
      let x := (s.msixW f (o / 16) k &&& ~~~m) ||| (v &&& m)
      s.setMsixW f (o / 16) k (if k = 3 then x &&& 1 else if k = 0 then x &&& 0xFFFFFFFC else x)
    else s
  | _ => s

/-- Bytes of the structures of a function. -/
def State.barBytes (s : State) (f bar off n : Nat) : List Byte :=
  ((regWords off n).flatMap (fun w => toBytes 4 (s.msixWord f (s.barTarget f bar w)).toNat) |>.drop (off % 4)).take n

/-- The host's read is answered with an error of R420. -/
def State.hostAnswer (s : State) (m : OutMsg) (a : Access) : State := { s.emit m with acc := a }

/-- A host read that the function claims. -/
def State.hostReads (s : State) (f : Fn) (bar off n : Nat) : State :=
  match s.barTarget f.val bar off with
  | .map a =>
    let q := s.busRead (.host f) a n
    match q.2 with
    | .held => { q.1 with acc := .held }
    | _ =>
      let t := State.settleRes q (.host f) 0
      match t.2 with
      | .ok d => t.1.hostAnswer (.completion d) (.ok d)
      | _ => t.1.hostAnswer .completerAbort .busError
  | .guarded => s.hostAnswer .completerAbort .busError
  | _ => let d := s.barBytes f.val bar off n; s.hostAnswer (.completion d) (.ok d)

/-- A posted write that met a cause of R246 is dropped and logged. -/
def State.postedDrop (s : State) (a : Nat) : State :=
  let s := (s.setRegBit (hifA 8) 0 true).setReg (hifA 0x18) (BitVec.ofNat 32 a)
  { (s.setReg (hifA 0x1C) (BitVec.ofNat 32 (a / 2 ^ 32 % 256))).raise 1970 with acc := .busError }

/-- A host posted write that the function claims. -/
def State.hostWrites (s : State) (f : Fn) (bar off : Nat) (data : List Byte) : State :=
  match s.barTarget f.val bar off with
  | .map a =>
    let q := s.busWrite (.host f) a (wholeBytes data)
    match q.2 with
    | .held => { q.1 with acc := .held }
    | _ =>
      let t := State.settleRes q (.host f) 1
      match t.2 with
      | .ok _ => { t.1 with acc := .ok [] }
      | _ => t.1.postedDrop a
  | .guarded => s.postedDrop off
  | _ =>
    let d := wholeBytes data
    { (regWords off data.length).foldl
        (fun t w => t.barWrite f.val (t.barTarget f.val bar w) (wordAt off d w false) (wordAt off d w true)) s with acc := .ok [] }

/-- HOST_MEMORY_READ of n bytes at an offset of a BAR of function f; PCIe requests reach the device while the link is up. -/
def execHostMemoryRead (f : Fn) (bar : Fin 6) (off : Addr) (n : Fin 4097) (s : State) : Out :=
  act s (s.regBit (hifA 4) 0 = true) fun s =>
    if s.hostClaims f.val bar.val off.toNat n.val then s.hostReads f bar.val off.toNat n.val
    else s.hostAnswer .unsupportedRequest .unsupported

/-- HOST_MEMORY_WRITE of bytes at an offset of a BAR of function f. -/
def execHostMemoryWrite (f : Fn) (bar : Fin 6) (off : Addr) (data : List Byte) (s : State) : Out :=
  act s (s.regBit (hifA 4) 0 = true) fun s =>
    if s.hostClaims f.val bar.val off.toNat data.length then s.hostWrites f bar.val off.toNat data
    else { s with acc := .unsupported }

end Sys2Proof.Machine
end

