-- ==== Sys2Proof/Machine/MemoryRows.lean ====
section
/-! DEFINITION. Loads, stores, fence and cpx of the M slot: the issue of the bundle that holds each (03_tarn_scalar.md R61; 04_tarn_vector.md R96;
05_command_queue.md R114). -/

namespace Sys2Proof.Machine

end Sys2Proof.Machine

namespace Sys2Proof

/-- Bytes of an element of a view (R92). -/
def View.bytes : View → Nat
  | .b => 1
  | .h => 2
  | .w => 4

end Sys2Proof

namespace Sys2Proof.Machine

/-- CPX: the command of the bundle's M slot is checked and sent; `squashed`: an older bundle has raised an exception, and this bundle
will not complete (R114 to R118, R122). -/
def execCpx (b : IssueM) (tag : BitVec 6) (an : BitVec 4) (flag : BitVec 5) (func : BitVec 8) (squashed : Bool) (s : State) : Out :=
  run s fun s =>
    let i : MIns := { mn := .cpx, tag := tag, an := an, flag := flag, func := func }
    if !squashed then s.issue b.core (b.bundle i)
    else if s.mayIssue b.core (b.bundle i) = false ∨ (b.bundle i).badSlot.isSome = true then s
    else
      let k := s.cores[b.core].tick
      match s.cpxCheck b.core k i with
      | some e => s.cpxFailed b.core i e true
      | none => s.cpxSend b.core k (b.bundle i) true false

/-- LD_B: loads a sign-extended byte (R61). -/
def execLdB (b : IssueM) (r : BitVec 5) (p : AddrOp) (s : State) : Out :=
  run s fun s => s.issue b.core (b.bundle { mn := .ldb, r := r, an := p.an, mode := p.mode, imm := p.imm })

/-- LD_BU: loads a zero-extended byte (R61). -/
def execLdBu (b : IssueM) (r : BitVec 5) (p : AddrOp) (s : State) : Out :=
  run s fun s => s.issue b.core (b.bundle { mn := .ldbu, r := r, an := p.an, mode := p.mode, imm := p.imm })

/-- LD_H: loads a sign-extended aligned halfword (R61). -/
def execLdH (b : IssueM) (r : BitVec 5) (p : AddrOp) (s : State) : Out :=
  run s fun s => s.issue b.core (b.bundle { mn := .ldh, r := r, an := p.an, mode := p.mode, imm := p.imm })

/-- LD_HU: loads a zero-extended aligned halfword (R61). -/
def execLdHu (b : IssueM) (r : BitVec 5) (p : AddrOp) (s : State) : Out :=
  run s fun s => s.issue b.core (b.bundle { mn := .ldhu, r := r, an := p.an, mode := p.mode, imm := p.imm })

/-- LD_W: loads an aligned word, stalling for memory outside tile memory (R61). -/
def execLdW (b : IssueM) (r : BitVec 5) (p : AddrOp) (s : State) : Out :=
  run s fun s => s.issue b.core (b.bundle { mn := .ldw, r := r, an := p.an, mode := p.mode, imm := p.imm })

/-- LD_A: loads an a register from the low 5 bytes of an aligned doubleword (R61). -/
def execLdA (b : IssueM) (r : BitVec 5) (p : AddrOp) (s : State) : Out :=
  run s fun s => s.issue b.core (b.bundle { mn := .lda, r := r, an := p.an, mode := p.mode, imm := p.imm })

/-- LD_D: loads an aligned doubleword into an even d register pair (R61). -/
def execLdD (b : IssueM) (r : BitVec 5) (p : AddrOp) (s : State) : Out :=
  run s fun s => s.issue b.core (b.bundle { mn := .ldd, r := r, an := p.an, mode := p.mode, imm := p.imm })

/-- ST_B: stores a byte, completing only when acknowledged (R61). -/
def execStB (b : IssueM) (r : BitVec 5) (p : AddrOp) (s : State) : Out :=
  run s fun s => s.issue b.core (b.bundle { mn := .stb, r := r, an := p.an, mode := p.mode, imm := p.imm })

/-- ST_H: stores an aligned halfword (R61). -/
def execStH (b : IssueM) (r : BitVec 5) (p : AddrOp) (s : State) : Out :=
  run s fun s => s.issue b.core (b.bundle { mn := .sth, r := r, an := p.an, mode := p.mode, imm := p.imm })

/-- ST_W: stores an aligned word (R61). -/
def execStW (b : IssueM) (r : BitVec 5) (p : AddrOp) (s : State) : Out :=
  run s fun s => s.issue b.core (b.bundle { mn := .stw, r := r, an := p.an, mode := p.mode, imm := p.imm })

/-- ST_A: stores an a register zero-extended to 8 bytes (R61). -/
def execStA (b : IssueM) (r : BitVec 5) (p : AddrOp) (s : State) : Out :=
  run s fun s => s.issue b.core (b.bundle { mn := .sta, r := r, an := p.an, mode := p.mode, imm := p.imm })

/-- ST_D: stores an even d register pair as an aligned doubleword (R61). -/
def execStD (b : IssueM) (r : BitVec 5) (p : AddrOp) (s : State) : Out :=
  run s fun s => s.issue b.core (b.bundle { mn := .std, r := r, an := p.an, mode := p.mode, imm := p.imm })

/-- FENCE: stalls until every earlier access of the thread has completed (R61, R64). -/
def execFence (b : IssueM) (s : State) : Out := run s fun s => s.issue b.core (b.bundle { mn := .fence })

/-- VLD_S: loads 16 bytes into an sv register as one checked access (R96 to R98). -/
def execVldS (b : IssueM) (r : BitVec 5) (p : AddrOp) (s : State) : Out :=
  run s fun s => s.issue b.core (b.bundle { mn := .vlds, r := r, an := p.an, mode := p.mode, imm := p.imm, ebytes := 16 })

/-- VST_S: stores an sv register as one 16-byte access (R96 to R98). -/
def execVstS (b : IssueM) (r : BitVec 5) (p : AddrOp) (s : State) : Out :=
  run s fun s => s.issue b.core (b.bundle { mn := .vsts, r := r, an := p.an, mode := p.mode, imm := p.imm, ebytes := 16 })

/-- VLD_L: loads 128 bytes into an lv register in four beats, faulting per element (R96 to R104). -/
def execVldL (b : IssueM) (vw : View) (r : BitVec 5) (p : AddrOp) (s : State) : Out :=
  run s fun s => s.issue b.core (b.bundle { mn := .vldl, r := r, an := p.an, mode := p.mode, imm := p.imm, ebytes := vw.bytes })

/-- VLD_LH: loads 64 bytes into half 0 of an lv register in four beats (R96 to R104). -/
def execVldLh (b : IssueM) (vw : View) (r : BitVec 5) (p : AddrOp) (s : State) : Out :=
  run s fun s => s.issue b.core (b.bundle { mn := .vldlh, r := r, an := p.an, mode := p.mode, imm := p.imm, ebytes := vw.bytes })

/-- VLD_UH: loads 64 bytes into half 1 of an lv register in four beats (R96 to R104). -/
def execVldUh (b : IssueM) (vw : View) (r : BitVec 5) (p : AddrOp) (s : State) : Out :=
  run s fun s => s.issue b.core (b.bundle { mn := .vlduh, r := r, an := p.an, mode := p.mode, imm := p.imm, ebytes := vw.bytes })

/-- VST_L: stores a whole lv register in four 32-byte beats (R96 to R104). -/
def execVstL (b : IssueM) (vw : View) (r : BitVec 5) (p : AddrOp) (s : State) : Out :=
  run s fun s => s.issue b.core (b.bundle { mn := .vstl, r := r, an := p.an, mode := p.mode, imm := p.imm, ebytes := vw.bytes })

/-- VST_LH: stores half 0 of an lv register in four beats (R96 to R104). -/
def execVstLh (b : IssueM) (vw : View) (r : BitVec 5) (p : AddrOp) (s : State) : Out :=
  run s fun s => s.issue b.core (b.bundle { mn := .vstlh, r := r, an := p.an, mode := p.mode, imm := p.imm, ebytes := vw.bytes })

/-- VST_UH: stores half 1 of an lv register in four beats (R96 to R104). -/
def execVstUh (b : IssueM) (vw : View) (r : BitVec 5) (p : AddrOp) (s : State) : Out :=
  run s fun s => s.issue b.core (b.bundle { mn := .vstuh, r := r, an := p.an, mode := p.mode, imm := p.imm, ebytes := vw.bytes })

end Sys2Proof.Machine
end

