-- ==== Sys2Proof/Machine/Posts.lean ====
section
/-! DEFINITION. Posted writes that wait for their targets, and the commands after which a target takes accesses again or a unit posts one
(10_memory_protection.md R245, R251; 11_leat_fabric.md R269; assumption 15). -/

namespace Sys2Proof.Machine

/-- A posted write is tried: it lands, is refused, or goes on waiting. -/
def State.landPost (s : State) (p : Posted) : State :=
  match s.busWrite p.req p.addr (wholeBytes p.data) with
  | (t, .held) => { t with posted := t.posted ++ [p] }
  | (t, .fenced e) => t.refuse p.req e 1 false
  | (t, .off e) => t.refuse p.req e 1 true
  | (t, _) => t

/-- Every posted write that waits is tried, in the order of their arrival (R251). -/
def State.landPosts (s : State) : State := s.posted.foldl State.landPost { s with posted := [] }

/-! Commands: memories -/

/-- POOL_INIT_DONE of bank b of ridge n (R245). -/
def execPoolInitDone (n : Fin 24) (b : Fin 16) (s : State) : Out :=
  act s (s.ridgeOn n.val = true ∧ s.regBit (memA n.val 0xA8) b.val = true) fun s =>
    ((s.clearBank (16 * n.val + b.val)).setRegBit (memA n.val 0xA8) b.val false).landPosts

/-- RSV_INIT_DONE of stack i: cleared to zeros after PORST_N (R245); a stack that is awake serves the requests it held (R251). With both, the
boot's phase RSV ends (16 R378). -/
def execRsvInitDone (i : Fin 2) (s : State) : Out :=
  let a := Block.rsv.base + 0x104 + 0x100 * i.val
  act s (s.regBit a 2 = false) fun s =>
    let s := s.clearRegion (i.val * 2 ^ 34) (2 ^ 34)
    let s := (s.setRegBit a 2 true).setRegBit a 0 true
    let s := if s.dom (60 + i.val) = 0 then s.setRegBit a 1 false else s
    let ph := Block.boot.base + 0x10
    let both := s.regBit (Block.rsv.base + 0x104) 2 && s.regBit (Block.rsv.base + 0x204) 2
    (if both = true ∧ s.regFld ph 2 0 = 3 then s.setRegFld ph 2 0 4 else s).landPosts

/-- STACK_WAKE of stack i: it serves the requests it holds (R251), or FORCE or the choice no longer lets it sleep (15 R366). -/
def execStackWake (i : Fin 2) (s : State) : Out :=
  act s (s.dom (60 + i.val) = 2 ∧ (s.regBit (stackA i.val + 4) 1 = true ∨ s.stackSleeps i.val = false)) fun s =>
    ((s.stackAwake i.val).raiseIf (decide (s.force (60 + i.val) = some 0)) 1664).landPosts

/-! Commands: endpoints -/

/-- ENDPOINT_FENCE of endpoint e, asked for by a committed transaction (11 R269 step 1, 15 R357). -/
def execEndpointFence (e : Fin 38) (s : State) : Out :=
  match s.fencing e.val with
  | some t => run s fun s => (s.fence e.val (decide (t.target = 4))).landPosts
  | none => .next s

/-- FENCE_COMPLETE of endpoint e (11 R269 step 3). -/
def execFenceComplete (e : Fin 38) (s : State) : Out :=
  act s (s.epState e.val = 1 ∧ s.outstanding e.val = 0) fun s => (s.fenceComplete e.val).landPosts

/-- ENDPOINT_REOPEN of endpoint e: its domain has gone through its exit (11 R269, 15 R359). -/
def execEndpointReopen (e : Fin 38) (s : State) : Out :=
  let d := match ridgeOfNode e.val with
    | some n => n
    | none => epDomain e.val
  act s (e.val < 36 ∧ s.epState e.val ≠ 0 ∧ (s.exitReady d = true ∨ s.dom d = 0) ∧ s.txn d = none) fun s => (s.reopenReq e.val).landPosts

/-- DOMAIN_EXIT_COMPLETE of domain d (15 R359, R361, R364). -/
def execDomainExitComplete (d : Fin 62) (s : State) : Out := act s (s.exitReady d.val = true) fun s => (s.exitDom d.val).landPosts

/-- FLIP_COMPLETE: every NI has confirmed and every old-epoch count is zero; `pause` is the injection pause in LEAT cycles (11 R271,
R272). -/
def execFlipComplete (pause : Word) (s : State) : Out :=
  match s.fabric.flip with
  | some f => act s (f.signalled = true ∧ (∀ e ∈ s.liveEndpoints, e ∈ f.confirmed) ∧ s.oldEpoch = false) fun s =>
      (s.flipComplete f pause.toNat).landPosts
  | none => .next s

/-! Commands: units that post -/

/-- BFA_OP_COMPLETE of BFA r (08_beamforming_array.md R200): the running operation; an entry whose OP no operation has completes PARAM. -/
def execBfaOpComplete (r : Fin 4) (s : State) : Out :=
  act s (s.bfaOn r.val = true) fun s =>
    match s.bfas[r].run with
    | some k => (s.bfaComplete r k).landPosts
    | none =>
      match s.bfas[r].queue with
      | op :: _ =>
        if 7 < eOp op.entry then
          ((s.modBfa r fun b => { b with queue := b.queue.drop 1 }).bfaComplete r
            { op := op, status := 2, detail := 4, flags := 0, start := (s.replica (.bfa r)).setWidth 32, groups := 0, pages := [] }).landPosts
        else s
      | [] => s

/-- BFA_DISABLE: BFA_CTL with EN clear; the operation at the head that was being worked on finishes its PRB group (08 R216).
A write that is refused stops nothing. -/
def execBfaDisable (req : Requester) (r : Fin 4) (v : BfaStop) (s : State) : Out :=
  run s fun s =>
    let a := bfaA r 4
    let w := setBit v.word 0 false
    let u := s.store req a w
    match v.groups, s.bfas[r].queue with
    | some k, op :: _ =>
      if u.acc = .ok [] ∧ s.regBit a 0 = true ∧ (s.bfaHead r (eOp op.entry)).isSome then
        ((s.bfaWork r op (some k) fun s op stop => bfaFn (eOp op.entry) s r op stop).store req a w).landPosts
      else u.landPosts
    | _, _ => u.landPosts

/-- COMPARATOR_FIRE: its replica has reached the target (02_device_time.md R34 to R37). -/
def execComparatorFire (c : CmpId) (s : State) : Out :=
  act s (s.cmpDue c = true ∧ s.cmpOn c = true ∧ s.cmpTurn c = true) fun s => (s.cmpMeet c).landPosts

end Sys2Proof.Machine
end

