-- ==== Sys2Proof/Machine/ScalarRows.lean ====
section
/-! DEFINITION. Scalar and address instructions of the S slots: the issue of the bundle that holds each (03_tarn_scalar.md R60). -/

namespace Sys2Proof.Machine

/-- NOP: the issue of a bundle with a nop in a slot (R56, R60). -/
def execNop (b : IssueAny) (s : State) : Out :=
  run s fun s => match b with
    | .s b => s.issue b.core (b.bundle {})
    | .m b => s.issue b.core (b.bundle {})
    | .v b => s.issue b.core (b.bundle {})

/-- ADD: rd = rs1 + rs2 modulo 2^32 (R60). -/
def execAdd (b : IssueS) (rd rs1 rs2 : BitVec 5) (s : State) : Out :=
  run s fun s => s.issue b.core (b.bundle { mn := .add, rd := rd, rs1 := rs1, rs2 := rs2 })

/-- SUB: rd = rs1 − rs2 modulo 2^32 (R60). -/
def execSub (b : IssueS) (rd rs1 rs2 : BitVec 5) (s : State) : Out :=
  run s fun s => s.issue b.core (b.bundle { mn := .sub, rd := rd, rs1 := rs1, rs2 := rs2 })

/-- AND: rd = rs1 AND rs2 (R60). -/
def execAnd (b : IssueS) (rd rs1 rs2 : BitVec 5) (s : State) : Out :=
  run s fun s => s.issue b.core (b.bundle { mn := .and, rd := rd, rs1 := rs1, rs2 := rs2 })

/-- OR: rd = rs1 OR rs2 (R60). -/
def execOr (b : IssueS) (rd rs1 rs2 : BitVec 5) (s : State) : Out :=
  run s fun s => s.issue b.core (b.bundle { mn := .or, rd := rd, rs1 := rs1, rs2 := rs2 })

/-- XOR: rd = rs1 XOR rs2 (R60). -/
def execXor (b : IssueS) (rd rs1 rs2 : BitVec 5) (s : State) : Out :=
  run s fun s => s.issue b.core (b.bundle { mn := .xor, rd := rd, rs1 := rs1, rs2 := rs2 })

/-- SHL: rd = rs1 shifted left by rs2[4:0] (R60). -/
def execShl (b : IssueS) (rd rs1 rs2 : BitVec 5) (s : State) : Out :=
  run s fun s => s.issue b.core (b.bundle { mn := .shl, rd := rd, rs1 := rs1, rs2 := rs2 })

/-- SHR: rd = rs1 shifted right logically by rs2[4:0] (R60). -/
def execShr (b : IssueS) (rd rs1 rs2 : BitVec 5) (s : State) : Out :=
  run s fun s => s.issue b.core (b.bundle { mn := .shr, rd := rd, rs1 := rs1, rs2 := rs2 })

/-- SRA: rd = rs1 shifted right arithmetically by rs2[4:0] (R60). -/
def execSra (b : IssueS) (rd rs1 rs2 : BitVec 5) (s : State) : Out :=
  run s fun s => s.issue b.core (b.bundle { mn := .sra, rd := rd, rs1 := rs1, rs2 := rs2 })

/-- CMPEQ: rd = 1 if rs1 equals rs2, else 0 (R60). -/
def execCmpeq (b : IssueS) (rd rs1 rs2 : BitVec 5) (s : State) : Out :=
  run s fun s => s.issue b.core (b.bundle { mn := .cmpeq, rd := rd, rs1 := rs1, rs2 := rs2 })

/-- CMPLT: rd = 1 if rs1 is less than rs2 signed, else 0 (R60). -/
def execCmplt (b : IssueS) (rd rs1 rs2 : BitVec 5) (s : State) : Out :=
  run s fun s => s.issue b.core (b.bundle { mn := .cmplt, rd := rd, rs1 := rs1, rs2 := rs2 })

/-- CMPLTU: rd = 1 if rs1 is less than rs2 unsigned, else 0 (R60). -/
def execCmpltu (b : IssueS) (rd rs1 rs2 : BitVec 5) (s : State) : Out :=
  run s fun s => s.issue b.core (b.bundle { mn := .cmpltu, rd := rd, rs1 := rs1, rs2 := rs2 })

/-- MIN: rd = signed minimum of rs1 and rs2 (R60). -/
def execMinOp (b : IssueS) (rd rs1 rs2 : BitVec 5) (s : State) : Out :=
  run s fun s => s.issue b.core (b.bundle { mn := .min, rd := rd, rs1 := rs1, rs2 := rs2 })

/-- MAX: rd = signed maximum of rs1 and rs2 (R60). -/
def execMaxOp (b : IssueS) (rd rs1 rs2 : BitVec 5) (s : State) : Out :=
  run s fun s => s.issue b.core (b.bundle { mn := .max, rd := rd, rs1 := rs1, rs2 := rs2 })

/-- ADDS: saturating signed add, setting SAT on saturation (R60). -/
def execAdds (b : IssueS) (rd rs1 rs2 : BitVec 5) (s : State) : Out :=
  run s fun s => s.issue b.core (b.bundle { mn := .adds, rd := rd, rs1 := rs1, rs2 := rs2 })

/-- SUBS: saturating signed subtract, setting SAT on saturation (R60). -/
def execSubs (b : IssueS) (rd rs1 rs2 : BitVec 5) (s : State) : Out :=
  run s fun s => s.issue b.core (b.bundle { mn := .subs, rd := rd, rs1 := rs1, rs2 := rs2 })

/-- ABS: rd = abs(rs1), with −2^31 saturating and setting SAT (R60). -/
def execAbs (b : IssueS) (rd rs1 : BitVec 5) (s : State) : Out :=
  run s fun s => s.issue b.core (b.bundle { mn := .abs, rd := rd, rs1 := rs1 })

/-- MUL: rd = low 32 bits of rs1 × rs2 (R60). -/
def execMul (b : IssueS) (rd rs1 rs2 : BitVec 5) (s : State) : Out :=
  run s fun s => s.issue b.core (b.bundle { mn := .mul, rd := rd, rs1 := rs1, rs2 := rs2 })

/-- MULH: rd = Q15 product of the low halfwords, truncated, saturating 0x8000 × 0x8000 (R60). -/
def execMulh (b : IssueS) (rd rs1 rs2 : BitVec 5) (s : State) : Out :=
  run s fun s => s.issue b.core (b.bundle { mn := .mulh, rd := rd, rs1 := rs1, rs2 := rs2 })

/-- MAC: acc[rd] += s16(rs1) × s16(rs2) modulo 2^40, setting ACC_OVF on wrap (R60, R77). -/
def execMac (b : IssueS) (rd rs1 rs2 : BitVec 5) (s : State) : Out :=
  run s fun s => s.issue b.core (b.bundle { mn := .mac, rd := rd, rs1 := rs1, rs2 := rs2 })

/-- MSU: acc[rd] −= s16(rs1) × s16(rs2) modulo 2^40, setting ACC_OVF on wrap (R60, R77). -/
def execMsu (b : IssueS) (rd rs1 rs2 : BitVec 5) (s : State) : Out :=
  run s fun s => s.issue b.core (b.bundle { mn := .msu, rd := rd, rs1 := rs1, rs2 := rs2 })

/-- EXT: rd = bits 31:0 of acc[rs1] shifted right by sh (R60, R76, R77). -/
def execExt (b : IssueS) (rd rs1 sh : BitVec 5) (s : State) : Out :=
  run s fun s => s.issue b.core (b.bundle { mn := .ext, rd := rd, rs1 := rs1, sh := sh })

/-- EXT_S: rd = acc[rs1] >> sh saturated to 32 bits, setting SAT (R60, R76, R77). -/
def execExtS (b : IssueS) (rd rs1 sh : BitVec 5) (s : State) : Out :=
  run s fun s => s.issue b.core (b.bundle { mn := .exts, rd := rd, rs1 := rs1, sh := sh })

/-- EXP: rd = number of redundant sign bits of rs1 (R60, R78). -/
def execExp (b : IssueS) (rd rs1 : BitVec 5) (s : State) : Out :=
  run s fun s => s.issue b.core (b.bundle { mn := .exp, rd := rd, rs1 := rs1 })

/-- EXPA: rd = number of redundant sign bits of acc[rs1] (R60, R78). -/
def execExpa (b : IssueS) (rd rs1 : BitVec 5) (s : State) : Out :=
  run s fun s => s.issue b.core (b.bundle { mn := .expa, rd := rd, rs1 := rs1 })

/-- NORM: writes rs1 normalised to rd and the shift count to rd+1 (R60, R78). -/
def execNorm (b : IssueS) (rd rs1 : BitVec 5) (s : State) : Out :=
  run s fun s => s.issue b.core (b.bundle { mn := .norm, rd := rd, rs1 := rs1 })

/-- LDA: acc[rd] = rs1 sign-extended to 40 bits (R60). -/
def execLda (b : IssueS) (rd rs1 : BitVec 5) (s : State) : Out :=
  run s fun s => s.issue b.core (b.bundle { mn := .lda, rd := rd, rs1 := rs1 })

/-- MOVDA: rd = bits 31:0 of a[rs1] (R60). -/
def execMovda (b : IssueS) (rd rs1 : BitVec 5) (s : State) : Out :=
  run s fun s => s.issue b.core (b.bundle { mn := .movda, rd := rd, rs1 := rs1 })

/-- SETCB: cb[rd] = a[rs1], used by updates from the next bundle on (R60, R74). -/
def execSetcb (b : IssueS) (rd rs1 : BitVec 5) (s : State) : Out :=
  run s fun s => s.issue b.core (b.bundle { mn := .setcb, rd := rd, rs1 := rs1 })

/-- SETCL: cl[rd] = bits 23:0 of rs1, used by updates from the next bundle on (R60, R74). -/
def execSetcl (b : IssueS) (rd rs1 : BitVec 5) (s : State) : Out :=
  run s fun s => s.issue b.core (b.bundle { mn := .setcl, rd := rd, rs1 := rs1 })

/-- RDCB: a[rd] = cb[rs1] (R60). -/
def execRdcb (b : IssueS) (rd rs1 : BitVec 5) (s : State) : Out :=
  run s fun s => s.issue b.core (b.bundle { mn := .rdcb, rd := rd, rs1 := rs1 })

/-- RDCL: rd = cl[rs1] zero-extended (R60). -/
def execRdcl (b : IssueS) (rd rs1 : BitVec 5) (s : State) : Out :=
  run s fun s => s.issue b.core (b.bundle { mn := .rdcl, rd := rd, rs1 := rs1 })

/-- ADDI: rd = rs1 + imm (R58, R60). -/
def execAddi (b : IssueS) (rd rs1 : BitVec 5) (imm : BitVec 16) (s : State) : Out :=
  run s fun s => s.issue b.core (b.bundle { mn := .addi, rd := rd, rs1 := rs1, imm := imm.setWidth 26 })

/-- ANDI: rd = rs1 AND zero-extended imm16 (R58, R60). -/
def execAndi (b : IssueS) (rd rs1 : BitVec 5) (imm : BitVec 16) (s : State) : Out :=
  run s fun s => s.issue b.core (b.bundle { mn := .andi, rd := rd, rs1 := rs1, imm := imm.setWidth 26 })

/-- ORI: rd = rs1 OR zero-extended imm16 (R58, R60). -/
def execOri (b : IssueS) (rd rs1 : BitVec 5) (imm : BitVec 16) (s : State) : Out :=
  run s fun s => s.issue b.core (b.bundle { mn := .ori, rd := rd, rs1 := rs1, imm := imm.setWidth 26 })

/-- XORI: rd = rs1 XOR zero-extended imm16 (R58, R60). -/
def execXori (b : IssueS) (rd rs1 : BitVec 5) (imm : BitVec 16) (s : State) : Out :=
  run s fun s => s.issue b.core (b.bundle { mn := .xori, rd := rd, rs1 := rs1, imm := imm.setWidth 26 })

/-- SHLI: rd = rs1 shifted left by imm[4:0] (R58, R60). -/
def execShli (b : IssueS) (rd rs1 : BitVec 5) (imm : BitVec 16) (s : State) : Out :=
  run s fun s => s.issue b.core (b.bundle { mn := .shli, rd := rd, rs1 := rs1, imm := imm.setWidth 26 })

/-- SHRI: rd = rs1 shifted right logically by imm[4:0] (R58, R60). -/
def execShri (b : IssueS) (rd rs1 : BitVec 5) (imm : BitVec 16) (s : State) : Out :=
  run s fun s => s.issue b.core (b.bundle { mn := .shri, rd := rd, rs1 := rs1, imm := imm.setWidth 26 })

/-- SRAI: rd = rs1 shifted right arithmetically by imm[4:0] (R58, R60). -/
def execSrai (b : IssueS) (rd rs1 : BitVec 5) (imm : BitVec 16) (s : State) : Out :=
  run s fun s => s.issue b.core (b.bundle { mn := .srai, rd := rd, rs1 := rs1, imm := imm.setWidth 26 })

/-- CMPEQI: rd = 1 if rs1 equals imm, else 0 (R58, R60). -/
def execCmpeqi (b : IssueS) (rd rs1 : BitVec 5) (imm : BitVec 16) (s : State) : Out :=
  run s fun s => s.issue b.core (b.bundle { mn := .cmpeqi, rd := rd, rs1 := rs1, imm := imm.setWidth 26 })

/-- CMPLTI: rd = 1 if rs1 is less than imm signed, else 0 (R58, R60). -/
def execCmplti (b : IssueS) (rd rs1 : BitVec 5) (imm : BitVec 16) (s : State) : Out :=
  run s fun s => s.issue b.core (b.bundle { mn := .cmplti, rd := rd, rs1 := rs1, imm := imm.setWidth 26 })

/-- MOVI: rd = imm (R58, R60). -/
def execMovi (b : IssueS) (rd : BitVec 5) (imm : BitVec 16) (s : State) : Out :=
  run s fun s => s.issue b.core (b.bundle { mn := .movi, rd := rd, imm := imm.setWidth 26 })

/-- MOVHI: rd = imm16 << 16 (R58, R60). -/
def execMovhi (b : IssueS) (rd : BitVec 5) (imm : BitVec 16) (s : State) : Out :=
  run s fun s => s.issue b.core (b.bundle { mn := .movhi, rd := rd, imm := imm.setWidth 26 })

/-- ADDA: a[rd] = a[rs1] + imm, linear (R58, R60). -/
def execAdda (b : IssueS) (rd rs1 : BitVec 5) (imm : BitVec 16) (s : State) : Out :=
  run s fun s => s.issue b.core (b.bundle { mn := .adda, rd := rd, rs1 := rs1, imm := imm.setWidth 26 })

/-- ADDC: a[rd] updated by imm under the circular rule, flagging or trapping an out-of-range pointer (R58, R60, R73). -/
def execAddc (b : IssueS) (rd rs1 : BitVec 5) (imm : BitVec 16) (s : State) : Out :=
  run s fun s => s.issue b.core (b.bundle { mn := .addc, rd := rd, rs1 := rs1, imm := imm.setWidth 26 })

/-- ADDAR: a[rd] = a[rs1] + sign-extended rs2, linear (R60). -/
def execAddar (b : IssueS) (rd rs1 rs2 : BitVec 5) (s : State) : Out :=
  run s fun s => s.issue b.core (b.bundle { mn := .addar, rd := rd, rs1 := rs1, rs2 := rs2 })

/-- MOVIA: a[rd] = 40-bit imm (R58, R60). -/
def execMovia (b : IssueS) (rd : BitVec 5) (imm : BitVec 16) (s : State) : Out :=
  run s fun s => s.issue b.core (b.bundle { mn := .movia, rd := rd, imm := imm.setWidth 26 })

/-- MOVAD: a[rd] = rs1 zero-extended (R60). -/
def execMovad (b : IssueS) (rd rs1 : BitVec 5) (s : State) : Out :=
  run s fun s => s.issue b.core (b.bundle { mn := .movad, rd := rd, rs1 := rs1 })

end Sys2Proof.Machine
end

