-- ==== Sys2Proof/Machine/VectorRows.lean ====
section
/-! DEFINITION. V-slot instructions: the issue of the bundle that holds each (04_tarn_vector.md R105, R106). -/

namespace Sys2Proof.Machine

/-- VADD_S: short-vector 16-bit elementwise add modulo 2^16 (R106). -/
def execVaddS (b : IssueV) (vd va vb : BitVec 5) (s : State) : Out :=
  run s fun s => s.issue b.core (b.bundle { mn := .vadds_, vd := vd, va := va, vb := vb })

/-- VSUB_S: short-vector 16-bit elementwise subtract modulo 2^16 (R106). -/
def execVsubS (b : IssueV) (vd va vb : BitVec 5) (s : State) : Out :=
  run s fun s => s.issue b.core (b.bundle { mn := .vsubs_, vd := vd, va := va, vb := vb })

/-- VADDS_S: short-vector saturating add, setting SAT (R106). -/
def execVaddsS (b : IssueV) (vd va vb : BitVec 5) (s : State) : Out :=
  run s fun s => s.issue b.core (b.bundle { mn := .vaddss, vd := vd, va := va, vb := vb })

/-- VSUBS_S: short-vector saturating subtract, setting SAT (R106). -/
def execVsubsS (b : IssueV) (vd va vb : BitVec 5) (s : State) : Out :=
  run s fun s => s.issue b.core (b.bundle { mn := .vsubss, vd := vd, va := va, vb := vb })

/-- VMULH_S: short-vector Q15 multiply, truncated (R106). -/
def execVmulhS (b : IssueV) (vd va vb : BitVec 5) (s : State) : Out :=
  run s fun s => s.issue b.core (b.bundle { mn := .vmulhs, vd := vd, va := va, vb := vb })

/-- VADD_H: long-vector 16-bit add modulo 2^16 (R106). -/
def execVaddH (b : IssueV) (vd va vb : BitVec 5) (s : State) : Out :=
  run s fun s => s.issue b.core (b.bundle { mn := .vaddh, vd := vd, va := va, vb := vb })

/-- VSUB_H: long-vector 16-bit subtract modulo 2^16 (R106). -/
def execVsubH (b : IssueV) (vd va vb : BitVec 5) (s : State) : Out :=
  run s fun s => s.issue b.core (b.bundle { mn := .vsubh, vd := vd, va := va, vb := vb })

/-- VADDS_H: long-vector saturating 16-bit add (R106). -/
def execVaddsH (b : IssueV) (vd va vb : BitVec 5) (s : State) : Out :=
  run s fun s => s.issue b.core (b.bundle { mn := .vaddsh, vd := vd, va := va, vb := vb })

/-- VSUBS_H: long-vector saturating 16-bit subtract (R106). -/
def execVsubsH (b : IssueV) (vd va vb : BitVec 5) (s : State) : Out :=
  run s fun s => s.issue b.core (b.bundle { mn := .vsubsh, vd := vd, va := va, vb := vb })

/-- VADD_W: long-vector 32-bit add modulo 2^32 (R106). -/
def execVaddW (b : IssueV) (vd va vb : BitVec 5) (s : State) : Out :=
  run s fun s => s.issue b.core (b.bundle { mn := .vaddw, vd := vd, va := va, vb := vb })

/-- VSUB_W: long-vector 32-bit subtract modulo 2^32 (R106). -/
def execVsubW (b : IssueV) (vd va vb : BitVec 5) (s : State) : Out :=
  run s fun s => s.issue b.core (b.bundle { mn := .vsubw, vd := vd, va := va, vb := vb })

/-- VMIN_H: long-vector signed 16-bit minimum (R106). -/
def execVminH (b : IssueV) (vd va vb : BitVec 5) (s : State) : Out :=
  run s fun s => s.issue b.core (b.bundle { mn := .vminh, vd := vd, va := va, vb := vb })

/-- VMAX_H: long-vector signed 16-bit maximum (R106). -/
def execVmaxH (b : IssueV) (vd va vb : BitVec 5) (s : State) : Out :=
  run s fun s => s.issue b.core (b.bundle { mn := .vmaxh, vd := vd, va := va, vb := vb })

/-- VAND: bitwise AND on 1,024 bits (R106). -/
def execVand (b : IssueV) (vd va vb : BitVec 5) (s : State) : Out :=
  run s fun s => s.issue b.core (b.bundle { mn := .vand, vd := vd, va := va, vb := vb })

/-- VOR: bitwise OR on 1,024 bits (R106). -/
def execVor (b : IssueV) (vd va vb : BitVec 5) (s : State) : Out :=
  run s fun s => s.issue b.core (b.bundle { mn := .vor, vd := vd, va := va, vb := vb })

/-- VXOR: bitwise XOR on 1,024 bits (R106). -/
def execVxor (b : IssueV) (vd va vb : BitVec 5) (s : State) : Out :=
  run s fun s => s.issue b.core (b.bundle { mn := .vxor, vd := vd, va := va, vb := vb })

/-- VMULH_H: long-vector Q15 multiply on 64 elements (R106). -/
def execVmulhH (b : IssueV) (vd va vb : BitVec 5) (s : State) : Out :=
  run s fun s => s.issue b.core (b.bundle { mn := .vmulhh, vd := vd, va := va, vb := vb })

/-- VMAC: adds pairwise products into vacc lanes modulo 2^48 (R106). -/
def execVmac (b : IssueV) (vd va vb : BitVec 5) (s : State) : Out :=
  run s fun s => s.issue b.core (b.bundle { mn := .vmac, vd := vd, va := va, vb := vb })

/-- VMSU: subtracts pairwise products from vacc lanes modulo 2^48 (R106). -/
def execVmsu (b : IssueV) (vd va vb : BitVec 5) (s : State) : Out :=
  run s fun s => s.issue b.core (b.bundle { mn := .vmsu, vd := vd, va := va, vb := vb })

/-- VACCWR: writes vacc lanes from two lv registers (R106). -/
def execVaccwr (b : IssueV) (vd va vb : BitVec 5) (s : State) : Out :=
  run s fun s => s.issue b.core (b.bundle { mn := .vaccwr, vd := vd, va := va, vb := vb })

/-- VSRA_S: short-vector arithmetic right shift (R106, R107). -/
def execVsraS (b : IssueV) (vd va vb : BitVec 5) (r : Bool) (imm6 : BitVec 6) (s : State) : Out :=
  run s fun s => s.issue b.core (b.bundle { mn := .vsras, vd := vd, va := va, vb := vb, r := r, imm6 := imm6 })

/-- VSHL_S: short-vector left shift (R106, R107). -/
def execVshlS (b : IssueV) (vd va vb : BitVec 5) (r : Bool) (imm6 : BitVec 6) (s : State) : Out :=
  run s fun s => s.issue b.core (b.bundle { mn := .vshls, vd := vd, va := va, vb := vb, r := r, imm6 := imm6 })

/-- VSRA_H: long-vector 16-bit arithmetic right shift (R106, R107). -/
def execVsraH (b : IssueV) (vd va vb : BitVec 5) (r : Bool) (imm6 : BitVec 6) (s : State) : Out :=
  run s fun s => s.issue b.core (b.bundle { mn := .vsrah, vd := vd, va := va, vb := vb, r := r, imm6 := imm6 })

/-- VSHL_H: long-vector 16-bit left shift (R106, R107). -/
def execVshlH (b : IssueV) (vd va vb : BitVec 5) (r : Bool) (imm6 : BitVec 6) (s : State) : Out :=
  run s fun s => s.issue b.core (b.bundle { mn := .vshlh, vd := vd, va := va, vb := vb, r := r, imm6 := imm6 })

/-- VSRA_W: long-vector 32-bit arithmetic right shift (R106, R107). -/
def execVsraW (b : IssueV) (vd va vb : BitVec 5) (r : Bool) (imm6 : BitVec 6) (s : State) : Out :=
  run s fun s => s.issue b.core (b.bundle { mn := .vsraw, vd := vd, va := va, vb := vb, r := r, imm6 := imm6 })

/-- VSHL_W: long-vector 32-bit left shift (R106, R107). -/
def execVshlW (b : IssueV) (vd va vb : BitVec 5) (r : Bool) (imm6 : BitVec 6) (s : State) : Out :=
  run s fun s => s.issue b.core (b.bundle { mn := .vshlw, vd := vd, va := va, vb := vb, r := r, imm6 := imm6 })

/-- VMOVS: moves one sv element, sign-extended, to a d register (R106). -/
def execVmovs (b : IssueV) (vd va : BitVec 5) (imm6 : BitVec 6) (s : State) : Out :=
  run s fun s => s.issue b.core (b.bundle { mn := .vmovs, vd := vd, va := va, imm6 := imm6 })

/-- VINS: inserts d bits 15:0 into one sv element (R106). -/
def execVins (b : IssueV) (vd va : BitVec 5) (imm6 : BitVec 6) (s : State) : Out :=
  run s fun s => s.issue b.core (b.bundle { mn := .vins, vd := vd, va := va, imm6 := imm6 })

/-- VGETC: copies one chunk of an lv register to an sv register (R106). -/
def execVgetc (b : IssueV) (vd va : BitVec 5) (imm6 : BitVec 6) (s : State) : Out :=
  run s fun s => s.issue b.core (b.bundle { mn := .vgetc, vd := vd, va := va, imm6 := imm6 })

/-- VPUTC: copies an sv register into one chunk of an lv register (R106). -/
def execVputc (b : IssueV) (vd va : BitVec 5) (imm6 : BitVec 6) (s : State) : Out :=
  run s fun s => s.issue b.core (b.bundle { mn := .vputc, vd := vd, va := va, imm6 := imm6 })

/-- VBEXP_H: block exponent of 16-bit elements 0 to imm6 (R106, R112). -/
def execVbexpH (b : IssueV) (vd va : BitVec 5) (imm6 : BitVec 6) (s : State) : Out :=
  run s fun s => s.issue b.core (b.bundle { mn := .vbexph, vd := vd, va := va, imm6 := imm6 })

/-- VBEXP_W: block exponent of 32-bit elements 0 to imm6 (R106, R112). -/
def execVbexpW (b : IssueV) (vd va : BitVec 5) (imm6 : BitVec 6) (s : State) : Out :=
  run s fun s => s.issue b.core (b.bundle { mn := .vbexpw, vd := vd, va := va, imm6 := imm6 })

/-- VBEXP_A: block exponent of vacc lanes 0 to imm6 (R106, R112). -/
def execVbexpA (b : IssueV) (vd va : BitVec 5) (imm6 : BitVec 6) (s : State) : Out :=
  run s fun s => s.issue b.core (b.bundle { mn := .vbexpa, vd := vd, va := va, imm6 := imm6 })

/-- VBCST_S: broadcasts d bits 15:0 to every sv element (R106). -/
def execVbcstS (b : IssueV) (vd va : BitVec 5) (s : State) : Out :=
  run s fun s => s.issue b.core (b.bundle { mn := .vbcsts, vd := vd, va := va })

/-- VBEXP_S: writes the block exponent of the 8 sv elements to a d register (R106, R112). -/
def execVbexpS (b : IssueV) (vd va : BitVec 5) (s : State) : Out :=
  run s fun s => s.issue b.core (b.bundle { mn := .vbexps, vd := vd, va := va })

/-- VCONJ: negates odd elements with saturation (R106). -/
def execVconj (b : IssueV) (vd va : BitVec 5) (s : State) : Out :=
  run s fun s => s.issue b.core (b.bundle { mn := .vconj, vd := vd, va := va })

/-- VSWAP: exchanges elements 2j and 2j + 1 (R106). -/
def execVswap (b : IssueV) (vd va : BitVec 5) (s : State) : Out :=
  run s fun s => s.issue b.core (b.bundle { mn := .vswap, vd := vd, va := va })

/-- VMOV: copies one lv register to another (R106). -/
def execVmov (b : IssueV) (vd va : BitVec 5) (s : State) : Out :=
  run s fun s => s.issue b.core (b.bundle { mn := .vmov, vd := vd, va := va })

/-- VBCST_H: broadcasts d bits 15:0 to every 16-bit element (R106). -/
def execVbcstH (b : IssueV) (vd va : BitVec 5) (s : State) : Out :=
  run s fun s => s.issue b.core (b.bundle { mn := .vbcsth, vd := vd, va := va })

/-- VBCST_W: broadcasts a d register to every 32-bit element (R106). -/
def execVbcstW (b : IssueV) (vd va : BitVec 5) (s : State) : Out :=
  run s fun s => s.issue b.core (b.bundle { mn := .vbcstw, vd := vd, va := va })

/-- VMULW: exact 16 × 16 products of one half into 32-bit elements (R106). -/
def execVmulw (b : IssueV) (vd va vb : BitVec 5) (h : Bool) (s : State) : Out :=
  run s fun s => s.issue b.core (b.bundle { mn := .vmulw, vd := vd, va := va, vb := vb, h := h })

/-- VCMAC: complex multiply-accumulate of one half, optionally conjugated (R106, R109). -/
def execVcmac (b : IssueV) (vd va vb : BitVec 5) (h c : Bool) (s : State) : Out :=
  run s fun s => s.issue b.core (b.bundle { mn := .vcmac, vd := vd, va := va, vb := vb, h := h, c := c })

/-- VCMSU: complex multiply-subtract of one half, optionally conjugated (R106, R109). -/
def execVcmsu (b : IssueV) (vd va vb : BitVec 5) (h c : Bool) (s : State) : Out :=
  run s fun s => s.issue b.core (b.bundle { mn := .vcmsu, vd := vd, va := va, vb := vb, h := h, c := c })

/-- VDOT8: accumulates 4-way 8-bit dot products into 32-bit elements modulo 2^32 (R106, R108). -/
def execVdot8 (b : IssueV) (vd va vb : BitVec 5) (c : Bool) (s : State) : Out :=
  run s fun s => s.issue b.core (b.bundle { mn := .vdot8, vd := vd, va := va, vb := vb, c := c })

/-- VCLR: clears every lane of a vector accumulator (R106). -/
def execVclr (b : IssueV) (vd : BitVec 5) (s : State) : Out := run s fun s => s.issue b.core (b.bundle { mn := .vclr, vd := vd })

/-- VNARROW_H: narrows vacc lanes into one half of an lv register, truncated and optionally saturated (R106, R110). -/
def execVnarrowH (b : IssueV) (vd va vb : BitVec 5) (h sat r : Bool) (imm6 : BitVec 6) (s : State) : Out :=
  run s fun s => s.issue b.core (b.bundle { mn := .vnarrowh, vd := vd, va := va, vb := vb, h := h, s := sat, r := r, imm6 := imm6 })

/-- VNARROW_W: narrows vacc lanes into 32-bit elements (R106, R110). -/
def execVnarrowW (b : IssueV) (vd va vb : BitVec 5) (sat r : Bool) (imm6 : BitVec 6) (s : State) : Out :=
  run s fun s => s.issue b.core (b.bundle { mn := .vnarroww, vd := vd, va := va, vb := vb, s := sat, r := r, imm6 := imm6 })

/-- VPACK: packs shifted 32-bit elements into one half of an lv register (R106, R110). -/
def execVpack (b : IssueV) (vd va vb : BitVec 5) (h sat r : Bool) (imm6 : BitVec 6) (s : State) : Out :=
  run s fun s => s.issue b.core (b.bundle { mn := .vpack, vd := vd, va := va, vb := vb, h := h, s := sat, r := r, imm6 := imm6 })

/-- VACCRD: reads the low or high part of vacc lanes into 32-bit elements (R106, R111). -/
def execVaccrd (b : IssueV) (vd va : BitVec 5) (h : Bool) (s : State) : Out :=
  run s fun s => s.issue b.core (b.bundle { mn := .vaccrd, vd := vd, va := va, h := h })

end Sys2Proof.Machine
end

