-- ==== Sys2Proof/Machine/Dispatch.lean ====
section
/-! DEFINITION. One arm for each command: the direct call of its meaning. -/

namespace Sys2Proof.Machine

def exec (i : Instr) (s : State) : Host.Outcome State Fault Refusal :=
  match i with
  | .registerWrite req a v => Sys2Proof.Machine.execRegisterWrite req a v s
  | .lockSet req a => Sys2Proof.Machine.execLockSet req a s
  | .refclkLost => Sys2Proof.Machine.execRefclkLost s
  | .refclkRestored => Sys2Proof.Machine.execRefclkRestored s
  | .tbPllUnlock => Sys2Proof.Machine.execTbPllUnlock s
  | .tbPllLock => Sys2Proof.Machine.execTbPllLock s
  | .ppsEdgeHeld edge => Sys2Proof.Machine.execPpsEdgeHeld edge s
  | .ppsMissing => Sys2Proof.Machine.execPpsMissing s
  | .tbCap req => Sys2Proof.Machine.execTbCap req s
  | .tick => Sys2Proof.Machine.execTick s
  | .tickDivWrite req v => Sys2Proof.Machine.execTickDivWrite req v s
  | .tickDivApply => Sys2Proof.Machine.execTickDivApply s
  | .treeCheck r => Sys2Proof.Machine.execTreeCheck r s
  | .comparatorArm req c v => Sys2Proof.Machine.execComparatorArm req c v s
  | .comparatorDisarm req c v => Sys2Proof.Machine.execComparatorDisarm req c v s
  | .comparatorFire c => Sys2Proof.Machine.execComparatorFire c s
  | .tbRateWrite req v => Sys2Proof.Machine.execTbRateWrite req v s
  | .slewCarry => Sys2Proof.Machine.execSlewCarry s
  | .stepGo req load => Sys2Proof.Machine.execStepGo req load s
  | .stepLoadAtPps req => Sys2Proof.Machine.execStepLoadAtPps req s
  | .recclkResume n => Sys2Proof.Machine.execRecclkResume n s
  | .holdoverEntry v0 v1 => Sys2Proof.Machine.execHoldoverEntry v0 v1 s
  | .holdoverWrite codes => Sys2Proof.Machine.execHoldoverWrite codes s
  | .fullEntry => Sys2Proof.Machine.execFullEntry s
  | .nop b => Sys2Proof.Machine.execNop b s
  | .add b rd rs1 rs2 => Sys2Proof.Machine.execAdd b rd rs1 rs2 s
  | .sub b rd rs1 rs2 => Sys2Proof.Machine.execSub b rd rs1 rs2 s
  | .and b rd rs1 rs2 => Sys2Proof.Machine.execAnd b rd rs1 rs2 s
  | .or b rd rs1 rs2 => Sys2Proof.Machine.execOr b rd rs1 rs2 s
  | .xor b rd rs1 rs2 => Sys2Proof.Machine.execXor b rd rs1 rs2 s
  | .shl b rd rs1 rs2 => Sys2Proof.Machine.execShl b rd rs1 rs2 s
  | .shr b rd rs1 rs2 => Sys2Proof.Machine.execShr b rd rs1 rs2 s
  | .sra b rd rs1 rs2 => Sys2Proof.Machine.execSra b rd rs1 rs2 s
  | .cmpeq b rd rs1 rs2 => Sys2Proof.Machine.execCmpeq b rd rs1 rs2 s
  | .cmplt b rd rs1 rs2 => Sys2Proof.Machine.execCmplt b rd rs1 rs2 s
  | .cmpltu b rd rs1 rs2 => Sys2Proof.Machine.execCmpltu b rd rs1 rs2 s
  | .minOp b rd rs1 rs2 => Sys2Proof.Machine.execMinOp b rd rs1 rs2 s
  | .maxOp b rd rs1 rs2 => Sys2Proof.Machine.execMaxOp b rd rs1 rs2 s
  | .adds b rd rs1 rs2 => Sys2Proof.Machine.execAdds b rd rs1 rs2 s
  | .subs b rd rs1 rs2 => Sys2Proof.Machine.execSubs b rd rs1 rs2 s
  | .abs b rd rs1 => Sys2Proof.Machine.execAbs b rd rs1 s
  | .mul b rd rs1 rs2 => Sys2Proof.Machine.execMul b rd rs1 rs2 s
  | .mulh b rd rs1 rs2 => Sys2Proof.Machine.execMulh b rd rs1 rs2 s
  | .mac b rd rs1 rs2 => Sys2Proof.Machine.execMac b rd rs1 rs2 s
  | .msu b rd rs1 rs2 => Sys2Proof.Machine.execMsu b rd rs1 rs2 s
  | .ext b rd rs1 sh => Sys2Proof.Machine.execExt b rd rs1 sh s
  | .extS b rd rs1 sh => Sys2Proof.Machine.execExtS b rd rs1 sh s
  | .exp b rd rs1 => Sys2Proof.Machine.execExp b rd rs1 s
  | .expa b rd rs1 => Sys2Proof.Machine.execExpa b rd rs1 s
  | .norm b rd rs1 => Sys2Proof.Machine.execNorm b rd rs1 s
  | .lda b rd rs1 => Sys2Proof.Machine.execLda b rd rs1 s
  | .movda b rd rs1 => Sys2Proof.Machine.execMovda b rd rs1 s
  | .setcb b rd rs1 => Sys2Proof.Machine.execSetcb b rd rs1 s
  | .setcl b rd rs1 => Sys2Proof.Machine.execSetcl b rd rs1 s
  | .rdcb b rd rs1 => Sys2Proof.Machine.execRdcb b rd rs1 s
  | .rdcl b rd rs1 => Sys2Proof.Machine.execRdcl b rd rs1 s
  | .addi b rd rs1 imm => Sys2Proof.Machine.execAddi b rd rs1 imm s
  | .andi b rd rs1 imm => Sys2Proof.Machine.execAndi b rd rs1 imm s
  | .ori b rd rs1 imm => Sys2Proof.Machine.execOri b rd rs1 imm s
  | .xori b rd rs1 imm => Sys2Proof.Machine.execXori b rd rs1 imm s
  | .shli b rd rs1 imm => Sys2Proof.Machine.execShli b rd rs1 imm s
  | .shri b rd rs1 imm => Sys2Proof.Machine.execShri b rd rs1 imm s
  | .srai b rd rs1 imm => Sys2Proof.Machine.execSrai b rd rs1 imm s
  | .cmpeqi b rd rs1 imm => Sys2Proof.Machine.execCmpeqi b rd rs1 imm s
  | .cmplti b rd rs1 imm => Sys2Proof.Machine.execCmplti b rd rs1 imm s
  | .movi b rd imm => Sys2Proof.Machine.execMovi b rd imm s
  | .movhi b rd imm => Sys2Proof.Machine.execMovhi b rd imm s
  | .adda b rd rs1 imm => Sys2Proof.Machine.execAdda b rd rs1 imm s
  | .addc b rd rs1 imm => Sys2Proof.Machine.execAddc b rd rs1 imm s
  | .addar b rd rs1 rs2 => Sys2Proof.Machine.execAddar b rd rs1 rs2 s
  | .movia b rd imm => Sys2Proof.Machine.execMovia b rd imm s
  | .movad b rd rs1 => Sys2Proof.Machine.execMovad b rd rs1 s
  | .bcc b cond rs annul off => Sys2Proof.Machine.execBcc b cond rs annul off s
  | .call b off => Sys2Proof.Machine.execCall b off s
  | .jr b rs1 => Sys2Proof.Machine.execJr b rs1 s
  | .callr b rs1 => Sys2Proof.Machine.execCallr b rs1 s
  | .rfe b => Sys2Proof.Machine.execRfe b s
  | .loop b level src count fin => Sys2Proof.Machine.execLoop b level src count fin s
  | .rep b src imm => Sys2Proof.Machine.execRep b src imm s
  | .trap b imm => Sys2Proof.Machine.execTrap b imm s
  | .brk b => Sys2Proof.Machine.execBrk b s
  | .csrr b rd csr => Sys2Proof.Machine.execCsrr b rd csr s
  | .csrw b rs csr => Sys2Proof.Machine.execCsrw b rs csr s
  | .csrra b rd csr => Sys2Proof.Machine.execCsrra b rd csr s
  | .csrwa b rs csr => Sys2Proof.Machine.execCsrwa b rs csr s
  | .lit b imm => Sys2Proof.Machine.execLit b imm s
  | .ldB b r p => Sys2Proof.Machine.execLdB b r p s
  | .ldBu b r p => Sys2Proof.Machine.execLdBu b r p s
  | .ldH b r p => Sys2Proof.Machine.execLdH b r p s
  | .ldHu b r p => Sys2Proof.Machine.execLdHu b r p s
  | .ldW b r p => Sys2Proof.Machine.execLdW b r p s
  | .ldA b r p => Sys2Proof.Machine.execLdA b r p s
  | .ldD b r p => Sys2Proof.Machine.execLdD b r p s
  | .stB b r p => Sys2Proof.Machine.execStB b r p s
  | .stH b r p => Sys2Proof.Machine.execStH b r p s
  | .stW b r p => Sys2Proof.Machine.execStW b r p s
  | .stA b r p => Sys2Proof.Machine.execStA b r p s
  | .stD b r p => Sys2Proof.Machine.execStD b r p s
  | .fence b => Sys2Proof.Machine.execFence b s
  | .cpx b tag an flag func squashed => Sys2Proof.Machine.execCpx b tag an flag func squashed s
  | .vldS b r p => Sys2Proof.Machine.execVldS b r p s
  | .vstS b r p => Sys2Proof.Machine.execVstS b r p s
  | .vldL b vw r p => Sys2Proof.Machine.execVldL b vw r p s
  | .vldLh b vw r p => Sys2Proof.Machine.execVldLh b vw r p s
  | .vldUh b vw r p => Sys2Proof.Machine.execVldUh b vw r p s
  | .vstL b vw r p => Sys2Proof.Machine.execVstL b vw r p s
  | .vstLh b vw r p => Sys2Proof.Machine.execVstLh b vw r p s
  | .vstUh b vw r p => Sys2Proof.Machine.execVstUh b vw r p s
  | .vaddS b vd va vb => Sys2Proof.Machine.execVaddS b vd va vb s
  | .vsubS b vd va vb => Sys2Proof.Machine.execVsubS b vd va vb s
  | .vaddsS b vd va vb => Sys2Proof.Machine.execVaddsS b vd va vb s
  | .vsubsS b vd va vb => Sys2Proof.Machine.execVsubsS b vd va vb s
  | .vmulhS b vd va vb => Sys2Proof.Machine.execVmulhS b vd va vb s
  | .vsraS b vd va vb r imm6 => Sys2Proof.Machine.execVsraS b vd va vb r imm6 s
  | .vshlS b vd va vb r imm6 => Sys2Proof.Machine.execVshlS b vd va vb r imm6 s
  | .vmovs b vd va imm6 => Sys2Proof.Machine.execVmovs b vd va imm6 s
  | .vins b vd va imm6 => Sys2Proof.Machine.execVins b vd va imm6 s
  | .vbcstS b vd va => Sys2Proof.Machine.execVbcstS b vd va s
  | .vbexpS b vd va => Sys2Proof.Machine.execVbexpS b vd va s
  | .vgetc b vd va imm6 => Sys2Proof.Machine.execVgetc b vd va imm6 s
  | .vputc b vd va imm6 => Sys2Proof.Machine.execVputc b vd va imm6 s
  | .vaddH b vd va vb => Sys2Proof.Machine.execVaddH b vd va vb s
  | .vsubH b vd va vb => Sys2Proof.Machine.execVsubH b vd va vb s
  | .vaddsH b vd va vb => Sys2Proof.Machine.execVaddsH b vd va vb s
  | .vsubsH b vd va vb => Sys2Proof.Machine.execVsubsH b vd va vb s
  | .vaddW b vd va vb => Sys2Proof.Machine.execVaddW b vd va vb s
  | .vsubW b vd va vb => Sys2Proof.Machine.execVsubW b vd va vb s
  | .vminH b vd va vb => Sys2Proof.Machine.execVminH b vd va vb s
  | .vmaxH b vd va vb => Sys2Proof.Machine.execVmaxH b vd va vb s
  | .vand b vd va vb => Sys2Proof.Machine.execVand b vd va vb s
  | .vor b vd va vb => Sys2Proof.Machine.execVor b vd va vb s
  | .vxor b vd va vb => Sys2Proof.Machine.execVxor b vd va vb s
  | .vsraH b vd va vb r imm6 => Sys2Proof.Machine.execVsraH b vd va vb r imm6 s
  | .vshlH b vd va vb r imm6 => Sys2Proof.Machine.execVshlH b vd va vb r imm6 s
  | .vsraW b vd va vb r imm6 => Sys2Proof.Machine.execVsraW b vd va vb r imm6 s
  | .vshlW b vd va vb r imm6 => Sys2Proof.Machine.execVshlW b vd va vb r imm6 s
  | .vmulhH b vd va vb => Sys2Proof.Machine.execVmulhH b vd va vb s
  | .vmulw b vd va vb h => Sys2Proof.Machine.execVmulw b vd va vb h s
  | .vmac b vd va vb => Sys2Proof.Machine.execVmac b vd va vb s
  | .vmsu b vd va vb => Sys2Proof.Machine.execVmsu b vd va vb s
  | .vcmac b vd va vb h c => Sys2Proof.Machine.execVcmac b vd va vb h c s
  | .vcmsu b vd va vb h c => Sys2Proof.Machine.execVcmsu b vd va vb h c s
  | .vdot8 b vd va vb c => Sys2Proof.Machine.execVdot8 b vd va vb c s
  | .vclr b vd => Sys2Proof.Machine.execVclr b vd s
  | .vnarrowH b vd va vb h sat r imm6 => Sys2Proof.Machine.execVnarrowH b vd va vb h sat r imm6 s
  | .vnarrowW b vd va vb sat r imm6 => Sys2Proof.Machine.execVnarrowW b vd va vb sat r imm6 s
  | .vpack b vd va vb h sat r imm6 => Sys2Proof.Machine.execVpack b vd va vb h sat r imm6 s
  | .vbexpH b vd va imm6 => Sys2Proof.Machine.execVbexpH b vd va imm6 s
  | .vbexpW b vd va imm6 => Sys2Proof.Machine.execVbexpW b vd va imm6 s
  | .vbexpA b vd va imm6 => Sys2Proof.Machine.execVbexpA b vd va imm6 s
  | .vconj b vd va => Sys2Proof.Machine.execVconj b vd va s
  | .vswap b vd va => Sys2Proof.Machine.execVswap b vd va s
  | .vmov b vd va => Sys2Proof.Machine.execVmov b vd va s
  | .vbcstH b vd va => Sys2Proof.Machine.execVbcstH b vd va s
  | .vbcstW b vd va => Sys2Proof.Machine.execVbcstW b vd va s
  | .vaccrd b vd va h => Sys2Proof.Machine.execVaccrd b vd va h s
  | .vaccwr b vd va vb => Sys2Proof.Machine.execVaccwr b vd va vb s
  | .cacheFill c a => Sys2Proof.Machine.execCacheFill c a s
  | .haltRequest x => Sys2Proof.Machine.execHaltRequest x s
  | .debugResume x => Sys2Proof.Machine.execDebugResume x s
  | .killRequest x => Sys2Proof.Machine.execKillRequest x s
  | .switchRequest x => Sys2Proof.Machine.execSwitchRequest x s
  | .attnRequest x => Sys2Proof.Machine.execAttnRequest x s
  | .engineCommand m => Sys2Proof.Machine.execEngineCommand m s
  | .cpxAnswer x => Sys2Proof.Machine.execCpxAnswer x s
  | .commit m => Sys2Proof.Machine.execCommit m s
  | .cancel m => Sys2Proof.Machine.execCancel m s
  | .commandComplete e => Sys2Proof.Machine.execCommandComplete e s
  | .engineIdleGate e => Sys2Proof.Machine.execEngineIdleGate e s
  | .csDataWrite req r v => Sys2Proof.Machine.execCsDataWrite req r v s
  | .tcbStart req r t => Sys2Proof.Machine.execTcbStart req r t s
  | .tcbKill req r t => Sys2Proof.Machine.execTcbKill req r t s
  | .tcbRestart req r t => Sys2Proof.Machine.execTcbRestart req r t s
  | .dptPost req r t flag => Sys2Proof.Machine.execDptPost req r t flag s
  | .threadDispatch r upset => Sys2Proof.Machine.execThreadDispatch r upset s
  | .preempt r upset => Sys2Proof.Machine.execPreempt r upset s
  | .shadowPreload r c upset => Sys2Proof.Machine.execShadowPreload r c upset s
  | .opWait x all => Sys2Proof.Machine.execOpWait x all s
  | .opWaitUntil x all => Sys2Proof.Machine.execOpWaitUntil x all s
  | .opSleepUntil x => Sys2Proof.Machine.execOpSleepUntil x s
  | .opYield x => Sys2Proof.Machine.execOpYield x s
  | .opExit x => Sys2Proof.Machine.execOpExit x s
  | .opDone x op all => Sys2Proof.Machine.execOpDone x op all s
  | .selfDlHiWrite x v => Sys2Proof.Machine.execSelfDlHiWrite x v s
  | .selfLevelWrite x v => Sys2Proof.Machine.execSelfLevelWrite x v s
  | .lockEnter x l => Sys2Proof.Machine.execLockEnter x l s
  | .lockRelease x l n => Sys2Proof.Machine.execLockRelease x l n s
  | .heldReleasePerform r l => Sys2Proof.Machine.execHeldReleasePerform r l s
  | .delayEntryDue r => Sys2Proof.Machine.execDelayEntryDue r s
  | .deadlineMiss r t => Sys2Proof.Machine.execDeadlineMiss r t s
  | .threadFault x => Sys2Proof.Machine.execThreadFault x s
  | .coreEnWrite req r hi v => Sys2Proof.Machine.execCoreEnWrite req r hi v s
  | .lockCfgWrite req r l v => Sys2Proof.Machine.execLockCfgWrite req r l v s
  | .lockSeqWrite req r l v => Sys2Proof.Machine.execLockSeqWrite req r l v s
  | .ldpcEnc n => Sys2Proof.Machine.execLdpcEnc n s
  | .ldpcDec n => Sys2Proof.Machine.execLdpcDec n s
  | .turboEnc r => Sys2Proof.Machine.execTurboEnc r s
  | .turboDec r => Sys2Proof.Machine.execTurboDec r s
  | .polarEnc n => Sys2Proof.Machine.execPolarEnc n s
  | .polarDec n => Sys2Proof.Machine.execPolarDec n s
  | .crcOp n => Sys2Proof.Machine.execCrcOp n s
  | .ofdmDemod n => Sys2Proof.Machine.execOfdmDemod n s
  | .ofdmMod n => Sys2Proof.Machine.execOfdmMod n s
  | .dftOp n => Sys2Proof.Machine.execDftOp n s
  | .chest n => Sys2Proof.Machine.execChest n s
  | .equalise n => Sys2Proof.Machine.execEqualise n s
  | .engineDisable req e started => Sys2Proof.Machine.execEngineDisable req e started s
  | .engineEnable req e v => Sys2Proof.Machine.execEngineEnable req e v s
  | .streamWrite req r ix v => Sys2Proof.Machine.execStreamWrite req r ix v s
  | .heldPageWrite r => Sys2Proof.Machine.execHeldPageWrite r s
  | .ulCombine r => Sys2Proof.Machine.execUlCombine r s
  | .dlPrecode r => Sys2Proof.Machine.execDlPrecode r s
  | .srsEst r => Sys2Proof.Machine.execSrsEst r s
  | .covAcc r => Sys2Proof.Machine.execCovAcc r s
  | .weightSolve r => Sys2Proof.Machine.execWeightSolve r s
  | .wcopy r => Sys2Proof.Machine.execWcopy r s
  | .bfaPost r => Sys2Proof.Machine.execBfaPost r s
  | .bfaNop r => Sys2Proof.Machine.execBfaNop r s
  | .bfaOpComplete r => Sys2Proof.Machine.execBfaOpComplete r s
  | .seqStart req r h => Sys2Proof.Machine.execSeqStart req r h s
  | .seqStop req r h => Sys2Proof.Machine.execSeqStop req r h s
  | .immOp req r e => Sys2Proof.Machine.execImmOp req r e s
  | .cellActivate req r c => Sys2Proof.Machine.execCellActivate req r c s
  | .forceColdUl req r c => Sys2Proof.Machine.execForceColdUl req r c s
  | .forceColdDl req r c => Sys2Proof.Machine.execForceColdDl req r c s
  | .cellCfgWrite req r c w v => Sys2Proof.Machine.execCellCfgWrite req r c w v s
  | .bfaDisable req r v => Sys2Proof.Machine.execBfaDisable req r v s
  | .bfaEnable req r v => Sys2Proof.Machine.execBfaEnable req r v s
  | .burstRx r => Sys2Proof.Machine.execBurstRx r s
  | .burstTx r => Sys2Proof.Machine.execBurstTx r s
  | .rdReq hdr => Sys2Proof.Machine.execRdReq hdr s
  | .wrReq hdr => Sys2Proof.Machine.execWrReq hdr s
  | .rdData hdr => Sys2Proof.Machine.execRdData hdr s
  | .wrAck hdr => Sys2Proof.Machine.execWrAck hdr s
  | .scrubRead m => Sys2Proof.Machine.execScrubRead m s
  | .poolInit req n banks => Sys2Proof.Machine.execPoolInit req n banks s
  | .poolInitDone n b => Sys2Proof.Machine.execPoolInitDone n b s
  | .poisonWrite req n hi => Sys2Proof.Machine.execPoisonWrite req n hi s
  | .rsvInitDone ix => Sys2Proof.Machine.execRsvInitDone ix s
  | .stackWake ix => Sys2Proof.Machine.execStackWake ix s
  | .flipArm req n v => Sys2Proof.Machine.execFlipArm req n v s
  | .flipDisarm req n v => Sys2Proof.Machine.execFlipDisarm req n v s
  | .requestSend req wr tid a len data m0 m1 => Sys2Proof.Machine.execRequestSend req wr tid a len data m0 m1 s
  | .responseTimeout init tid => Sys2Proof.Machine.execResponseTimeout init tid s
  | .endpointFence e => Sys2Proof.Machine.execEndpointFence e s
  | .fenceComplete e => Sys2Proof.Machine.execFenceComplete e s
  | .endpointReopen e => Sys2Proof.Machine.execEndpointReopen e s
  | .grantWrite req k v => Sys2Proof.Machine.execGrantWrite req k v s
  | .planValidate req p ranges => Sys2Proof.Machine.execPlanValidate req p ranges s
  | .planCheckEnd p => Sys2Proof.Machine.execPlanCheckEnd p s
  | .flipRequest r => Sys2Proof.Machine.execFlipRequest r s
  | .flipSignal => Sys2Proof.Machine.execFlipSignal s
  | .niFlipConfirm e => Sys2Proof.Machine.execNiFlipConfirm e s
  | .flipComplete pause => Sys2Proof.Machine.execFlipComplete pause s
  | .routerClose n => Sys2Proof.Machine.execRouterClose n s
  | .linkTrainingDone n => Sys2Proof.Machine.execLinkTrainingDone n s
  | .linkReplay l failed => Sys2Proof.Machine.execLinkReplay l failed s
  | .doorbell req f count => Sys2Proof.Machine.execDoorbell req f count s
  | .descriptorFetch f => Sys2Proof.Machine.execDescriptorFetch f s
  | .descriptorReturn f => Sys2Proof.Machine.execDescriptorReturn f s
  | .burstStart f => Sys2Proof.Machine.execBurstStart f s
  | .burstAck f => Sys2Proof.Machine.execBurstAck f s
  | .writeback f => Sys2Proof.Machine.execWriteback f s
  | .writebackAck f => Sys2Proof.Machine.execWritebackAck f s
  | .flumeDisable req f v => Sys2Proof.Machine.execFlumeDisable req f v s
  | .flumeEnable req f v => Sys2Proof.Machine.execFlumeEnable req f v s
  | .flumeCfgWrite req f k v => Sys2Proof.Machine.execFlumeCfgWrite req f k v s
  | .rateWrite req l v => Sys2Proof.Machine.execRateWrite req l v s
  | .familyWrite req q v => Sys2Proof.Machine.execFamilyWrite req q v s
  | .quadPllUnlock q loss => Sys2Proof.Machine.execQuadPllUnlock q loss s
  | .quadPllRelock q cpri => Sys2Proof.Machine.execQuadPllRelock q cpri s
  | .symbolReceive l bits => Sys2Proof.Machine.execSymbolReceive l bits s
  | .blockReceive l hdr => Sys2Proof.Machine.execBlockReceive l hdr s
  | .txeqWrite req l v => Sys2Proof.Machine.execTxeqWrite req l v s
  | .adaptDone l val0 val1 => Sys2Proof.Machine.execAdaptDone l val0 val1 s
  | .adaptFail l => Sys2Proof.Machine.execAdaptFail l s
  | .sigDetFall l => Sys2Proof.Machine.execSigDetFall l s
  | .sigDetRise l => Sys2Proof.Machine.execSigDetRise l s
  | .prbsLock l => Sys2Proof.Machine.execPrbsLock l s
  | .prbsLockLost l => Sys2Proof.Machine.execPrbsLockLost l s
  | .prbsClear req l v => Sys2Proof.Machine.execPrbsClear req l v s
  | .laneCounterClear req l => Sys2Proof.Machine.execLaneCounterClear req l s
  | .lanePwrReq req l state => Sys2Proof.Machine.execLanePwrReq req l state s
  | .lanePwrTransitionDone l => Sys2Proof.Machine.execLanePwrTransitionDone l s
  | .userBindWrite req h k ix v => Sys2Proof.Machine.execUserBindWrite req h k ix v s
  | .frameReceive h p frame ts tend => Sys2Proof.Machine.execFrameReceive h p frame ts tend s
  | .scheduleEnable req h ix v => Sys2Proof.Machine.execScheduleEnable req h ix v s
  | .uplaneTransmit h ix => Sys2Proof.Machine.execUplaneTransmit h ix s
  | .rxqWindowRead h k n => Sys2Proof.Machine.execRxqWindowRead h k n s
  | .txqWindowWrite h k data => Sys2Proof.Machine.execTxqWindowWrite h k data s
  | .txRecordSend h k => Sys2Proof.Machine.execTxRecordSend h k s
  | .cpriHyperframeRx h k start data delay => Sys2Proof.Machine.execCpriHyperframeRx h k start data delay s
  | .cpriHyperframeTx h k => Sys2Proof.Machine.execCpriHyperframeTx h k s
  | .trunkLaneFrameRx h j time overhead => Sys2Proof.Machine.execTrunkLaneFrameRx h j time overhead s
  | .trunkFrameTx h g => Sys2Proof.Machine.execTrunkFrameTx h g s
  | .trunkCellRx h j cell => Sys2Proof.Machine.execTrunkCellRx h j cell s
  | .trunkGroupEnWrite req h g v => Sys2Proof.Machine.execTrunkGroupEnWrite req h g v s
  | .sluiceEvaluate ix => Sys2Proof.Machine.execSluiceEvaluate ix s
  | .dozeEntry ix => Sys2Proof.Machine.execDozeEntry ix s
  | .prepare d => Sys2Proof.Machine.execPrepare d s
  | .vote d voter => Sys2Proof.Machine.execVote d voter s
  | .voteTimeout d voter => Sys2Proof.Machine.execVoteTimeout d voter s
  | .domainEntryComplete d => Sys2Proof.Machine.execDomainEntryComplete d s
  | .sluiceRetry d => Sys2Proof.Machine.execSluiceRetry d s
  | .demandWake d => Sys2Proof.Machine.execDemandWake d s
  | .domainWake d => Sys2Proof.Machine.execDomainWake d s
  | .domainExitComplete d => Sys2Proof.Machine.execDomainExitComplete d s
  | .bfaClearDone r => Sys2Proof.Machine.execBfaClearDone r s
  | .contextStoreClearDone r => Sys2Proof.Machine.execContextStoreClearDone r s
  | .forceWrite req d v => Sys2Proof.Machine.execForceWrite req d v s
  | .rangePllLock r => Sys2Proof.Machine.execRangePllLock r s
  | .clockSelWrite req r v => Sys2Proof.Machine.execClockSelWrite req r v s
  | .clockSwitchDone r => Sys2Proof.Machine.execClockSwitchDone r s
  | .retentionBrownout n banks => Sys2Proof.Machine.execRetentionBrownout n banks s
  | .throttleApply => Sys2Proof.Machine.execThrottleApply s
  | .throttleRemove => Sys2Proof.Machine.execThrottleRemove s
  | .stackIdleSleep ix => Sys2Proof.Machine.execStackIdleSleep ix s
  | .hubLimitWrite req h hi v => Sys2Proof.Machine.execHubLimitWrite req h hi v s
  | .porstAssert => Sys2Proof.Machine.execPorstAssert s
  | .porstRelease straps flash cool => Sys2Proof.Machine.execPorstRelease straps flash cool s
  | .sysrstAssert => Sys2Proof.Machine.execSysrstAssert s
  | .sysrstRelease flash => Sys2Proof.Machine.execSysrstRelease flash s
  | .signatureCheck => Sys2Proof.Machine.execSignatureCheck s
  | .summitStart listed mbx h2s s2h => Sys2Proof.Machine.execSummitStart listed mbx h2s s2h s
  | .bootReady fail trim night => Sys2Proof.Machine.execBootReady fail trim night s
  | .capStart => Sys2Proof.Machine.execCapStart s
  | .fuseRevoke req keys => Sys2Proof.Machine.execFuseRevoke req keys s
  | .bootModeWrite req v => Sys2Proof.Machine.execBootModeWrite req v s
  | .modeReached => Sys2Proof.Machine.execModeReached s
  | .standbyWake m => Sys2Proof.Machine.execStandbyWake m s
  | .summitWatchdogExpiry => Sys2Proof.Machine.execSummitWatchdogExpiry s
  | .getStatus => Sys2Proof.Machine.execGetStatus s
  | .setMode => Sys2Proof.Machine.execSetMode s
  | .imageUpdate listed readOk => Sys2Proof.Machine.execImageUpdate listed readOk s
  | .slotInvalidate => Sys2Proof.Machine.execSlotInvalidate s
  | .linkXfer status data => Sys2Proof.Machine.execLinkXfer status data s
  | .sensorRead => Sys2Proof.Machine.execSensorRead s
  | .linkTest => Sys2Proof.Machine.execLinkTest s
  | .h2sDoorbell req prod => Sys2Proof.Machine.execH2sDoorbell req prod s
  | .s2hDoorbell req prod => Sys2Proof.Machine.execS2hDoorbell req prod s
  | .dacInWrite req c code => Sys2Proof.Machine.execDacInWrite req c code s
  | .dacStrobe req groups => Sys2Proof.Machine.execDacStrobe req groups s
  | .dacLoadEdge => Sys2Proof.Machine.execDacLoadEdge s
  | .dacQueueStep c => Sys2Proof.Machine.execDacQueueStep c s
  | .dacQstop req c => Sys2Proof.Machine.execDacQstop req c s
  | .dacQcfgWrite req c period v => Sys2Proof.Machine.execDacQcfgWrite req c period v s
  | .deglitchHoldEnd c => Sys2Proof.Machine.execDeglitchHoldEnd c s
  | .dacRangeWrite req c range => Sys2Proof.Machine.execDacRangeWrite req c range s
  | .rangeHoldEnd c => Sys2Proof.Machine.execRangeHoldEnd c s
  | .dacOutEnWrite req c en => Sys2Proof.Machine.execDacOutEnWrite req c en s
  | .dacForceSafe req chans => Sys2Proof.Machine.execDacForceSafe req chans s
  | .dacResume req c => Sys2Proof.Machine.execDacResume req c s
  | .vddaHkBrownout => Sys2Proof.Machine.execVddaHkBrownout s
  | .toneFtwWrite req v => Sys2Proof.Machine.execToneFtwWrite req v s
  | .toneStep => Sys2Proof.Machine.execToneStep s
  | .adcConversion a code => Sys2Proof.Machine.execAdcConversion a code s
  | .adcUrgent req a input => Sys2Proof.Machine.execAdcUrgent req a input s
  | .adcRefWrite req a v => Sys2Proof.Machine.execAdcRefWrite req a v s
  | .refSettled a => Sys2Proof.Machine.execRefSettled a s
  | .eventDelivery => Sys2Proof.Machine.execEventDelivery s
  | .routeWrite req ix v => Sys2Proof.Machine.execRouteWrite req ix v s
  | .swevt req v => Sys2Proof.Machine.execSwevt req v s
  | .eventCountClear req => Sys2Proof.Machine.execEventCountClear req s
  | .msixUnmask f v => Sys2Proof.Machine.execMsixUnmask f v s
  | .hostMemoryRead f bar off n => Sys2Proof.Machine.execHostMemoryRead f bar off n s
  | .hostMemoryWrite f bar off data => Sys2Proof.Machine.execHostMemoryWrite f bar off data s
  | .hostRequestTimeout init tid => Sys2Proof.Machine.execHostRequestTimeout init tid s
  | .flr f => Sys2Proof.Machine.execFlr f s
  | .flrComplete f => Sys2Proof.Machine.execFlrComplete f s
  | .pciePerst => Sys2Proof.Machine.execPciePerst s
  | .pcieLinkChange up width speed => Sys2Proof.Machine.execPcieLinkChange up width speed s
  | .msixSizeWrite req f v => Sys2Proof.Machine.execMsixSizeWrite req f v s
  | .supplyBrownout => Sys2Proof.Machine.execSupplyBrownout s
  | .thermTrip => Sys2Proof.Machine.execThermTrip s
  | .cdrLockGained l => Sys2Proof.Machine.execCdrLockGained l s
  | .cdrLockLost l => Sys2Proof.Machine.execCdrLockLost l s
  | .tbPllRelock => Sys2Proof.Machine.execTbPllRelock s
  | .supplyRecovery straps flash => Sys2Proof.Machine.execSupplyRecovery straps flash s
  | .vddaHkRecovery => Sys2Proof.Machine.execVddaHkRecovery s
  | .pcieConfigWrite f bme msixEn maskAll vfEn numVfs => Sys2Proof.Machine.execPcieConfigWrite f bme msixEn maskAll vfEn numVfs s
  | .prbsBitError l => Sys2Proof.Machine.execPrbsBitError l s

end Sys2Proof.Machine
end

