-- ==== Sys2Proof/Machine/Step.lean ====
section
/-! DEFINITION. One step: the command at the front of the queue, or a cycle of the timebase while no command waits. -/

namespace Sys2Proof.Machine

/-- The command at the front of the queue takes effect with the queue's rest. With no command waiting the timebase passes one of its
cycles (02_device_time.md R23, R38; assumption 2); the count goes on while SYSRST_N is held (16_startup_images_modes.md R370). -/
def step (s : State) : Host.Outcome State Fault Refusal :=
  match s.pending with
  | [] => .next s.tbCycle
  | c :: rest => exec c { s with pending := rest }

/-- The command that the word spells is put at the front of the queue. -/
def State.withFetchWord (s : State) (nbits w : Nat) : State :=
  match decodeTableWord nbits w with
  | none => s
  | some c => { s with pending := c :: s.pending }

end Sys2Proof.Machine
end

