-- ==== Sys2Proof/WellFormed.lean ====
section
/-! DEFINITION. Which commands can be spelled for a part: the units they name are present (00_scope.md R2, R3), and the byte strings
they carry have a length their event can have. The machine gives every command an outcome, well formed or not. -/

namespace Sys2Proof

/-- The ridge is one the part has. -/
def Part.hasRidge (p : Part) (n : Nat) : Bool := p.hasRange (n / 6)

/-- The core is one the part has. -/
def Part.hasCore (p : Part) (x : Nat) : Bool := p.hasRange (x / 48)

/-- The engine is one the part has. -/
def Part.hasEng (p : Part) : EngId → Bool
  | .codec n | .fft n | .eq n => p.hasRidge n.val
  | .turbo r | .nbe r => p.hasRange r.val

/-- The flume channel is one the part has. -/
def Part.hasFlume (p : Part) : FlumeId → Bool
  | .ridge n _ => p.hasRidge n.val
  | .hub h _ => p.hasRange h.val
  | .host _ => true

/-- The cache is one the part has. -/
def Part.hasCache (p : Part) : CacheId → Bool
  | .core x => p.hasCore x.val
  | .eng e => p.hasEng e

/-- The scrubbed memory is one the part has. -/
def Part.hasScrub (p : Part) : ScrubId → Bool
  | .pool n => p.hasRidge n.val
  | .stack _ => true

/-- The comparator is one the part has. -/
def Part.hasCmp (p : Part) : CmpId → Bool
  | .gt _ | .dac _ | .slc _ => true
  | .flume f => p.hasFlume f
  | .tp r _ | .seq r _ => p.hasRange r.val
  | .sch h _ => p.hasRange h.val

/-- The replica is one the part has. -/
def Part.hasReplica (p : Part) : ReplicaId → Bool
  | .tb | .hif | .hk | .slc => true
  | .ridge n => p.hasRidge n.val
  | .dpt r | .bfa r => p.hasRange r.val
  | .hub h => p.hasRange h.val
  | .core x => p.hasCore x.val

/-- The requester is one the part has. -/
def Part.hasRequester (p : Part) : Requester → Bool
  | .core x => p.hasCore x.val
  | .flume f => p.hasFlume f
  | .engine e => p.hasEng e
  | .bfa r => p.hasRange r.val
  | .hub h => p.hasRange h.val
  | .host _ | .bootRom | .summitCtl | .summitMgmt | .cap => true

/-- The core that issues the bundle. -/
def IssueAny.core : IssueAny → Fin 192
  | .s b => b.core
  | .m b => b.core
  | .v b => b.core

/-- The command can be spelled for the part. -/
def Instr.wf (p : Part) (i : Instr) : Bool :=
  match i with
  | .registerWrite req _ _ => p.hasRequester req
  | .lockSet req _ => p.hasRequester req
  | .refclkLost => true
  | .refclkRestored => true
  | .tbPllUnlock => true
  | .tbPllLock => true
  | .ppsEdgeHeld _ => true
  | .ppsMissing => true
  | .tbCap req => p.hasRequester req
  | .tick => true
  | .tickDivWrite req _ => p.hasRequester req
  | .tickDivApply => true
  | .treeCheck r => p.hasReplica r
  | .comparatorArm req c _ => p.hasRequester req && p.hasCmp c
  | .comparatorDisarm req c _ => p.hasRequester req && p.hasCmp c
  | .comparatorFire c => p.hasCmp c
  | .tbRateWrite req _ => p.hasRequester req
  | .slewCarry => true
  | .stepGo req _ => p.hasRequester req
  | .stepLoadAtPps req => p.hasRequester req
  | .recclkResume _ => true
  | .holdoverEntry _ _ => true
  | .holdoverWrite _ => true
  | .fullEntry => true
  | .nop b => p.hasCore b.core.val
  | .add b _ _ _ => p.hasCore b.core.val
  | .sub b _ _ _ => p.hasCore b.core.val
  | .and b _ _ _ => p.hasCore b.core.val
  | .or b _ _ _ => p.hasCore b.core.val
  | .xor b _ _ _ => p.hasCore b.core.val
  | .shl b _ _ _ => p.hasCore b.core.val
  | .shr b _ _ _ => p.hasCore b.core.val
  | .sra b _ _ _ => p.hasCore b.core.val
  | .cmpeq b _ _ _ => p.hasCore b.core.val
  | .cmplt b _ _ _ => p.hasCore b.core.val
  | .cmpltu b _ _ _ => p.hasCore b.core.val
  | .minOp b _ _ _ => p.hasCore b.core.val
  | .maxOp b _ _ _ => p.hasCore b.core.val
  | .adds b _ _ _ => p.hasCore b.core.val
  | .subs b _ _ _ => p.hasCore b.core.val
  | .abs b _ _ => p.hasCore b.core.val
  | .mul b _ _ _ => p.hasCore b.core.val
  | .mulh b _ _ _ => p.hasCore b.core.val
  | .mac b _ _ _ => p.hasCore b.core.val
  | .msu b _ _ _ => p.hasCore b.core.val
  | .ext b _ _ _ => p.hasCore b.core.val
  | .extS b _ _ _ => p.hasCore b.core.val
  | .exp b _ _ => p.hasCore b.core.val
  | .expa b _ _ => p.hasCore b.core.val
  | .norm b _ _ => p.hasCore b.core.val
  | .lda b _ _ => p.hasCore b.core.val
  | .movda b _ _ => p.hasCore b.core.val
  | .setcb b _ _ => p.hasCore b.core.val
  | .setcl b _ _ => p.hasCore b.core.val
  | .rdcb b _ _ => p.hasCore b.core.val
  | .rdcl b _ _ => p.hasCore b.core.val
  | .addi b _ _ _ => p.hasCore b.core.val
  | .andi b _ _ _ => p.hasCore b.core.val
  | .ori b _ _ _ => p.hasCore b.core.val
  | .xori b _ _ _ => p.hasCore b.core.val
  | .shli b _ _ _ => p.hasCore b.core.val
  | .shri b _ _ _ => p.hasCore b.core.val
  | .srai b _ _ _ => p.hasCore b.core.val
  | .cmpeqi b _ _ _ => p.hasCore b.core.val
  | .cmplti b _ _ _ => p.hasCore b.core.val
  | .movi b _ _ => p.hasCore b.core.val
  | .movhi b _ _ => p.hasCore b.core.val
  | .adda b _ _ _ => p.hasCore b.core.val
  | .addc b _ _ _ => p.hasCore b.core.val
  | .addar b _ _ _ => p.hasCore b.core.val
  | .movia b _ _ => p.hasCore b.core.val
  | .movad b _ _ => p.hasCore b.core.val
  | .bcc b _ _ _ _ => p.hasCore b.core.val
  | .call b _ => p.hasCore b.core.val
  | .jr b _ => p.hasCore b.core.val
  | .callr b _ => p.hasCore b.core.val
  | .rfe b => p.hasCore b.core.val
  | .loop b _ _ _ _ => p.hasCore b.core.val
  | .rep b _ _ => p.hasCore b.core.val
  | .trap b _ => p.hasCore b.core.val
  | .brk b => p.hasCore b.core.val
  | .csrr b _ _ => p.hasCore b.core.val
  | .csrw b _ _ => p.hasCore b.core.val
  | .csrra b _ _ => p.hasCore b.core.val
  | .csrwa b _ _ => p.hasCore b.core.val
  | .lit b _ => p.hasCore b.core.val
  | .ldB b _ _ => p.hasCore b.core.val
  | .ldBu b _ _ => p.hasCore b.core.val
  | .ldH b _ _ => p.hasCore b.core.val
  | .ldHu b _ _ => p.hasCore b.core.val
  | .ldW b _ _ => p.hasCore b.core.val
  | .ldA b _ _ => p.hasCore b.core.val
  | .ldD b _ _ => p.hasCore b.core.val
  | .stB b _ _ => p.hasCore b.core.val
  | .stH b _ _ => p.hasCore b.core.val
  | .stW b _ _ => p.hasCore b.core.val
  | .stA b _ _ => p.hasCore b.core.val
  | .stD b _ _ => p.hasCore b.core.val
  | .fence b => p.hasCore b.core.val
  | .cpx b _ _ _ _ _ => p.hasCore b.core.val
  | .vldS b _ _ => p.hasCore b.core.val
  | .vstS b _ _ => p.hasCore b.core.val
  | .vldL b _ _ _ => p.hasCore b.core.val
  | .vldLh b _ _ _ => p.hasCore b.core.val
  | .vldUh b _ _ _ => p.hasCore b.core.val
  | .vstL b _ _ _ => p.hasCore b.core.val
  | .vstLh b _ _ _ => p.hasCore b.core.val
  | .vstUh b _ _ _ => p.hasCore b.core.val
  | .vaddS b _ _ _ => p.hasCore b.core.val
  | .vsubS b _ _ _ => p.hasCore b.core.val
  | .vaddsS b _ _ _ => p.hasCore b.core.val
  | .vsubsS b _ _ _ => p.hasCore b.core.val
  | .vmulhS b _ _ _ => p.hasCore b.core.val
  | .vsraS b _ _ _ _ _ => p.hasCore b.core.val
  | .vshlS b _ _ _ _ _ => p.hasCore b.core.val
  | .vmovs b _ _ _ => p.hasCore b.core.val
  | .vins b _ _ _ => p.hasCore b.core.val
  | .vbcstS b _ _ => p.hasCore b.core.val
  | .vbexpS b _ _ => p.hasCore b.core.val
  | .vgetc b _ _ _ => p.hasCore b.core.val
  | .vputc b _ _ _ => p.hasCore b.core.val
  | .vaddH b _ _ _ => p.hasCore b.core.val
  | .vsubH b _ _ _ => p.hasCore b.core.val
  | .vaddsH b _ _ _ => p.hasCore b.core.val
  | .vsubsH b _ _ _ => p.hasCore b.core.val
  | .vaddW b _ _ _ => p.hasCore b.core.val
  | .vsubW b _ _ _ => p.hasCore b.core.val
  | .vminH b _ _ _ => p.hasCore b.core.val
  | .vmaxH b _ _ _ => p.hasCore b.core.val
  | .vand b _ _ _ => p.hasCore b.core.val
  | .vor b _ _ _ => p.hasCore b.core.val
  | .vxor b _ _ _ => p.hasCore b.core.val
  | .vsraH b _ _ _ _ _ => p.hasCore b.core.val
  | .vshlH b _ _ _ _ _ => p.hasCore b.core.val
  | .vsraW b _ _ _ _ _ => p.hasCore b.core.val
  | .vshlW b _ _ _ _ _ => p.hasCore b.core.val
  | .vmulhH b _ _ _ => p.hasCore b.core.val
  | .vmulw b _ _ _ _ => p.hasCore b.core.val
  | .vmac b _ _ _ => p.hasCore b.core.val
  | .vmsu b _ _ _ => p.hasCore b.core.val
  | .vcmac b _ _ _ _ _ => p.hasCore b.core.val
  | .vcmsu b _ _ _ _ _ => p.hasCore b.core.val
  | .vdot8 b _ _ _ _ => p.hasCore b.core.val
  | .vclr b _ => p.hasCore b.core.val
  | .vnarrowH b _ _ _ _ _ _ _ => p.hasCore b.core.val
  | .vnarrowW b _ _ _ _ _ _ => p.hasCore b.core.val
  | .vpack b _ _ _ _ _ _ _ => p.hasCore b.core.val
  | .vbexpH b _ _ _ => p.hasCore b.core.val
  | .vbexpW b _ _ _ => p.hasCore b.core.val
  | .vbexpA b _ _ _ => p.hasCore b.core.val
  | .vconj b _ _ => p.hasCore b.core.val
  | .vswap b _ _ => p.hasCore b.core.val
  | .vmov b _ _ => p.hasCore b.core.val
  | .vbcstH b _ _ => p.hasCore b.core.val
  | .vbcstW b _ _ => p.hasCore b.core.val
  | .vaccrd b _ _ _ => p.hasCore b.core.val
  | .vaccwr b _ _ _ => p.hasCore b.core.val
  | .cacheFill c _ => p.hasCache c
  | .haltRequest x => p.hasCore x.val
  | .debugResume x => p.hasCore x.val
  | .killRequest x => p.hasCore x.val
  | .switchRequest x => p.hasCore x.val
  | .attnRequest x => p.hasCore x.val
  | .engineCommand _ => true
  | .cpxAnswer x => p.hasCore x.val
  | .commit _ => true
  | .cancel _ => true
  | .commandComplete e => p.hasEng e
  | .engineIdleGate e => p.hasEng e
  | .csDataWrite req r _ => p.hasRequester req && p.hasRange r.val
  | .tcbStart req r _ => p.hasRequester req && p.hasRange r.val
  | .tcbKill req r _ => p.hasRequester req && p.hasRange r.val
  | .tcbRestart req r _ => p.hasRequester req && p.hasRange r.val
  | .dptPost req r _ _ => p.hasRequester req && p.hasRange r.val
  | .threadDispatch r _ => p.hasRange r.val
  | .preempt r _ => p.hasRange r.val
  | .shadowPreload r _ _ => p.hasRange r.val
  | .opWait x _ => p.hasCore x.val
  | .opWaitUntil x _ => p.hasCore x.val
  | .opSleepUntil x => p.hasCore x.val
  | .opYield x => p.hasCore x.val
  | .opExit x => p.hasCore x.val
  | .opDone x _ _ => p.hasCore x.val
  | .selfDlHiWrite x _ => p.hasCore x.val
  | .selfLevelWrite x _ => p.hasCore x.val
  | .lockEnter x _ => p.hasCore x.val
  | .lockRelease x _ _ => p.hasCore x.val
  | .heldReleasePerform r _ => p.hasRange r.val
  | .delayEntryDue r => p.hasRange r.val
  | .deadlineMiss r _ => p.hasRange r.val
  | .threadFault x => p.hasCore x.val
  | .coreEnWrite req r _ _ => p.hasRequester req && p.hasRange r.val
  | .lockCfgWrite req r _ _ => p.hasRequester req && p.hasRange r.val
  | .lockSeqWrite req r _ _ => p.hasRequester req && p.hasRange r.val
  | .ldpcEnc n => p.hasRidge n.val
  | .ldpcDec n => p.hasRidge n.val
  | .turboEnc r => p.hasRange r.val
  | .turboDec r => p.hasRange r.val
  | .polarEnc n => p.hasRidge n.val
  | .polarDec n => p.hasRidge n.val
  | .crcOp n => p.hasRidge n.val
  | .ofdmDemod n => p.hasRidge n.val
  | .ofdmMod n => p.hasRidge n.val
  | .dftOp n => p.hasRidge n.val
  | .chest n => p.hasRidge n.val
  | .equalise n => p.hasRidge n.val
  | .engineDisable req e _ => p.hasRequester req && p.hasEng e
  | .engineEnable req e _ => p.hasRequester req && p.hasEng e
  | .streamWrite req r _ _ => p.hasRequester req && p.hasRange r.val
  | .heldPageWrite r => p.hasRange r.val
  | .ulCombine r => p.hasRange r.val
  | .dlPrecode r => p.hasRange r.val
  | .srsEst r => p.hasRange r.val
  | .covAcc r => p.hasRange r.val
  | .weightSolve r => p.hasRange r.val
  | .wcopy r => p.hasRange r.val
  | .bfaPost r => p.hasRange r.val
  | .bfaNop r => p.hasRange r.val
  | .bfaOpComplete r => p.hasRange r.val
  | .seqStart req r _ => p.hasRequester req && p.hasRange r.val
  | .seqStop req r _ => p.hasRequester req && p.hasRange r.val
  | .immOp req r _ => p.hasRequester req && p.hasRange r.val
  | .cellActivate req r _ => p.hasRequester req && p.hasRange r.val
  | .forceColdUl req r _ => p.hasRequester req && p.hasRange r.val
  | .forceColdDl req r _ => p.hasRequester req && p.hasRange r.val
  | .cellCfgWrite req r _ _ _ => p.hasRequester req && p.hasRange r.val
  | .bfaDisable req r _ => p.hasRequester req && p.hasRange r.val
  | .bfaEnable req r _ => p.hasRequester req && p.hasRange r.val
  | .burstRx r => p.hasRange r.val
  | .burstTx r => p.hasRange r.val
  | .rdReq _ => true
  | .wrReq _ => true
  | .rdData _ => true
  | .wrAck _ => true
  | .scrubRead m => p.hasScrub m
  | .poolInit req n _ => p.hasRequester req && p.hasRidge n.val
  | .poolInitDone n _ => p.hasRidge n.val
  | .poisonWrite req _ _ => p.hasRequester req
  | .rsvInitDone _ => true
  | .stackWake _ => true
  | .flipArm req _ _ => p.hasRequester req
  | .flipDisarm req _ _ => p.hasRequester req
  | .requestSend req wr _ _ len data _ _ => p.hasRequester req && decide ((if wr then data.length else len.val) ≤ 256 ∧ 0 < (if wr then data.length else len.val))
  | .responseTimeout _ _ => true
  | .endpointFence _ => true
  | .fenceComplete _ => true
  | .endpointReopen _ => true
  | .grantWrite req _ _ => p.hasRequester req
  | .planValidate req _ _ => p.hasRequester req
  | .planCheckEnd _ => true
  | .flipRequest r => p.hasRange r.val
  | .flipSignal => true
  | .niFlipConfirm _ => true
  | .flipComplete _ => true
  | .routerClose _ => true
  | .linkTrainingDone _ => true
  | .linkReplay _ _ => true
  | .doorbell req f _ => p.hasRequester req && p.hasFlume f
  | .descriptorFetch f => p.hasFlume f
  | .descriptorReturn f => p.hasFlume f
  | .burstStart f => p.hasFlume f
  | .burstAck f => p.hasFlume f
  | .writeback f => p.hasFlume f
  | .writebackAck f => p.hasFlume f
  | .flumeDisable req f _ => p.hasRequester req && p.hasFlume f
  | .flumeEnable req f _ => p.hasRequester req && p.hasFlume f
  | .flumeCfgWrite req f _ _ => p.hasRequester req && p.hasFlume f
  | .rateWrite req l _ => p.hasRequester req && p.hasRange (l.val / 24)
  | .familyWrite req q _ => p.hasRequester req && p.hasRange (q.val / 6)
  | .quadPllUnlock q _ => p.hasRange (q.val / 6)
  | .quadPllRelock q _ => p.hasRange (q.val / 6)
  | .symbolReceive l _ => p.hasRange (l.val / 24)
  | .blockReceive l _ => p.hasRange (l.val / 24)
  | .txeqWrite req l _ => p.hasRequester req && p.hasRange (l.val / 24)
  | .adaptDone l _ _ => p.hasRange (l.val / 24)
  | .adaptFail l => p.hasRange (l.val / 24)
  | .sigDetFall l => p.hasRange (l.val / 24)
  | .sigDetRise l => p.hasRange (l.val / 24)
  | .prbsLock l => p.hasRange (l.val / 24)
  | .prbsLockLost l => p.hasRange (l.val / 24)
  | .prbsClear req l _ => p.hasRequester req && p.hasRange (l.val / 24)
  | .laneCounterClear req l => p.hasRequester req && p.hasRange (l.val / 24)
  | .lanePwrReq req l _ => p.hasRequester req && p.hasRange (l.val / 24)
  | .lanePwrTransitionDone l => p.hasRange (l.val / 24)
  | .userBindWrite req h _ _ _ => p.hasRequester req && p.hasRange h.val
  | .frameReceive h _ _ _ _ => p.hasRange h.val
  | .scheduleEnable req h _ _ => p.hasRequester req && p.hasRange h.val
  | .uplaneTransmit h _ => p.hasRange h.val
  | .rxqWindowRead h _ _ => p.hasRange h.val
  | .txqWindowWrite h _ _ => p.hasRange h.val
  | .txRecordSend h _ => p.hasRange h.val
  | .cpriHyperframeRx h _ _ data _ => p.hasRange h.val && decide (data.length % 512 = 0)
  | .cpriHyperframeTx h _ => p.hasRange h.val
  | .trunkLaneFrameRx h _ _ overhead => p.hasRange h.val && decide (overhead.length = 64)
  | .trunkFrameTx h _ => p.hasRange h.val
  | .trunkCellRx h _ cell => p.hasRange h.val && decide (cell.length = 64)
  | .trunkGroupEnWrite req h _ _ => p.hasRequester req && p.hasRange h.val
  | .sluiceEvaluate _ => true
  | .dozeEntry _ => true
  | .prepare _ => true
  | .vote _ _ => true
  | .voteTimeout _ _ => true
  | .domainEntryComplete _ => true
  | .sluiceRetry _ => true
  | .demandWake _ => true
  | .domainWake _ => true
  | .domainExitComplete _ => true
  | .bfaClearDone r => p.hasRange r.val
  | .contextStoreClearDone r => p.hasRange r.val
  | .forceWrite req _ _ => p.hasRequester req
  | .rangePllLock r => p.hasRange r.val
  | .clockSelWrite req r _ => p.hasRequester req && p.hasRange r.val
  | .clockSwitchDone r => p.hasRange r.val
  | .retentionBrownout n _ => p.hasRidge n.val
  | .throttleApply => true
  | .throttleRemove => true
  | .stackIdleSleep _ => true
  | .hubLimitWrite req h _ _ => p.hasRequester req && p.hasRange h.val
  | .porstAssert => true
  | .porstRelease _ _ _ => true
  | .sysrstAssert => true
  | .sysrstRelease _ => true
  | .signatureCheck => true
  | .summitStart _ _ _ _ => true
  | .bootReady _ _ _ => true
  | .capStart => true
  | .fuseRevoke req _ => p.hasRequester req
  | .bootModeWrite req _ => p.hasRequester req
  | .modeReached => true
  | .standbyWake _ => true
  | .summitWatchdogExpiry => true
  | .getStatus => true
  | .setMode => true
  | .imageUpdate _ _ => true
  | .slotInvalidate => true
  | .linkXfer _ _ => true
  | .sensorRead => true
  | .linkTest => true
  | .h2sDoorbell req _ => p.hasRequester req
  | .s2hDoorbell req _ => p.hasRequester req
  | .dacInWrite req _ _ => p.hasRequester req
  | .dacStrobe req _ => p.hasRequester req
  | .dacLoadEdge => true
  | .dacQueueStep _ => true
  | .dacQstop req _ => p.hasRequester req
  | .dacQcfgWrite req _ _ _ => p.hasRequester req
  | .deglitchHoldEnd _ => true
  | .dacRangeWrite req _ _ => p.hasRequester req
  | .rangeHoldEnd _ => true
  | .dacOutEnWrite req _ _ => p.hasRequester req
  | .dacForceSafe req _ => p.hasRequester req
  | .dacResume req _ => p.hasRequester req
  | .vddaHkBrownout => true
  | .toneFtwWrite req _ => p.hasRequester req
  | .toneStep => true
  | .adcConversion _ _ => true
  | .adcUrgent req _ _ => p.hasRequester req
  | .adcRefWrite req _ _ => p.hasRequester req
  | .refSettled _ => true
  | .eventDelivery => true
  | .routeWrite req _ _ => p.hasRequester req
  | .swevt req _ => p.hasRequester req
  | .eventCountClear req => p.hasRequester req
  | .msixUnmask _ _ => true
  | .hostMemoryRead _ _ _ n => decide (0 < n.val)
  | .hostMemoryWrite _ _ _ data => decide (0 < data.length ∧ data.length ≤ 4096)
  | .hostRequestTimeout _ _ => true
  | .flr _ => true
  | .flrComplete _ => true
  | .pciePerst => true
  | .pcieLinkChange up width speed => (!up || (width.val ∈ [1, 2, 4, 8, 16] && decide (0 < speed.val)))
  | .msixSizeWrite req _ _ => p.hasRequester req
  | .supplyBrownout => true
  | .thermTrip => true
  | .cdrLockGained l => p.hasRange (l.val / 24)
  | .cdrLockLost l => p.hasRange (l.val / 24)
  | .tbPllRelock => true
  | .supplyRecovery _ _ => true
  | .vddaHkRecovery => true
  | .pcieConfigWrite _ _ _ _ _ _ => true
  | .prbsBitError l => p.hasRange (l.val / 24)

end Sys2Proof
end

