-- ==== Sys2Proof/Safety.lean ====
section
/-! DEFINITION. What claims say of runs and states. -/

namespace Sys2Proof.Machine

/-- The canonical form of memory: addresses rising, and no entry equal to what an unlisted address reads as. -/
abbrev Memory.wf (l : List Host.Cell) : Bool := swf memDefault l

/-- The command has an outcome and the device goes on. -/
def Completes (c : Instr) (s : State) : Prop := ∃ t, exec c s = .next t

/-- The command has no effect in the state. -/
def NoEffect (c : Instr) (s : State) : Prop := exec c s = .next s

/-- A command that asserts or releases a reset of the device, or trips it (16_startup_images_modes.md R370; 19_package_electrical.md
R434, R444). -/
def isReset : Instr → Bool
  | .porstAssert | .porstRelease _ _ _ | .sysrstAssert | .sysrstRelease _ | .supplyBrownout | .supplyRecovery _ _ | .thermTrip => true
  | _ => false

/-- A state from which the machine's steps reach another. -/
def Reaches (s t : State) : Prop := ∃ k, Host.Core.run core k s = .next t

/-! Writes of registers by requesters -/

/-- No DOWN link lies on the way of an access of a requester, or of its response (11_leat_fabric.md R275). -/
def State.clearWay (s : State) (req : Requester) (a : Nat) : Prop :=
  ∀ e, s.reach req a = .send e →
    s.pathDown (s.viaOf req.endpoint e) req.endpoint e = false ∧ s.pathDown (s.viaOf e req.endpoint) e req.endpoint = false

/-- A write of a register by a requester takes place: no reset is held, nothing on the way to it and back stops the access, its unit has
power, its plane rule lets the requester write, and no codeword it merges into is bad (11_leat_fabric.md R258 to R275;
01_device_overview.md R19; 10_memory_protection.md R243). -/
structure Granted (s : State) (req : Requester) (b : Block) (o : Nat) : Prop where
  live : s.held = none
  path : s.gate req (b.at o) 4 = none
  links : s.clearWay req (b.at o)
  there : decodeAddr s.part (b.at o) = .block b o
  power : s.blockOn b = true
  mine : writeClosed req b o = false
  plane : s.mayWrite req b o = true
  whole : s.regFails b o = false

/-- What a granted write answers: the effect, and the access done. -/
def State.granted (s : State) : State := { s with acc := .ok [] }

/-! Bundles of a Tarn core -/

/-- Core x as its next bundle sees it (03_tarn_scalar.md R62). -/
def State.view (s : State) (x : Fin 192) : Core := s.cores[x].tick

/-- Core x issues bundle b: it runs, nothing comes before the bundle, its fetch succeeds, it stands in no annulled delay slot, resumes
no access, and is legal and well placed (R57, R66, R67, R79, R87). -/
structure Issues (s : State) (x : Fin 192) (b : Bundle) : Prop where
  live : s.held = none
  may : s.mayIssue x b = true
  slot : s.cores[x].delay.any (·.annul) = false
  fetch : s.cores[x].fetchOk = true
  line : s.lineGone (.core x) (s.cores[x].fg.pc.toNat / 64) = false
  fresh : bit s.cores[x].fg.status 4 = false
  legal : b.badSlot = none
  placed : s.misplaced x (s.view x) b = false

/-- Core x issues bundle b, whose M slot makes no access and none of whose slots raises an exception: the bundle completes. -/
structure Completing (s : State) (x : Fin 192) (b : Bundle) : Prop extends Issues s x b where
  plain : b.m.mn = .nop ∨ b.m.mn = .fence
  quiet : excs (s.slotEffs x (s.view x) b) = []

/-- Bundle b of core x has completed in t: n bits of register r, from bit at_, receive v with latency lat. -/
def Writes (t : State) (x : Fin 192) (r : TReg) (at_ n v lat : Nat) (chain : Nat := lat) : Prop :=
  wr r at_ n v lat chain ∈ t.cores[x].pend

/-- Sticky bit i of tc.status of core x is set in t where c holds: CIRC_OUT 8, SAT 9, ACC_OVF 10 (R53). -/
def Flagged (t : State) (x : Fin 192) (i : Nat) (c : Prop) : Prop := c → bit t.cores[x].fg.status i = true

/-- Element j of w bits of a register image (04_tarn_vector.md R92). -/
def element (w j v : Nat) : BitVec w := BitVec.ofNat w (v / 2 ^ (w * j))

/-- t differs from s in core x alone, and in the count of free values. -/
def OnlyCore (s t : State) (x : Fin 192) : Prop :=
  { t with cores := s.cores, freeCtr := s.freeCtr } = s ∧ ∀ y : Fin 192, y ≠ x → t.cores[y] = s.cores[y]

end Sys2Proof.Machine
end

