-- ==== Sys2Proof/Certificates/Slice0/Obligations.lean ====
section
/-! DEFINITION. The statements for the provers. -/

namespace Sys2Proof.Machine

/-- The command completes, and the state after it satisfies P. -/
def Does (c : Instr) (s : State) (P : State → Prop) : Prop := ∃ t, exec c s = .next t ∧ P t

/-- The command completes: in a state that satisfies P and holds the posted writes that wait as they were, those are tried again (R251). -/
def DoesAndLands (c : Instr) (s : State) (P : State → Prop) : Prop := ∃ u, exec c s = .next u.landPosts ∧ u.posted = s.posted ∧ P u

/-- From s to t only registers of the list l, raised events ev with their counters, and nothing else changed. -/
structure OnlyRegs (s t : State) (l : List Nat) (ev : List Nat) : Prop where
  regs : ∀ a, a ∉ l → a ∉ ev.map countAddr → t.reg a = s.reg a
  events : t.events = s.events ++ ev.map fun i => (i, s.reg (routeAddr i))
  rest : { t with regs := s.regs, events := s.events } = s


/-- What a held device keeps: the state but for the timebase, the queue and nothing else. -/
def Still (z s : State) : Prop :=
  s.held ≠ none ∧ s.tb.slew = 0 ∧ (∀ c ∈ s.pending, isReset c = false) ∧ { s with pending := [], tb := {} } = z

/-- PORST_N and SYSRST_N asserted, a brownout and a thermal trip bring the device to such a state, with the timebase slew ended. -/
def ResetsHoldTheDevice : Prop :=
  ∀ s : State, (∀ c ∈ s.pending, isReset c = false) →
    (∀ c ∈ [Instr.porstAssert, .sysrstAssert, .supplyBrownout, .thermTrip], s.held = none →
      ∃ t, exec c s = .next t ∧ t.held ≠ none ∧ t.tb.slew = 0 ∧ t.pending = s.pending ∧ t.wakes = [] ∧ t.engSent = [] ∧ t.replies = [] ∧
        t.events = [] ∧ ∀ x : Fin 192, t.cores[x] = {}) ∧
    (s.held = none → ∃ t, exec .sysrstAssert s = .next t ∧ t.held = some .sysrst ∧ t.tb.now = s.tb.now ∧ t.tb.started = s.tb.started) ∧
    (s.held = none → ∃ t, exec .porstAssert s = .next t ∧ t.held = some .porst ∧ t.tb.now = 0 ∧ t.tb.started = false)

/-- Releases: the boot ROM starts from its first step, with the straps sampled at the release of PORST_N and after a supply recovery and
kept at the release of SYSRST_N (R370, R371, R434); a thermal trip keeps the device held until the sensors are cool (R444). -/
def ResetReleases : Prop :=
  ∀ (s : State) (straps : BitVec 3) (flash cool : Bool),
    (s.held = some .porst → (s.thermTrip = false ∨ cool = true) →
      exec (.porstRelease straps flash cool) s = .next ({ s with thermTrip := false }.bootRelease (some straps) flash)) ∧
    (s.held = some .porst → s.thermTrip = true → cool = false →
      exec (.porstRelease straps flash cool) s = .next { s with held := some .therm }) ∧
    (s.held = some .sysrst → exec (.sysrstRelease flash) s = .next (s.bootRelease none flash)) ∧
    (s.held = some .supply → s.thermTrip = false →
      exec (.supplyRecovery straps flash) s = .next (s.bootRelease (some straps) flash)) ∧
    (s.held = some .supply → s.thermTrip = true → exec (.supplyRecovery straps flash) s = .next { s with held := some .therm })

/-- A register reads as it was last set, and setting it leaves every other register, all memory and all else alone. -/
def RegisterReadAfterWrite : Prop :=
  ∀ (s : State) (a b : Nat) (v : Word), (s.setReg a v).reg a = v ∧ (b ≠ a → (s.setReg a v).reg b = s.reg b) ∧
    { s.setReg a v with regs := s.regs } = s

/-- Bytes written to memory read back, bytes outside them are as before, and the canonical form is kept. -/
def MemoryReadAfterWrite : Prop :=
  ∀ (s : State) (a : Nat) (l : List Byte),
    (∀ (i : Nat) (h : i < l.length), (s.setBytes a l).byte (a + i) = l[i]) ∧
    (∀ k, (k < a ∨ a + l.length ≤ k) → (s.setBytes a l).byte k = s.byte k) ∧
    (Memory.wf s.mem = true → Memory.wf (s.setBytes a l).mem = true) ∧
    { s.setBytes a l with mem := s.mem } = s

/-- The core and the bundle of a command that issues one (R56, R59). -/
def bundleOf : Instr → Option (Fin 192 × Bundle)
  | .nop (.s b) => some (b.core, b.bundle {})
  | .nop (.m b) => some (b.core, b.bundle {})
  | .nop (.v b) => some (b.core, b.bundle {})
  | .cpx b tag an flag func false => some (b.core, b.bundle { mn := .cpx, tag := tag, an := an, flag := flag, func := func })
  | .add b rd rs1 rs2 => some (b.core, b.bundle { mn := .add, rd := rd, rs1 := rs1, rs2 := rs2 })
  | .sub b rd rs1 rs2 => some (b.core, b.bundle { mn := .sub, rd := rd, rs1 := rs1, rs2 := rs2 })
  | .and b rd rs1 rs2 => some (b.core, b.bundle { mn := .and, rd := rd, rs1 := rs1, rs2 := rs2 })
  | .or b rd rs1 rs2 => some (b.core, b.bundle { mn := .or, rd := rd, rs1 := rs1, rs2 := rs2 })
  | .xor b rd rs1 rs2 => some (b.core, b.bundle { mn := .xor, rd := rd, rs1 := rs1, rs2 := rs2 })
  | .shl b rd rs1 rs2 => some (b.core, b.bundle { mn := .shl, rd := rd, rs1 := rs1, rs2 := rs2 })
  | .shr b rd rs1 rs2 => some (b.core, b.bundle { mn := .shr, rd := rd, rs1 := rs1, rs2 := rs2 })
  | .sra b rd rs1 rs2 => some (b.core, b.bundle { mn := .sra, rd := rd, rs1 := rs1, rs2 := rs2 })
  | .cmpeq b rd rs1 rs2 => some (b.core, b.bundle { mn := .cmpeq, rd := rd, rs1 := rs1, rs2 := rs2 })
  | .cmplt b rd rs1 rs2 => some (b.core, b.bundle { mn := .cmplt, rd := rd, rs1 := rs1, rs2 := rs2 })
  | .cmpltu b rd rs1 rs2 => some (b.core, b.bundle { mn := .cmpltu, rd := rd, rs1 := rs1, rs2 := rs2 })
  | .minOp b rd rs1 rs2 => some (b.core, b.bundle { mn := .min, rd := rd, rs1 := rs1, rs2 := rs2 })
  | .maxOp b rd rs1 rs2 => some (b.core, b.bundle { mn := .max, rd := rd, rs1 := rs1, rs2 := rs2 })
  | .adds b rd rs1 rs2 => some (b.core, b.bundle { mn := .adds, rd := rd, rs1 := rs1, rs2 := rs2 })
  | .subs b rd rs1 rs2 => some (b.core, b.bundle { mn := .subs, rd := rd, rs1 := rs1, rs2 := rs2 })
  | .abs b rd rs1 => some (b.core, b.bundle { mn := .abs, rd := rd, rs1 := rs1 })
  | .mul b rd rs1 rs2 => some (b.core, b.bundle { mn := .mul, rd := rd, rs1 := rs1, rs2 := rs2 })
  | .mulh b rd rs1 rs2 => some (b.core, b.bundle { mn := .mulh, rd := rd, rs1 := rs1, rs2 := rs2 })
  | .mac b rd rs1 rs2 => some (b.core, b.bundle { mn := .mac, rd := rd, rs1 := rs1, rs2 := rs2 })
  | .msu b rd rs1 rs2 => some (b.core, b.bundle { mn := .msu, rd := rd, rs1 := rs1, rs2 := rs2 })
  | .ext b rd rs1 sh => some (b.core, b.bundle { mn := .ext, rd := rd, rs1 := rs1, sh := sh })
  | .extS b rd rs1 sh => some (b.core, b.bundle { mn := .exts, rd := rd, rs1 := rs1, sh := sh })
  | .exp b rd rs1 => some (b.core, b.bundle { mn := .exp, rd := rd, rs1 := rs1 })
  | .expa b rd rs1 => some (b.core, b.bundle { mn := .expa, rd := rd, rs1 := rs1 })
  | .norm b rd rs1 => some (b.core, b.bundle { mn := .norm, rd := rd, rs1 := rs1 })
  | .lda b rd rs1 => some (b.core, b.bundle { mn := .lda, rd := rd, rs1 := rs1 })
  | .movda b rd rs1 => some (b.core, b.bundle { mn := .movda, rd := rd, rs1 := rs1 })
  | .setcb b rd rs1 => some (b.core, b.bundle { mn := .setcb, rd := rd, rs1 := rs1 })
  | .setcl b rd rs1 => some (b.core, b.bundle { mn := .setcl, rd := rd, rs1 := rs1 })
  | .rdcb b rd rs1 => some (b.core, b.bundle { mn := .rdcb, rd := rd, rs1 := rs1 })
  | .rdcl b rd rs1 => some (b.core, b.bundle { mn := .rdcl, rd := rd, rs1 := rs1 })
  | .addi b rd rs1 imm => some (b.core, b.bundle { mn := .addi, rd := rd, rs1 := rs1, imm := imm.setWidth 26 })
  | .andi b rd rs1 imm => some (b.core, b.bundle { mn := .andi, rd := rd, rs1 := rs1, imm := imm.setWidth 26 })
  | .ori b rd rs1 imm => some (b.core, b.bundle { mn := .ori, rd := rd, rs1 := rs1, imm := imm.setWidth 26 })
  | .xori b rd rs1 imm => some (b.core, b.bundle { mn := .xori, rd := rd, rs1 := rs1, imm := imm.setWidth 26 })
  | .shli b rd rs1 imm => some (b.core, b.bundle { mn := .shli, rd := rd, rs1 := rs1, imm := imm.setWidth 26 })
  | .shri b rd rs1 imm => some (b.core, b.bundle { mn := .shri, rd := rd, rs1 := rs1, imm := imm.setWidth 26 })
  | .srai b rd rs1 imm => some (b.core, b.bundle { mn := .srai, rd := rd, rs1 := rs1, imm := imm.setWidth 26 })
  | .cmpeqi b rd rs1 imm => some (b.core, b.bundle { mn := .cmpeqi, rd := rd, rs1 := rs1, imm := imm.setWidth 26 })
  | .cmplti b rd rs1 imm => some (b.core, b.bundle { mn := .cmplti, rd := rd, rs1 := rs1, imm := imm.setWidth 26 })
  | .movi b rd imm => some (b.core, b.bundle { mn := .movi, rd := rd, imm := imm.setWidth 26 })
  | .movhi b rd imm => some (b.core, b.bundle { mn := .movhi, rd := rd, imm := imm.setWidth 26 })
  | .adda b rd rs1 imm => some (b.core, b.bundle { mn := .adda, rd := rd, rs1 := rs1, imm := imm.setWidth 26 })
  | .addc b rd rs1 imm => some (b.core, b.bundle { mn := .addc, rd := rd, rs1 := rs1, imm := imm.setWidth 26 })
  | .addar b rd rs1 rs2 => some (b.core, b.bundle { mn := .addar, rd := rd, rs1 := rs1, rs2 := rs2 })
  | .movia b rd imm => some (b.core, b.bundle { mn := .movia, rd := rd, imm := imm.setWidth 26 })
  | .movad b rd rs1 => some (b.core, b.bundle { mn := .movad, rd := rd, rs1 := rs1 })
  | .bcc b cond rs annul off => some (b.core, b.bundle { mn := .bcc, cond := cond, rs1 := rs, flag := annul, imm := off.setWidth 26 })
  | .call b off => some (b.core, b.bundle { mn := .call, imm := off })
  | .jr b rs1 => some (b.core, b.bundle { mn := .jr, rs1 := rs1 })
  | .callr b rs1 => some (b.core, b.bundle { mn := .callr, rs1 := rs1 })
  | .rfe b => some (b.core, b.bundle { mn := .rfe })
  | .loop b level src count fin => some (b.core, b.bundle { mn := .loop, cond := level.setWidth 4, flag := src, imm := count.setWidth 26, fin := fin })
  | .rep b src imm => some (b.core, b.bundle { mn := .rep, flag := src, imm := imm.setWidth 26 })
  | .trap b imm => some (b.core, b.bundle { mn := .trap, imm := imm.setWidth 26 })
  | .brk b => some (b.core, b.bundle { mn := .brk })
  | .csrr b rd csr => some (b.core, b.bundle { mn := .csrr, rd := rd, imm := csr.setWidth 26 })
  | .csrw b rs csr => some (b.core, b.bundle { mn := .csrw, rd := rs, imm := csr.setWidth 26 })
  | .csrra b rd csr => some (b.core, b.bundle { mn := .csrra, rd := rd, imm := csr.setWidth 26 })
  | .csrwa b rs csr => some (b.core, b.bundle { mn := .csrwa, rd := rs, imm := csr.setWidth 26 })
  | .lit b imm => some (b.core, b.bundle { mn := .lit, imm := imm })
  | .ldB b r p => some (b.core, b.bundle { mn := .ldb, r := r, an := p.an, mode := p.mode, imm := p.imm })
  | .ldBu b r p => some (b.core, b.bundle { mn := .ldbu, r := r, an := p.an, mode := p.mode, imm := p.imm })
  | .ldH b r p => some (b.core, b.bundle { mn := .ldh, r := r, an := p.an, mode := p.mode, imm := p.imm })
  | .ldHu b r p => some (b.core, b.bundle { mn := .ldhu, r := r, an := p.an, mode := p.mode, imm := p.imm })
  | .ldW b r p => some (b.core, b.bundle { mn := .ldw, r := r, an := p.an, mode := p.mode, imm := p.imm })
  | .ldA b r p => some (b.core, b.bundle { mn := .lda, r := r, an := p.an, mode := p.mode, imm := p.imm })
  | .ldD b r p => some (b.core, b.bundle { mn := .ldd, r := r, an := p.an, mode := p.mode, imm := p.imm })
  | .stB b r p => some (b.core, b.bundle { mn := .stb, r := r, an := p.an, mode := p.mode, imm := p.imm })
  | .stH b r p => some (b.core, b.bundle { mn := .sth, r := r, an := p.an, mode := p.mode, imm := p.imm })
  | .stW b r p => some (b.core, b.bundle { mn := .stw, r := r, an := p.an, mode := p.mode, imm := p.imm })
  | .stA b r p => some (b.core, b.bundle { mn := .sta, r := r, an := p.an, mode := p.mode, imm := p.imm })
  | .stD b r p => some (b.core, b.bundle { mn := .std, r := r, an := p.an, mode := p.mode, imm := p.imm })
  | .fence b => some (b.core, b.bundle { mn := .fence })
  | .vldS b r p => some (b.core, b.bundle { mn := .vlds, r := r, an := p.an, mode := p.mode, imm := p.imm, ebytes := 16 })
  | .vstS b r p => some (b.core, b.bundle { mn := .vsts, r := r, an := p.an, mode := p.mode, imm := p.imm, ebytes := 16 })
  | .vldL b vw r p => some (b.core, b.bundle { mn := .vldl, r := r, an := p.an, mode := p.mode, imm := p.imm, ebytes := vw.bytes })
  | .vldLh b vw r p => some (b.core, b.bundle { mn := .vldlh, r := r, an := p.an, mode := p.mode, imm := p.imm, ebytes := vw.bytes })
  | .vldUh b vw r p => some (b.core, b.bundle { mn := .vlduh, r := r, an := p.an, mode := p.mode, imm := p.imm, ebytes := vw.bytes })
  | .vstL b vw r p => some (b.core, b.bundle { mn := .vstl, r := r, an := p.an, mode := p.mode, imm := p.imm, ebytes := vw.bytes })
  | .vstLh b vw r p => some (b.core, b.bundle { mn := .vstlh, r := r, an := p.an, mode := p.mode, imm := p.imm, ebytes := vw.bytes })
  | .vstUh b vw r p => some (b.core, b.bundle { mn := .vstuh, r := r, an := p.an, mode := p.mode, imm := p.imm, ebytes := vw.bytes })
  | .vaddS b vd va vb => some (b.core, b.bundle { mn := .vadds_, vd := vd, va := va, vb := vb })
  | .vsubS b vd va vb => some (b.core, b.bundle { mn := .vsubs_, vd := vd, va := va, vb := vb })
  | .vaddsS b vd va vb => some (b.core, b.bundle { mn := .vaddss, vd := vd, va := va, vb := vb })
  | .vsubsS b vd va vb => some (b.core, b.bundle { mn := .vsubss, vd := vd, va := va, vb := vb })
  | .vmulhS b vd va vb => some (b.core, b.bundle { mn := .vmulhs, vd := vd, va := va, vb := vb })
  | .vaddH b vd va vb => some (b.core, b.bundle { mn := .vaddh, vd := vd, va := va, vb := vb })
  | .vsubH b vd va vb => some (b.core, b.bundle { mn := .vsubh, vd := vd, va := va, vb := vb })
  | .vaddsH b vd va vb => some (b.core, b.bundle { mn := .vaddsh, vd := vd, va := va, vb := vb })
  | .vsubsH b vd va vb => some (b.core, b.bundle { mn := .vsubsh, vd := vd, va := va, vb := vb })
  | .vaddW b vd va vb => some (b.core, b.bundle { mn := .vaddw, vd := vd, va := va, vb := vb })
  | .vsubW b vd va vb => some (b.core, b.bundle { mn := .vsubw, vd := vd, va := va, vb := vb })
  | .vminH b vd va vb => some (b.core, b.bundle { mn := .vminh, vd := vd, va := va, vb := vb })
  | .vmaxH b vd va vb => some (b.core, b.bundle { mn := .vmaxh, vd := vd, va := va, vb := vb })
  | .vand b vd va vb => some (b.core, b.bundle { mn := .vand, vd := vd, va := va, vb := vb })
  | .vor b vd va vb => some (b.core, b.bundle { mn := .vor, vd := vd, va := va, vb := vb })
  | .vxor b vd va vb => some (b.core, b.bundle { mn := .vxor, vd := vd, va := va, vb := vb })
  | .vmulhH b vd va vb => some (b.core, b.bundle { mn := .vmulhh, vd := vd, va := va, vb := vb })
  | .vmac b vd va vb => some (b.core, b.bundle { mn := .vmac, vd := vd, va := va, vb := vb })
  | .vmsu b vd va vb => some (b.core, b.bundle { mn := .vmsu, vd := vd, va := va, vb := vb })
  | .vaccwr b vd va vb => some (b.core, b.bundle { mn := .vaccwr, vd := vd, va := va, vb := vb })
  | .vsraS b vd va vb r imm6 => some (b.core, b.bundle { mn := .vsras, vd := vd, va := va, vb := vb, r := r, imm6 := imm6 })
  | .vshlS b vd va vb r imm6 => some (b.core, b.bundle { mn := .vshls, vd := vd, va := va, vb := vb, r := r, imm6 := imm6 })
  | .vsraH b vd va vb r imm6 => some (b.core, b.bundle { mn := .vsrah, vd := vd, va := va, vb := vb, r := r, imm6 := imm6 })
  | .vshlH b vd va vb r imm6 => some (b.core, b.bundle { mn := .vshlh, vd := vd, va := va, vb := vb, r := r, imm6 := imm6 })
  | .vsraW b vd va vb r imm6 => some (b.core, b.bundle { mn := .vsraw, vd := vd, va := va, vb := vb, r := r, imm6 := imm6 })
  | .vshlW b vd va vb r imm6 => some (b.core, b.bundle { mn := .vshlw, vd := vd, va := va, vb := vb, r := r, imm6 := imm6 })
  | .vmovs b vd va imm6 => some (b.core, b.bundle { mn := .vmovs, vd := vd, va := va, imm6 := imm6 })
  | .vins b vd va imm6 => some (b.core, b.bundle { mn := .vins, vd := vd, va := va, imm6 := imm6 })
  | .vgetc b vd va imm6 => some (b.core, b.bundle { mn := .vgetc, vd := vd, va := va, imm6 := imm6 })
  | .vputc b vd va imm6 => some (b.core, b.bundle { mn := .vputc, vd := vd, va := va, imm6 := imm6 })
  | .vbexpH b vd va imm6 => some (b.core, b.bundle { mn := .vbexph, vd := vd, va := va, imm6 := imm6 })
  | .vbexpW b vd va imm6 => some (b.core, b.bundle { mn := .vbexpw, vd := vd, va := va, imm6 := imm6 })
  | .vbexpA b vd va imm6 => some (b.core, b.bundle { mn := .vbexpa, vd := vd, va := va, imm6 := imm6 })
  | .vbcstS b vd va => some (b.core, b.bundle { mn := .vbcsts, vd := vd, va := va })
  | .vbexpS b vd va => some (b.core, b.bundle { mn := .vbexps, vd := vd, va := va })
  | .vconj b vd va => some (b.core, b.bundle { mn := .vconj, vd := vd, va := va })
  | .vswap b vd va => some (b.core, b.bundle { mn := .vswap, vd := vd, va := va })
  | .vmov b vd va => some (b.core, b.bundle { mn := .vmov, vd := vd, va := va })
  | .vbcstH b vd va => some (b.core, b.bundle { mn := .vbcsth, vd := vd, va := va })
  | .vbcstW b vd va => some (b.core, b.bundle { mn := .vbcstw, vd := vd, va := va })
  | .vmulw b vd va vb h => some (b.core, b.bundle { mn := .vmulw, vd := vd, va := va, vb := vb, h := h })
  | .vcmac b vd va vb h c => some (b.core, b.bundle { mn := .vcmac, vd := vd, va := va, vb := vb, h := h, c := c })
  | .vcmsu b vd va vb h c => some (b.core, b.bundle { mn := .vcmsu, vd := vd, va := va, vb := vb, h := h, c := c })
  | .vdot8 b vd va vb c => some (b.core, b.bundle { mn := .vdot8, vd := vd, va := va, vb := vb, c := c })
  | .vclr b vd => some (b.core, b.bundle { mn := .vclr, vd := vd })
  | .vnarrowH b vd va vb h sat r imm6 => some (b.core, b.bundle { mn := .vnarrowh, vd := vd, va := va, vb := vb, h := h, s := sat, r := r, imm6 := imm6 })
  | .vnarrowW b vd va vb sat r imm6 => some (b.core, b.bundle { mn := .vnarroww, vd := vd, va := va, vb := vb, s := sat, r := r, imm6 := imm6 })
  | .vpack b vd va vb h sat r imm6 => some (b.core, b.bundle { mn := .vpack, vd := vd, va := va, vb := vb, h := h, s := sat, r := r, imm6 := imm6 })
  | .vaccrd b vd va h => some (b.core, b.bundle { mn := .vaccrd, vd := vd, va := va, h := h })
  | _ => none

/-- The destination registers of an S-slot instruction (R60). -/
def sDest (i : SIns) : List TReg :=
  if i.mn ∈ [.nop, .lit, .illegal, .bcc, .jr, .rfe, .loop, .rep, .trap, .brk, .csrw, .csrwa, .setcb, .setcl] then []
  else if i.mn ∈ [.mac, .msu, .lda] then [accReg i.rd]
  else if i.mn = .norm then [dReg i.rd, dReg (i.rd + 1)]
  else if i.mn ∈ [.rdcb, .adda, .addc, .addar, .movia, .movad, .csrra] then [aReg (low4 i.rd)]
  else if i.mn ∈ [.call, .callr] then [aReg 15]
  else [dReg i.rd]

/-- The destination registers of an M-slot instruction, the address register of a form that updates it among them (R61, R96). -/
def mDest (i : MIns) : List TReg :=
  (if i.mn ∈ [.ldb, .ldbu, .ldh, .ldhu, .ldw] then [dReg i.r]
  else if i.mn = .lda then [aReg (low4 i.r)]
  else if i.mn = .ldd then [dReg i.r, dReg (i.r + 1)]
  else if i.mn = .vlds then [svReg i.r]
  else if i.mn ∈ [.vldl, .vldlh, .vlduh] then [lvReg i.r]
  else []) ++ if i.mn ∉ [.nop, .fence, .cpx] ∧ (i.mode = 1 ∨ i.mode = 2) then [aReg i.an] else []

/-- The destination registers of a V-slot instruction (R106). -/
def vDest (i : VIns) : List TReg :=
  if i.mn ∈ [.nop, .illegal] then []
  else if i.mn ∈ [.vadds_, .vsubs_, .vaddss, .vsubss, .vmulhs, .vsras, .vshls, .vins, .vbcsts, .vgetc] then [svReg i.vd]
  else if i.mn ∈ [.vmovs, .vbexps, .vbexph, .vbexpw, .vbexpa] then [dReg i.vd]
  else if i.mn ∈ [.vmac, .vmsu, .vcmac, .vcmsu, .vclr, .vaccwr] then [vaccReg i.vd]
  else [lvReg i.vd]

/-- The bundle writes CSR n (R60). -/
def writesCsr (q : Bundle) (n : Nat) : Prop := ∃ i ∈ [q.s0, q.s1], i.mn ∈ [SMn.csrw, SMn.csrwa] ∧ i.imm.toNat = n

/-- The bits of tc.status that a bundle may change as it completes: DS and BT, the sticky flags of its instructions, and, by a write of
tc.status, those it holds (R53, R60, R61, R106). -/
def mayFlag (q : Bundle) (i : Nat) : Prop :=
  i ∈ [5, 6, 7] ∨ (i ∈ [1, 2, 8, 9, 10] ∧ writesCsr q 0) ∨
  (i = 8 ∧ ((∃ j ∈ [q.s0, q.s1], j.mn = .addc) ∨ (q.m.mn ∉ [.nop, .fence, .cpx] ∧ (q.m.mode = 1 ∨ q.m.mode = 2)))) ∨
  (i = 9 ∧ ((∃ j ∈ [q.s0, q.s1], j.mn ∈ [SMn.adds, .subs, .abs, .mulh, .exts]) ∨
    q.v.mn ∈ [.vaddss, .vsubss, .vmulhs, .vaddsh, .vsubsh, .vmulhh, .vnarrowh, .vnarroww, .vpack, .vconj])) ∨
  (i = 10 ∧ ((∃ j ∈ [q.s0, q.s1], j.mn ∈ [SMn.mac, .msu]) ∨ q.v.mn ∈ [.vmac, .vmsu, .vcmac, .vcmsu]))

/-- The frame of a bundle within its core: from k, as the bundle saw the core, to c, as it is once the bundle has completed, no rfe being
under way. Nothing but the destinations of its slots is put in flight and no register of the banks changes otherwise; each circular
register, flag and CSR changes only where an instruction of the bundle writes it, a block-repeat count also as the body ends or is left;
and the shadow bank, the threads, the requests and the run state stay. -/
def CoreFrame (k c : Core) (q : Bundle) : Prop :=
  (∀ d, k.delay = some d → d.rfe = none) →
  (∀ p ∈ c.pend, p ∈ k.pend ∨ p.reg ∈ sDest q.s0 ++ sDest q.s1 ++ mDest q.m ++ vDest q.v) ∧
  (c.fg.d = k.fg.d ∧ c.fg.acc = k.fg.acc ∧ c.fg.a = k.fg.a ∧ c.fg.sv = k.fg.sv ∧ c.fg.lv = k.fg.lv ∧ c.fg.vacc = k.fg.vacc) ∧
  (∀ n : Fin 8, (c.fg.cb[n] ≠ k.fg.cb[n] → ∃ i ∈ [q.s0, q.s1], i.mn = .setcb ∧ i.rd.toNat % 8 = n.val) ∧
    (c.fg.cl[n] ≠ k.fg.cl[n] → ∃ i ∈ [q.s0, q.s1], i.mn = .setcl ∧ i.rd.toNat % 8 = n.val)) ∧
  (∀ i, bit c.fg.status i ≠ bit k.fg.status i → mayFlag q i) ∧
  ((c.ctl ≠ k.ctl → writesCsr q 1) ∧ (c.fg.amode ≠ k.fg.amode → writesCsr q 2) ∧ (c.estatus ≠ k.estatus → writesCsr q 3) ∧
    (c.epc ≠ k.epc → writesCsr q 5) ∧ (c.etarget ≠ k.etarget → writesCsr q 7) ∧ (c.vbase ≠ k.vbase → writesCsr q 8) ∧
    (c.fg.vxi ≠ k.fg.vxi → writesCsr q 9 ∨ q.m.mn.long = true)) ∧
  (∀ n : Fin 3, (c.fg.ls[n] ≠ k.fg.ls[n] → writesCsr q (0x10 + n.val) ∨ (q.s0.mn = .loop ∧ q.s0.cond.toNat % 3 = n.val)) ∧
    (c.fg.le[n] ≠ k.fg.le[n] → writesCsr q (0x14 + n.val) ∨ (q.s0.mn = .loop ∧ q.s0.cond.toNat % 3 = n.val)) ∧
    (c.fg.lc[n] ≠ k.fg.lc[n] → writesCsr q (0x18 + n.val) ∨ (q.s0.mn = .loop ∧ q.s0.cond.toNat % 3 = n.val) ∨ k.delay.isSome ∨
      k.fg.le[n] = k.fg.pc ∨ writesCsr q (0x14 + n.val))) ∧
  (c.fg.rc ≠ k.fg.rc → writesCsr q 0x1C ∨ q.s0.mn = .rep ∨ k.repOn = true) ∧
  (∀ n : Fin 16, c.mpu[n] ≠ k.mpu[n] → writesCsr q (0x100 + n.val) ∨ writesCsr q (0x110 + n.val) ∨ writesCsr q (0x120 + n.val)) ∧
  ((c.timeHi ≠ k.timeHi → ∃ i ∈ [q.s0, q.s1], i.mn ∈ [SMn.csrr, SMn.csrra] ∧ i.imm = 0x20) ∧
    (c.cycleHi ≠ k.cycleHi → ∃ i ∈ [q.s0, q.s1], i.mn ∈ [SMn.csrr, SMn.csrra] ∧ i.imm = 0x22)) ∧
  { c with fg := k.fg, pend := k.pend, ctl := k.ctl, estatus := k.estatus, epc := k.epc, etarget := k.etarget, vbase := k.vbase, timeHi := k.timeHi,
           cycle := k.cycle, cycleHi := k.cycleHi, mpu := k.mpu, mpuP1 := k.mpuP1, mpuP2 := k.mpuP2, mpuF := k.mpuF, mpuT := k.mpuT,
           delay := k.delay, repOn := k.repOn, rfeHold := k.rfeHold } = k

/-- A value clamped to a d register, and whether it was (R76). -/
def clampD (v : Int) : Word × Bool :=
  if 2147483647 < v then (0x7FFFFFFF, true) else if v < -2147483648 then (0x80000000, true) else (BitVec.ofInt 32 v, false)

/-- An instruction with two d sources: its command, decoded form, result with SAT, and latency (R60). -/
structure TwoSource where
  cmd : IssueS → BitVec 5 → BitVec 5 → BitVec 5 → Instr
  mn : SMn
  val : Word → Word → Word × Bool
  lat : Nat

/-- ADD to MULH of the S opcode map. -/
def twoSource : List TwoSource := [
  ⟨.add, .add, fun x y => (x + y, false), 1⟩, ⟨.sub, .sub, fun x y => (x - y, false), 1⟩,
  ⟨.and, .and, fun x y => (x &&& y, false), 1⟩, ⟨.or, .or, fun x y => (x ||| y, false), 1⟩,
  ⟨.xor, .xor, fun x y => (x ^^^ y, false), 1⟩, ⟨.shl, .shl, fun x y => (x <<< (y.toNat % 32), false), 1⟩,
  ⟨.shr, .shr, fun x y => (x >>> (y.toNat % 32), false), 1⟩, ⟨.sra, .sra, fun x y => (x.sshiftRight (y.toNat % 32), false), 1⟩,
  ⟨.cmpeq, .cmpeq, fun x y => (if x = y then 1 else 0, false), 1⟩,
  ⟨.cmplt, .cmplt, fun x y => (if x.toInt < y.toInt then 1 else 0, false), 1⟩,
  ⟨.cmpltu, .cmpltu, fun x y => (if x.toNat < y.toNat then 1 else 0, false), 1⟩,
  ⟨.minOp, .min, fun x y => (if x.toInt ≤ y.toInt then x else y, false), 1⟩,
  ⟨.maxOp, .max, fun x y => (if x.toInt ≤ y.toInt then y else x, false), 1⟩,
  ⟨.adds, .adds, fun x y => clampD (x.toInt + y.toInt), 1⟩, ⟨.subs, .subs, fun x y => clampD (x.toInt - y.toInt), 1⟩,
  ⟨.mul, .mul, fun x y => (x * y, false), 2⟩,
  ⟨.mulh, .mulh, fun x y =>
    let p := (x.setWidth 16).toInt * (y.setWidth 16).toInt
    if p = 2 ^ 30 then (0x7FFF, true) else (BitVec.ofInt 32 (p / 2 ^ 15), false), 2⟩]

/-- ABS, EXP, EXPA, NORM, EXT, EXT_S and LDA write their results; ABS and EXT_S set SAT where they saturate (R60, R76, R78). -/
def OneSourceResults : Prop :=
  ∀ (b : IssueS) (rd rs1 sh : BitVec 5) (s : State),
    let k := s.view b.core
    let x := k.d rs1
    let z : Int := (BitVec.ofNat 40 (k.seen (accReg rs1) 0 false)).toInt
    (Completing s b.core (b.bundle { mn := .abs, rd := rd, rs1 := rs1 }) →
      ∃ t, exec (.abs b rd rs1) s = .next t ∧ Writes t b.core (dReg rd) 0 32 (clampD x.toInt.natAbs).1.toNat 1 ∧
        Flagged t b.core 9 (x = 0x80000000) ∧ OnlyCore s t b.core) ∧
    (Completing s b.core (b.bundle { mn := .exp, rd := rd, rs1 := rs1 }) →
      ∃ t, exec (.exp b rd rs1) s = .next t ∧ Writes t b.core (dReg rd) 0 32 (signBits 32 x.toInt) 1 ∧ OnlyCore s t b.core) ∧
    (Completing s b.core (b.bundle { mn := .expa, rd := rd, rs1 := rs1 }) →
      ∃ t, exec (.expa b rd rs1) s = .next t ∧ Writes t b.core (dReg rd) 0 32 (signBits 40 z) 1 ∧ OnlyCore s t b.core) ∧
    (Completing s b.core (b.bundle { mn := .norm, rd := rd, rs1 := rs1 }) →
      ∃ t, exec (.norm b rd rs1) s = .next t ∧ Writes t b.core (dReg rd) 0 32 (x <<< signBits 32 x.toInt).toNat 2 ∧
        Writes t b.core (dReg (rd + 1)) 0 32 (signBits 32 x.toInt) 2 ∧ OnlyCore s t b.core) ∧
    (Completing s b.core (b.bundle { mn := .ext, rd := rd, rs1 := rs1, sh := sh }) →
      ∃ t, exec (.ext b rd rs1 sh) s = .next t ∧
        Writes t b.core (dReg rd) 0 32 (BitVec.ofInt 32 (z / (2 ^ sh.toNat : Nat))).toNat 1 ∧ OnlyCore s t b.core) ∧
    (Completing s b.core (b.bundle { mn := .exts, rd := rd, rs1 := rs1, sh := sh }) →
      ∃ t, exec (.extS b rd rs1 sh) s = .next t ∧ Writes t b.core (dReg rd) 0 32 (clampD (z / (2 ^ sh.toNat : Nat))).1.toNat 1 ∧
        Flagged t b.core 9 ((clampD (z / (2 ^ sh.toNat : Nat))).2 = true) ∧ OnlyCore s t b.core) ∧
    (Completing s b.core (b.bundle { mn := .lda, rd := rd, rs1 := rs1 }) →
      ∃ t, exec (.lda b rd rs1) s = .next t ∧ Writes t b.core (accReg rd) 0 40 (x.signExtend 40).toNat 1 ∧ OnlyCore s t b.core)

/-- MAC and MSU add the product of bits 15:0 of two d registers to an accumulator, or subtract it, modulo 2^40, with latency 3 and latency
1 to the next accumulate, and set ACC_OVF where the exact result lies outside 40 bits (R60, R77). -/
def AccumulateResults : Prop :=
  ∀ (b : IssueS) (rd rs1 rs2 : BitVec 5) (s : State),
    let k := s.view b.core
    let p := ((k.d rs1).setWidth 16).toInt * ((k.d rs2).setWidth 16).toInt
    let z : Int := (BitVec.ofNat 40 (k.seen (accReg rd) 0 true)).toInt
    ∀ i ∈ [(Instr.mac, SMn.mac, z + p), (Instr.msu, SMn.msu, z - p)],
      Completing s b.core (b.bundle { mn := i.2.1, rd := rd, rs1 := rs1, rs2 := rs2 }) →
      ∃ t, exec (i.1 b rd rs1 rs2) s = .next t ∧ Writes t b.core (accReg rd) 0 40 (BitVec.ofInt 40 i.2.2).toNat 3 1 ∧
        Flagged t b.core 10 (i.2.2 < -(2 ^ 39) ∨ 2 ^ 39 ≤ i.2.2) ∧ OnlyCore s t b.core

/-- An instruction with a d source and an immediate: its command, decoded form and result, from the source, the immediate with lit, and
imm16 alone. -/
structure Immediate where
  cmd : IssueS → BitVec 5 → BitVec 5 → BitVec 16 → Instr
  mn : SMn
  val : Word → Int → Word

/-- ADDI to CMPLTI of the S opcode map; the logical three take imm16 zero-extended where no lit extends it (R58, R60). -/
def immediates (ext : Bool) : List Immediate :=
  let w (v : Int) : Word := BitVec.ofInt 32 v
  let z (v : Int) : Word := if ext then w v else w v &&& 0xFFFF
  [⟨.addi, .addi, fun x v => x + w v⟩, ⟨.andi, .andi, fun x v => x &&& z v⟩, ⟨.ori, .ori, fun x v => x ||| z v⟩,
   ⟨.xori, .xori, fun x v => x ^^^ z v⟩, ⟨.shli, .shli, fun x v => x <<< ((w v).toNat % 32)⟩,
   ⟨.shri, .shri, fun x v => x >>> ((w v).toNat % 32)⟩, ⟨.srai, .srai, fun x v => x.sshiftRight ((w v).toNat % 32)⟩,
   ⟨.cmpeqi, .cmpeqi, fun x v => if x = w v then 1 else 0⟩,
   ⟨.cmplti, .cmplti, fun x v => if x.toInt < (w v).toInt then 1 else 0⟩]

/-- ADDI, ANDI, ORI, XORI, SHLI, SHRI, SRAI, CMPEQI, CMPLTI, MOVI and MOVHI write their result to d[rd] with latency 1; in S0 beside a lit
the immediate is the 42-bit value of R58. -/
def ImmediateResults : Prop :=
  ∀ (b : IssueS) (rd rs1 : BitVec 5) (imm : BitVec 16) (s : State),
    let i (m : SMn) (r : BitVec 5) : Bundle := b.bundle { mn := m, rd := rd, rs1 := r, imm := imm.setWidth 26 }
    let ext := decide (b.slot = .s0) && decide ((i .addi rs1).s1.mn = .lit)
    let v := (i .addi rs1).imm (decide (b.slot = .s0))
    (∀ r ∈ immediates ext, Completing s b.core (i r.mn rs1) →
      ∃ t, exec (r.cmd b rd rs1 imm) s = .next t ∧ Writes t b.core (dReg rd) 0 32 (r.val ((s.view b.core).d rs1) v).toNat 1 ∧
        OnlyCore s t b.core) ∧
    (Completing s b.core (i .movi 0) → ∃ t, exec (.movi b rd imm) s = .next t ∧
      Writes t b.core (dReg rd) 0 32 (BitVec.ofInt 32 v).toNat 1 ∧ OnlyCore s t b.core) ∧
    (Completing s b.core (i .movhi 0) → ∃ t, exec (.movhi b rd imm) s = .next t ∧
      Writes t b.core (dReg rd) 0 32 (BitVec.ofInt 32 (v * 65536)).toNat 1 ∧ OnlyCore s t b.core)

/-- MOVDA, SETCB, SETCL, RDCB, RDCL, ADDA, ADDC, ADDAR, MOVIA and MOVAD write their results; SETCB and SETCL at once. ADDC adds linearly
where circular addressing is not in force for its register, and by R73 where it is (R51, R60, R73). -/
def AddressResults : Prop :=
  ∀ (b : IssueS) (rd rs1 rs2 : BitVec 5) (imm : BitVec 16) (s : State),
    let k := s.view b.core
    let x := k.d rs1
    let a := k.a (low4 rs1)
    let i (m : SMn) (r1 r2 : BitVec 5) (v : BitVec 26) : Bundle := b.bundle { mn := m, rd := rd, rs1 := r1, rs2 := r2, imm := v }
    let w : BitVec 26 := imm.setWidth 26
    let v := (i .adda rs1 0 w).imm (decide (b.slot = .s0))
    (Completing s b.core (i .movda rs1 0 0) → ∃ t, exec (.movda b rd rs1) s = .next t ∧
      Writes t b.core (dReg rd) 0 32 (a.setWidth 32).toNat 1 ∧ OnlyCore s t b.core) ∧
    (Completing s b.core (i .setcb rs1 0 0) → ∃ t, exec (.setcb b rd rs1) s = .next t ∧
      t.cores[b.core].fg.cb[rd.toNat % 8]'(by omega) = a ∧ OnlyCore s t b.core) ∧
    (Completing s b.core (i .setcl rs1 0 0) → ∃ t, exec (.setcl b rd rs1) s = .next t ∧
      t.cores[b.core].fg.cl[rd.toNat % 8]'(by omega) = x.setWidth 24 ∧ OnlyCore s t b.core) ∧
    (Completing s b.core (i .rdcb rs1 0 0) → ∃ t, exec (.rdcb b rd rs1) s = .next t ∧
      Writes t b.core (aReg (low4 rd)) 0 40 (k.fg.cb[rs1.toNat % 8]'(by omega)).toNat 1 ∧ OnlyCore s t b.core) ∧
    (Completing s b.core (i .rdcl rs1 0 0) → ∃ t, exec (.rdcl b rd rs1) s = .next t ∧
      Writes t b.core (dReg rd) 0 32 (k.fg.cl[rs1.toNat % 8]'(by omega)).toNat 1 ∧ OnlyCore s t b.core) ∧
    (Completing s b.core (i .adda rs1 0 w) → ∃ t, exec (.adda b rd rs1 imm) s = .next t ∧
      Writes t b.core (aReg (low4 rd)) 0 40 (a + BitVec.ofInt 40 v).toNat 1 ∧ OnlyCore s t b.core) ∧
    (Completing s b.core (i .addc rs1 0 w) → ∃ t, exec (.addc b rd rs1 imm) s = .next t ∧
      (k.circOn (low4 rs1) = false → Writes t b.core (aReg (low4 rd)) 0 40 (a + BitVec.ofInt 40 v).toNat 1) ∧
      (k.circOn (low4 rs1) = true → Writes t b.core (aReg (low4 rd)) 0 40 (k.update s.compat (low4 rs1) v).1.toNat 1 ∧
        Flagged t b.core 8 ((k.update s.compat (low4 rs1) v).2 = true)) ∧ OnlyCore s t b.core) ∧
    (Completing s b.core (i .addar rs1 rs2 0) → ∃ t, exec (.addar b rd rs1 rs2) s = .next t ∧
      Writes t b.core (aReg (low4 rd)) 0 40 (a + (k.d rs2).signExtend 40).toNat 1 ∧ OnlyCore s t b.core) ∧
    (Completing s b.core (i .movia 0 0 w) → ∃ t, exec (.movia b rd imm) s = .next t ∧
      Writes t b.core (aReg (low4 rd)) 0 40 (BitVec.ofInt 40 v).toNat 1 ∧ OnlyCore s t b.core) ∧
    (Completing s b.core (i .movad rs1 0 0) → ∃ t, exec (.movad b rd rs1) s = .next t ∧
      Writes t b.core (aReg (low4 rd)) 0 40 x.toNat 1 ∧ OnlyCore s t b.core)

/-- NOP in any slot, LIT and FENCE complete: what the bundle puts in flight is what its slots' other instructions write, nothing where the
other slots hold nop. -/
def NopLitFence : Prop :=
  ∀ (b : IssueS) (m : IssueM) (v : IssueV) (imm : BitVec 26) (s : State),
    let done (x : Fin 192) (q : Bundle) (c : Instr) (alone : Prop) : Prop :=
      Completing s x q → ∃ t, exec c s = .next t ∧ OnlyCore s t x ∧
        t.cores[x].pend = (s.view x).pend ++ (s.slotEffs x (s.view x) q).flatMap (·.writes) ∧
        (alone → t.cores[x].pend = (s.view x).pend ∧ t.cores[x].fg.cb = (s.view x).fg.cb ∧ t.cores[x].fg.cl = (s.view x).fg.cl)
    done b.core (b.bundle {}) (.nop (.s b)) (b.other = 0 ∧ b.v = 0) ∧
      done m.core (m.bundle {}) (.nop (.m m)) (m.s0 = 0 ∧ m.s1 = 0 ∧ m.v = 0) ∧
      done v.core (v.bundle {}) (.nop (.v v)) (v.s0 = 0 ∧ v.s1 = 0) ∧
      done b.core (b.bundle { mn := .lit, imm := imm }) (.lit b imm) (b.other = 0 ∧ b.v = 0) ∧
      done m.core (m.bundle { mn := .fence }) (.fence m) (m.s0 = 0 ∧ m.s1 = 0 ∧ m.v = 0)

/-- A branch condition (R60): beqz, bnez, bltz, bgez, bgtz, blez, b. -/
def condMet (cond : BitVec 4) (v : Word) : Bool :=
  match cond.toNat with
  | 0 => decide (v = 0)
  | 1 => decide (v ≠ 0)
  | 2 => decide (v.toInt < 0)
  | 3 => decide (0 ≤ v.toInt)
  | 4 => decide (0 < v.toInt)
  | 5 => decide (v.toInt ≤ 0)
  | _ => true

/-- Core x has transferred control: the next bundle in memory is the first delay slot, the second follows, then the target if taken. -/
def Transferred (s t : State) (x : Fin 192) (taken : Bool) (target : Addr) (annul : Bool) : Prop :=
  t.cores[x].delay = some ⟨1, taken, target, annul, none⟩ ∧ t.cores[x].fg.pc = bundleAddr (bundlesOn s.cores[x].fg.pc 1) ∧
    fld t.cores[x].fg.status 6 5 = 1 ∧ bit t.cores[x].fg.status 7 = taken ∧ OnlyCore s t x

/-- What bundle q puts on core x besides where it goes: the writes of its slots in flight, nothing outside the core. -/
def PutsWrites (s t : State) (x : Fin 192) (q : Bundle) : Prop :=
  t.cores[x].pend = (s.view x).pend ++ (s.slotEffs x (s.view x) q).flatMap (·.writes) ∧ OnlyCore s t x

/-- A bundle that completes with no control transfer, loop or rep in S0, and no CSR write: in no delay slot, under no repeat and at the end
of no active block repeat the next bundle follows; in the first delay slot the second follows; after the second the target follows a
branch that is taken, and the bundle after the slot otherwise (R66); the end bundle of an active level whose count is above 1 counts it
down and returns to the level's first bundle, and a count of 1 ends the level (R70); a repeated bundle repeats while tc.rc is not 0 (R72). -/
def NextBundle : Prop :=
  ∀ (s : State) (x : Fin 192) (q : Bundle), Completing s x q → q.s0.mn.noDelay = false →
    (s.slotEffs x (s.view x) q).flatMap (·.csr) = [] →
    let c := s.cores[x]
    let k := s.view x
    let t := s.issue x q
    let next := bundleAddr (bundlesOn c.fg.pc 1)
    PutsWrites s t x q ∧
    (∀ d, c.delay = some d → d.slot = 1 → t.cores[x].delay = some { d with slot := 2 } ∧ t.cores[x].fg.pc = next) ∧
    (∀ d, c.delay = some d → d.slot = 2 → d.rfe = none →
      t.cores[x].delay = none ∧ t.cores[x].fg.pc = if d.taken then bundleAddr d.target else next) ∧
    (c.delay = none → c.repOn = true →
      (k.fg.rc = 0 → t.cores[x].fg.pc = next ∧ t.cores[x].repOn = false) ∧
      (k.fg.rc ≠ 0 → t.cores[x].fg.pc = c.fg.pc ∧ t.cores[x].repOn = true ∧ t.cores[x].fg.rc = k.fg.rc - 1)) ∧
    (c.delay = none → c.repOn = false → k.fg.ends c.fg.pc = false → t.cores[x].delay = none ∧ t.cores[x].fg.pc = next) ∧
    (c.delay = none → c.repOn = false → ∀ n : Fin 3, k.fg.lc[n] ≠ 0 → k.fg.le[n] = c.fg.pc →
      (∀ m : Fin 3, m ≠ n → k.fg.lc[m] = 0 ∨ k.fg.le[m] ≠ c.fg.pc) →
      (1 < k.fg.lc[n].toNat → t.cores[x].fg.lc[n] = k.fg.lc[n] - 1 ∧ t.cores[x].fg.pc = bundleAddr k.fg.ls[n]) ∧
      (k.fg.lc[n] = 1 → t.cores[x].fg.lc[n] = 0 ∧ t.cores[x].fg.pc = next))

/-- An annulled delay slot without a cpx is issued without effect: it counts as a bundle issued, and the core goes on (R66); after the second
annulled slot of rfe every result is in its register (R63) and the core stands at tc.epc with tc.status bits 7:0 as tc.estatus held them,
but for COMPAT, resuming a delay slot where DS is not 0 (R85). -/
def AnnulledSlots : Prop :=
  ∀ (s : State) (x : Fin 192) (q : Bundle) (d : Delay), s.held = none → s.mayIssue x q = true → s.cores[x].delay = some d → d.annul = true →
    q.m.mn ≠ .cpx →
    let t := s.issue x q
    OnlyCore s t x ∧
    (d.slot = 1 ∨ d.rfe = none → t.cores[x].pend = (s.view x).pend ∧ t.cores[x].fg.d = (s.view x).fg.d) ∧
    (d.slot = 2 → d.rfe.isSome = true → t.cores[x].pend = [] ∧ t.cores[x].fg.d = (s.view x).drain.fg.d) ∧
    (d.slot = 1 → t.cores[x].delay = some { d with slot := 2 } ∧ t.cores[x].fg.pc = bundleAddr (bundlesOn s.cores[x].fg.pc 1)) ∧
    (∀ est etgt, d.slot = 2 → d.taken = true → d.rfe = some (est, etgt) →
      t.cores[x].fg.pc = bundleAddr d.target ∧ fld t.cores[x].fg.status 2 0 = fld est 2 0 ∧
      fld t.cores[x].fg.status 7 4 = (if fld est 6 5 = 0 then fld est 4 4 else fld est 7 4) ∧
      bit t.cores[x].fg.status 3 = bit s.cores[x].fg.status 3 ∧ t.cores[x].rfeHold = true ∧
      (fld est 6 5 = 0 → t.cores[x].delay = none) ∧
      (fld est 6 5 ≠ 0 → t.cores[x].delay = some ⟨fld est 6 5, bit est 7, bundleAddr etgt, false, none⟩))

/-- Core x has entered exception e from bundle view k (R83): older bundles are complete, no slot of the bundle has taken effect, the
registers of the exception are set, and fetch begins at the handler. -/
def Entered (compat : Bool) (k : Core) (t : State) (x : Fin 192) (e : Exc) : Prop :=
  let c := t.cores[x]
  c.estatus = statusView compat k.fg.status &&& 0xFF ∧ c.epc = k.fg.pc ∧ c.eaddr = e.eaddr ∧
    c.cause = BitVec.ofNat 32 (e.code + 256 * e.slot + 65536 * e.sub) ∧
    bit c.fg.status 0 = true ∧ bit c.fg.status 2 = true ∧ bit c.fg.status 1 = false ∧ fld c.fg.status 7 4 = 0 ∧
    (e.code ≠ 0x09 → fld c.fg.status 10 8 = fld k.fg.status 10 8) ∧
    c.fg.pc = bundleAddr (k.vbase + BitVec.ofNat 40 (e.code * 0x40)) ∧ c.delay = none ∧ c.pend = [] ∧
    { c.fg with pc := k.fg.pc, status := k.fg.status } = k.drain.fg ∧ c.mpu = k.mpu ∧ c.ctl = k.ctl ∧ c.vbase = k.vbase

/-- Core x issues bundle q, whose M slot makes no access, and e is the exception reported of those its slots raise. -/
structure Raising (s : State) (x : Fin 192) (q : Bundle) (e : Exc) : Prop extends Issues s x q where
  plain : q.m.mn = .nop ∨ q.m.mn = .fence
  loud : worst (excs (s.slotEffs x (s.view x) q)) = some e

/-- A bundle that raises an exception while EXL is 0 enters it: none of its slots takes effect and R83 is carried out (R82, R83, R84); an
exception in a delay slot records the slot and the branch in tc.estatus and the target in tc.etarget (R68). -/
def ExceptionEntry : Prop :=
  ∀ (s : State) (x : Fin 192) (q : Bundle) (e : Exc), Raising s x q e → bit s.cores[x].fg.status 2 = false →
    Entered s.compat (s.view x) (s.issue x q) x e ∧ OnlyCore s (s.issue x q) x ∧
      (∀ d, s.cores[x].delay = some d → (s.issue x q).cores[x].etarget = d.target) ∧
      (s.cores[x].delay = none → (s.issue x q).cores[x].etarget = s.cores[x].etarget)

/-- A bundle that may not be fetched raises FETCH_PROT before anything else of it counts, and one that is not legal, or stands where it may not,
ILLEGAL with the slot found at fault (R57, R67, R72, R79, R84). -/
def FetchAndLegality : Prop :=
  ∀ (s : State) (x : Fin 192) (q : Bundle), s.held = none → s.mayIssue x q = true → s.cores[x].delay.any (·.annul) = false →
    bit s.cores[x].fg.status 2 = false →
    let c := s.cores[x]
    let enters (e : Exc) : Prop := Entered s.compat (s.view x) (s.issue x q) x e ∧ OnlyCore s (s.issue x q) x
    (c.fetchOk = false → enters ⟨0x01, 0, c.fg.pc, 0⟩) ∧
    (c.fetchOk = true → s.lineGone (.core x) (c.fg.pc.toNat / 64) = false → bit c.fg.status 4 = false →
      (∀ n, q.badSlot = some n → enters ⟨0x03, n, c.fg.pc, 0⟩) ∧
      (q.badSlot = none → s.misplaced x (s.view x) q = true → enters ⟨0x03, 0, c.fg.pc, 0⟩))

/-- The exception reported has the highest priority of those raised, and between equal priorities the lowest slot (R84). -/
def ReportedException : Prop :=
  ∀ l : List Exc, (worst l = none ↔ l = []) ∧
    ∀ e, worst l = some e → e ∈ l ∧ ∀ d ∈ l, excRank e.code < excRank d.code ∨ (excRank e.code = excRank d.code ∧ e.slot ≤ d.slot)

/-- TRAP raises TRAP with SUB imm bits 7:0, and BREAK raises BREAK, each at its bundle with its slot in tc.cause, where no other slot raises
an exception and EXL is 0 (R60, R83, R84). -/
def TrapAndBreak : Prop :=
  ∀ (b : IssueS) (imm : BitVec 16) (s : State),
    let x := b.core
    let slot := if b.slot = .s0 then 0 else 1
    let q (i : SIns) : Bundle := b.bundle i
    let alone (i : SIns) : Prop := Issues s x (q i) ∧ ((q i).m.mn = .nop ∨ (q i).m.mn = .fence) ∧
      excs (s.slotEffs x (s.view x) (q {})) = [] ∧ bit s.cores[x].fg.status 2 = false
    (alone { mn := .trap, imm := imm.setWidth 26 } → ∃ t, exec (.trap b imm) s = .next t ∧
      Entered s.compat (s.view x) t x ⟨0x0A, slot, s.cores[x].fg.pc, imm.toNat % 256⟩ ∧ OnlyCore s t x) ∧
    (alone { mn := .brk } → ∃ t, exec (.brk b) s = .next t ∧
      Entered s.compat (s.view x) t x ⟨0x0B, slot, s.cores[x].fg.pc, 0⟩ ∧ OnlyCore s t x)

/-- CSRR and CSRRA write the control register they name to d[rd] or a[rd]; a read of tc.time_lo or tc.cycle_lo latches the high word (R53,
R55). -/
def ControlReads : Prop :=
  ∀ (b : IssueS) (rd : BitVec 5) (csr : BitVec 12) (s : State),
    let x := b.core
    let now := s.replica (.ridge (coreRidge x))
    let v := (s.view x).csr x s.compat now (s.free 0) csr.toNat
    let q (m : SMn) : Bundle := b.bundle { mn := m, rd := rd, imm := csr.setWidth 26 }
    let latched (t : State) : Prop :=
      (csr = 0x20 → t.cores[x].timeHi = BitVec.ofNat 32 (now.toNat / 2 ^ 32)) ∧
      (csr = 0x22 → t.cores[x].cycleHi = BitVec.ofNat 32 (((s.view x).cycle.toNat + s.free 0) / 2 ^ 32))
    (Completing s x (q .csrr) → ∃ t, exec (.csrr b rd csr) s = .next t ∧ Writes t x (dReg rd) 0 32 v 1 ∧ latched t ∧ OnlyCore s t x) ∧
    (Completing s x (q .csrra) → ∃ t, exec (.csrra b rd csr) s = .next t ∧ Writes t x (aReg (low4 rd)) 0 40 v 1 ∧ latched t ∧
      OnlyCore s t x)

/-- CSRW and CSRWA write the control register they name (R53): tc.status clears the sticky bits written as 1 that the bundle does not set, and
with PRIV takes IE and EXL; tc.ctl, tc.amode, tc.estatus, tc.vxi and the attributes of a region take the value in the bits they have;
tc.epc, tc.etarget, tc.vbase, and where no loop stands in S0 tc.ls and tc.le, take the address, the bases and limits of the regions keep
their low bits 0 and 1; tc.cause and tc.eaddr stay. -/
def ControlWrites : Prop :=
  ∀ (b : IssueS) (rs : BitVec 5) (csr : BitVec 12) (s : State),
    let x := b.core
    let k := s.view x
    let q (m : SMn) : Bundle := b.bundle { mn := m, rd := rs, imm := csr.setWidth 26 }
    let early := csrEarly csr.toNat
    let w := if early then k.dEarly rs else k.d rs
    let a := if early then k.aEarly (low4 rs) else k.a (low4 rs)
    let f : Sticky := (s.slotEffs x k (q .csrw)).foldl (fun f e => f.join e.flags) {}
    (Completing s x (q .csrw) → ∃ t, exec (.csrw b rs csr) s = .next t ∧ OnlyCore s t x ∧
      t.cores[x].cause = s.cores[x].cause ∧ t.cores[x].eaddr = s.cores[x].eaddr ∧
      (csr = 0x000 → (∀ i ∈ [8, 9, 10], bit w i = false → bit k.fg.status i = true → bit t.cores[x].fg.status i = true) ∧
        (∀ p ∈ [(8, f.circ), (9, f.sat), (10, f.ovf)], bit w p.1 = true → bit t.cores[x].fg.status p.1 = p.2)) ∧
      (csr = 0x000 → (∀ d, k.delay = some d → d.rfe = none) →
        fld t.cores[x].fg.status 2 1 = if k.priv then fld w 2 1 else fld k.fg.status 2 1) ∧
      (csr = 0x001 → t.cores[x].ctl = w &&& 3) ∧ (csr = 0x002 → t.cores[x].fg.amode = w.setWidth 8) ∧
      (csr = 0x003 → t.cores[x].estatus = w &&& 0xFF) ∧ (csr = 0x009 → t.cores[x].fg.vxi = w.setWidth 7) ∧
      (∀ i : Fin 16, csr.toNat = 0x120 + i.val → (t.cores[x].mpu[i]).attr = w.setWidth 7)) ∧
    (Completing s x (q .csrwa) → ∃ t, exec (.csrwa b rs csr) s = .next t ∧ OnlyCore s t x ∧
      t.cores[x].cause = s.cores[x].cause ∧ t.cores[x].eaddr = s.cores[x].eaddr ∧
      (csr = 0x005 → t.cores[x].epc = a) ∧ (csr = 0x007 → t.cores[x].etarget = a) ∧ (csr = 0x008 → t.cores[x].vbase = a &&& ~~~0xFFF) ∧
      ((q .csrwa).s0.mn ≠ .loop → ∀ n : Fin 3, (csr.toNat = 0x10 + n.val → t.cores[x].fg.ls[n] = a) ∧
        (csr.toNat = 0x14 + n.val → t.cores[x].fg.le[n] = a)) ∧
      (∀ i : Fin 16, csr.toNat = 0x100 + i.val → (t.cores[x].mpu[i]).base = a &&& ~~~0x3F) ∧
      (∀ i : Fin 16, csr.toNat = 0x110 + i.val → (t.cores[x].mpu[i]).lim = a ||| 0x3F))

/-- R54: unprivileged code may read every CSR, may write only tc.amode, the W1C bits of tc.status and tc.vxi, and any other CSR write raises
PRIV, and no CSR is changed but by its entry. -/
def UnprivilegedWrites : Prop :=
  ∀ (b : IssueS) (r : BitVec 5) (csr : BitVec 12) (s : State),
    let x := b.core
    let k := s.view x
    let q (m : SMn) : Bundle := b.bundle { mn := m, rd := r, imm := csr.setWidth 26 }
    let alone (m : SMn) : Prop := Issues s x (q m) ∧ ((q m).m.mn = .nop ∨ (q m).m.mn = .fence) ∧
      excs (s.slotEffs x k (b.bundle {})) = [] ∧ k.priv = false
    (∀ m ∈ [SMn.csrr, .csrra], alone m → Completing s x (q m)) ∧
    (∀ m ∈ [SMn.csrw, .csrwa], alone m → csr ∈ [0x000, 0x002, 0x009] → Completing s x (q m)) ∧
    (alone .csrw → csr ∈ [0x000, 0x002, 0x009] → (∀ d, k.delay = some d → d.rfe = none) → ∃ t, exec (.csrw b r csr) s = .next t ∧
      (csr = 0x000 → ∀ i, i < 5 → bit t.cores[x].fg.status i = bit k.fg.status i) ∧ (csr = 0x002 → t.cores[x].fg.amode = (k.d r).setWidth 8) ∧
      (csr = 0x009 → t.cores[x].fg.vxi = (k.d r).setWidth 7)) ∧
    (bit s.cores[x].fg.status 2 = false → csr ∉ [0x000, 0x002, 0x009] → ∀ i ∈ [(SMn.csrw, Instr.csrw b r csr), (.csrwa, .csrwa b r csr)], alone i.1 →
      ∃ t, exec i.2 s = .next t ∧ Entered s.compat k t x ⟨0x04, if b.slot = .s0 then 0 else 1, k.fg.pc, 0⟩ ∧ OnlyCore s t x)

/-- R80: an access that no enabled region contains is permitted if tc.status.PRIV and tc.ctl.PRIV_DEFAULT are both 1, and fails otherwise; a
region whose limit is below its base contains no address. -/
def UncoveredAccess : Prop :=
  ∀ (rs : Vector Region 16) (priv dflt : Bool) (k : Prot) (a : Nat),
    ((∀ i : Fin 16, bit rs[i].attr 0 = true → ¬(rs[i].base.toNat ≤ a ∧ a ≤ rs[i].lim.toNat)) → permits rs priv dflt k a = (priv && dflt)) ∧
    (∀ i : Fin 16, rs[i].lim.toNat < rs[i].base.toNat →
      permits rs priv dflt k a = permits (rs.set i { rs[i] with attr := 0 }) priv dflt k a)

/-- The checks of a core: a data access is permitted where its regions, PRIV and PRIV_DEFAULT permit each of its bytes, and a fetch where they
permit each of the sixteen bytes of the bundle (R79, R80). -/
def ChecksOfCore : Prop :=
  ∀ (c : Core) (store : Bool) (a n : Nat),
    let priv := bit c.fg.status 0
    let dflt := bit c.ctl 1
    (c.dataOk store a n = true ↔ ∀ i < n, permits c.mpuP2 priv dflt (if store then .write else .read) ((a + i) % 2 ^ 40) = true) ∧
    (c.fg.pc.toNat % 16 = 0 → (∀ i : Fin 16, c.mpuF[i].base.toNat % 64 = 0 ∧ c.mpuF[i].lim.toNat % 64 = 63) →
      (c.fetchOk = true ↔ ∀ i < 16, permits c.mpuF priv dflt .fetch (c.fg.pc.toNat + i) = true))

/-- The highest-numbered enabled region that contains an address decides its access, by the permission of the kind of access in the mode
(R79). -/
def CoveredAccess : Prop :=
  ∀ (rs : Vector Region 16) (priv dflt : Bool) (k : Prot) (a : Nat) (i : Fin 16),
    bit rs[i].attr 0 = true → rs[i].base.toNat ≤ a → a ≤ rs[i].lim.toNat →
    (∀ j : Fin 16, i < j → bit rs[j].attr 0 = true → ¬(rs[j].base.toNat ≤ a ∧ a ≤ rs[j].lim.toNat)) →
    permits rs priv dflt k a = bit rs[i].attr ((match k with | .read => 1 | .write => 2 | .fetch => 3) + if priv then 3 else 0)

/-- The address operand of a load or store of core x, as its bundle uses it (R61, R73, R97). -/
def operand (s : State) (x : Fin 192) (i : MIns) : AddrUse := (s.view x).address s.compat i

/-- Core x issues a bundle whose scalar access passes its checks, and whose other slots raise nothing. -/
structure Accessing (s : State) (x : Fin 192) (q : Bundle) : Prop extends Issues s x q where
  quiet : excs (s.slotEffs x (s.view x) q) = []
  checked : scalarChecks (s.view x) q.m (operand s x q.m) = []

/-- The update of the address register by an access, and CIRC_OUT where its pointer was out of range (R73). -/
def Updates (s t : State) (x : Fin 192) (i : MIns) : Prop :=
  (∀ v, (operand s x i).update = some v → Writes t x (aReg i.an) 0 40 v.toNat 1) ∧ Flagged t x 8 ((operand s x i).out = true)

/-- A scalar load or store: its command, decoded form, and bytes. -/
structure Scalar where
  cmd : IssueM → BitVec 5 → AddrOp → Instr
  mn : MMn
  size : Nat

/-- The decoded form of an access. -/
def Scalar.ins (i : Scalar) (r : BitVec 5) (p : AddrOp) : MIns := { mn := i.mn, r := r, an := p.an, mode := p.mode, imm := p.imm }

/-- LD_B, LD_BU, LD_H, LD_HU and LD_W, each with what it makes of the number of its bytes (R61). -/
def wordLoads : List (Scalar × (Nat → Int)) := [
  (⟨.ldB, .ldb, 1⟩, fun v => (BitVec.ofNat 8 v).toInt), (⟨.ldBu, .ldbu, 1⟩, fun v => v),
  (⟨.ldH, .ldh, 2⟩, fun v => (BitVec.ofNat 16 v).toInt), (⟨.ldHu, .ldhu, 2⟩, fun v => v), (⟨.ldW, .ldw, 4⟩, fun v => v)]

/-- What a scalar store stores: the low bytes of a d register, an a register in 8 bytes, or a d register pair (R61). -/
def stored (k : Core) (r : BitVec 5) : List (Scalar × Nat) := [
  (⟨.stB, .stb, 1⟩, (k.d r).toNat), (⟨.stH, .sth, 2⟩, (k.d r).toNat), (⟨.stW, .stw, 4⟩, (k.d r).toNat),
  (⟨.stA, .sta, 8⟩, (k.a (low4 r)).toNat), (⟨.stD, .std, 8⟩, (k.d r).toNat + 2 ^ 32 * (k.d (r + 1)).toNat)]

/-- First byte of core x's tile memory (01_device_overview.md R14). -/
def tileA (x : Fin 192) : Nat := 0x1000000000 + 0x1000000 * (x.val / 8) + 0x80000 * (x.val % 8)

/-- n bytes from a lie in core x's own tile memory, and nothing stops an access to them on its way. -/
structure OwnTile (s : State) (x : Fin 192) (a n : Nat) : Prop where
  lo : tileA x ≤ a
  hi : a + n ≤ tileA x + 0x80000
  some : 0 < n
  present : s.hasRange (x.val / 48) = true
  path : s.gate (.core x) a n = none

/-- A vector load or store: command, decoded form, bytes of an element; the register's first byte, the count of bytes, and the bytes of a
beat (R96). -/
structure VecAccess where
  cmd : IssueM → BitVec 5 → AddrOp → Instr
  mn : MMn
  eb : Nat
  first : Nat
  count : Nat
  bb : Nat

/-- The decoded form. -/
def VecAccess.ins (i : VecAccess) (r : BitVec 5) (p : AddrOp) : MIns :=
  { mn := i.mn, r := r, an := p.an, mode := p.mode, imm := p.imm, ebytes := i.eb }

/-- VLD_S, VLD_L, VLD_LH, VLD_UH. -/
def vecLoads (v : View) : List VecAccess := [
  ⟨.vldS, .vlds, 16, 0, 16, 16⟩, ⟨fun b => .vldL b v, .vldl, v.bytes, 0, 128, 32⟩, ⟨fun b => .vldLh b v, .vldlh, v.bytes, 0, 64, 16⟩,
  ⟨fun b => .vldUh b v, .vlduh, v.bytes, 64, 64, 16⟩]

/-- VST_S, VST_L, VST_LH, VST_UH. -/
def vecStores (v : View) : List VecAccess := [
  ⟨.vstS, .vsts, 16, 0, 16, 16⟩, ⟨fun b => .vstL b v, .vstl, v.bytes, 0, 128, 32⟩, ⟨fun b => .vstLh b v, .vstlh, v.bytes, 0, 64, 16⟩,
  ⟨fun b => .vstUh b v, .vstuh, v.bytes, 64, 64, 16⟩]

/-- The register a vector access moves. -/
def VecAccess.reg (i : VecAccess) (r : BitVec 5) : TReg := if i.count = 16 then svReg r else lvReg r

/-- Core x issues a vector access to its own tile memory that its region checks permit, out of no circular range, other slots quiet. -/
structure VecOwn (s : State) (x : Fin 192) (q : Bundle) (i : VecAccess) : Prop extends Issues s x q where
  quiet : excs (s.slotEffs x (s.view x) q) = []
  beats : ∀ j < i.count / i.bb, OwnTile s x ((operand s x q.m).addr.toNat + i.bb * j) i.bb
  allowed : (s.view x).dataOk q.m.mn.store (operand s x q.m).addr.toNat i.count = true
  inside : (operand s x q.m).out = false

/-- Vector loads from the core's own tile memory: each beat's bytes reach the register's bytes of that beat with latency 3, the address
register is updated, and nothing outside the core changes (R96, R97). -/
def VectorLoads : Prop :=
  ∀ (b : IssueM) (v : View) (r : BitVec 5) (p : AddrOp) (s : State), ∀ i ∈ vecLoads v,
    let x := b.core
    let a := (operand s x (i.ins r p)).addr.toNat
    VecOwn s x (b.bundle (i.ins r p)) i → (∀ j < i.count, s.tileSyn (a + j) = 0) →
    ∃ t, exec (i.cmd b r p) s = .next t ∧ OnlyCore s t x ∧ Updates s t x (i.ins r p) ∧ CoreFrame (s.view x) t.cores[x] (b.bundle (i.ins r p)) ∧
      ∀ j < i.count / i.bb, Writes t x (i.reg r) (8 * (i.first + i.bb * j)) (8 * i.bb) (s.leAt (a + i.bb * j) i.bb) 3

/-- Vector stores to the core's own tile memory: every byte of the span takes its byte of the register, and every other byte of memory is as
before (R96, R97), where no mask is armed. -/
def VectorStores : Prop :=
  ∀ (b : IssueM) (v : View) (r : BitVec 5) (p : AddrOp) (s : State), ∀ i ∈ vecStores v,
    let x := b.core
    let a := (operand s x (i.ins r p)).addr.toNat
    VecOwn s x (b.bundle (i.ins r p)) i → s.flipSel (x.val / 8) = none →
    ∃ t, exec (i.cmd b r p) s = .next t ∧ Updates s t x (i.ins r p) ∧ CoreFrame (s.view x) t.cores[x] (b.bundle (i.ins r p)) ∧
      (∀ j < i.count, t.byte (a + j) = BitVec.ofNat 8 ((s.view x).seen (i.reg r) 0 false / 2 ^ (8 * (i.first + j)))) ∧
      (∀ y, (y < a ∨ a + i.count ≤ y) → t.byte y = s.byte y) ∧
      { t with mem := s.mem, prot := s.prot, cores := s.cores, freeCtr := s.freeCtr } = s ∧ ∀ y, y ≠ x → t.cores[y] = s.cores[y]

/-- Element j of w bits of a register image, signed (R92). -/
def el (w j v : Nat) : Int := (element w j v).toInt

/-- A value clamped to w bits (R110). -/
def satTo (w : Nat) (v : Int) : Int := max (-(2 ^ (w - 1) : Int)) (min v ((2 ^ (w - 1) : Int) - 1))

/-- n elements of w bits of a register of core x are in flight in t, element j from bit at_ on being f j. -/
def WritesElems (t : State) (x : Fin 192) (r : TReg) (at_ w n lat : Nat) (f : Nat → Int) (chain : Nat := lat) : Prop :=
  ∃ v, Writes t x r at_ (w * n) v lat chain ∧ ∀ j < n, element w j v = BitVec.ofInt w (f j)

/-- A V-slot instruction on elements: its command, decoded form, element width and count, short or long register, result of two elements,
when it saturates, latency (R106). -/
structure VecOp where
  cmd : IssueV → BitVec 5 → BitVec 5 → BitVec 5 → Instr
  mn : VMn
  w : Nat
  n : Nat
  reg : BitVec 5 → TReg
  f : Int → Int → Int
  sat : Int → Int → Bool
  lat : Nat

/-- The product a × b >> 15 of R106, with −1 × −1 giving 0x7FFF. -/
def mul15 (a b : Int) : Int := if a * b = 2 ^ 30 then 32767 else a * b / 2 ^ 15

/-- A sum or difference saturates at w bits. -/
def outside (w : Nat) (v : Int) : Bool := decide (satTo w v ≠ v)

/-- The elementwise instructions with two vector operands. -/
def vecOps : List VecOp :=
  let no : Int → Int → Bool := fun _ _ => false
  let one : Int → Int → Bool := fun a b => decide (a * b = 2 ^ 30)
  [⟨.vaddS, .vadds_, 16, 8, svReg, (· + ·), no, 1⟩, ⟨.vsubS, .vsubs_, 16, 8, svReg, (· - ·), no, 1⟩,
   ⟨.vaddsS, .vaddss, 16, 8, svReg, fun a b => satTo 16 (a + b), fun a b => outside 16 (a + b), 1⟩,
   ⟨.vsubsS, .vsubss, 16, 8, svReg, fun a b => satTo 16 (a - b), fun a b => outside 16 (a - b), 1⟩,
   ⟨.vmulhS, .vmulhs, 16, 8, svReg, mul15, one, 2⟩,
   ⟨.vaddH, .vaddh, 16, 64, lvReg, (· + ·), no, 1⟩, ⟨.vsubH, .vsubh, 16, 64, lvReg, (· - ·), no, 1⟩,
   ⟨.vaddsH, .vaddsh, 16, 64, lvReg, fun a b => satTo 16 (a + b), fun a b => outside 16 (a + b), 1⟩,
   ⟨.vsubsH, .vsubsh, 16, 64, lvReg, fun a b => satTo 16 (a - b), fun a b => outside 16 (a - b), 1⟩,
   ⟨.vaddW, .vaddw, 32, 32, lvReg, (· + ·), no, 1⟩, ⟨.vsubW, .vsubw, 32, 32, lvReg, (· - ·), no, 1⟩,
   ⟨.vminH, .vminh, 16, 64, lvReg, min, no, 1⟩, ⟨.vmaxH, .vmaxh, 16, 64, lvReg, max, no, 1⟩,
   ⟨.vmulhH, .vmulhh, 16, 64, lvReg, mul15, one, 2⟩]

/-- Elementwise adds, subtracts, minima, maxima and Q15 products of short and long vectors write every element, set SAT where one saturates,
and change nothing outside the core; VAND, VOR and VXOR act on all 1,024 bits (R92, R106, R113). -/
def VectorPairs : Prop :=
  ∀ (b : IssueV) (vd va vb : BitVec 5) (s : State),
    let x := b.core
    let k := s.view x
    (∀ i ∈ vecOps, Completing s x (b.bundle { mn := i.mn, vd := vd, va := va, vb := vb }) →
      let e (j : Nat) (r : BitVec 5) : Int := el i.w j (k.seen (i.reg r) 0 false)
      ∃ t, exec (i.cmd b vd va vb) s = .next t ∧ OnlyCore s t x ∧ WritesElems t x (i.reg vd) 0 i.w i.n i.lat (fun j => i.f (e j va) (e j vb)) ∧
        Flagged t x 9 (∃ j < i.n, i.sat (e j va) (e j vb) = true)) ∧
    (∀ i ∈ [(Instr.vand, VMn.vand, Nat.land), (Instr.vor, VMn.vor, Nat.lor), (Instr.vxor, VMn.vxor, Nat.xor)],
      Completing s x (b.bundle { mn := i.2.1, vd := vd, va := va, vb := vb }) →
      ∃ t, exec (i.1 b vd va vb) s = .next t ∧ OnlyCore s t x ∧
        Writes t x (lvReg vd) 0 1024 (i.2.2 (k.seen (lvReg va) 0 false) (k.seen (lvReg vb) 0 false)) 1)

/-- A shift: its command, decoded form, element width and count, register, and whether it is to the left. -/
structure VecShift where
  cmd : IssueV → BitVec 5 → BitVec 5 → BitVec 5 → Bool → BitVec 6 → Instr
  mn : VMn
  w : Nat
  n : Nat
  reg : BitVec 5 → TReg
  left : Bool

/-- The shifts of R106. -/
def vecShifts : List VecShift := [
  ⟨.vsraS, .vsras, 16, 8, svReg, false⟩, ⟨.vshlS, .vshls, 16, 8, svReg, true⟩, ⟨.vsraH, .vsrah, 16, 64, lvReg, false⟩,
  ⟨.vshlH, .vshlh, 16, 64, lvReg, true⟩, ⟨.vsraW, .vsraw, 32, 32, lvReg, false⟩, ⟨.vshlW, .vshlw, 32, 32, lvReg, true⟩]

/-- Vector shifts take their count from imm6, or with R from bits 5:0 of d[vb]; beyond the element's top bit a right shift gives the sign
and a left shift 0 (R106, R107). -/
def VectorShifts : Prop :=
  ∀ (b : IssueV) (vd va vb : BitVec 5) (r : Bool) (imm6 : BitVec 6) (s : State), ∀ i ∈ vecShifts,
    let x := b.core
    let k := s.view x
    let n := if r then (k.d vb).toNat % 64 else imm6.toNat
    Completing s x (b.bundle { mn := i.mn, vd := vd, va := va, vb := vb, r := r, imm6 := imm6 }) →
    ∃ t, exec (i.cmd b vd va vb r imm6) s = .next t ∧ OnlyCore s t x ∧ WritesElems t x (i.reg vd) 0 i.w i.n 1 fun j =>
      let v := el i.w j (k.seen (i.reg va) 0 false)
      if i.left then (if n < i.w then v * 2 ^ n else 0) else v / 2 ^ min n (i.w - 1)

/-- n is the redundant-sign-bit count of a value of w bits: the bits below the top one that equal it, before the first that differs
(R78, R112). -/
def SignCount (w : Nat) (v : Int) (n : Nat) : Prop :=
  let m := BitVec.ofInt w v
  n < w ∧ (∀ i < n, m.getLsbD (w - 2 - i) = m.getLsbD (w - 1)) ∧ (n + 1 < w → m.getLsbD (w - 2 - n) ≠ m.getLsbD (w - 1))

/-- The count that EXP, EXPA and NORM use is the redundant-sign-bit count (R78). -/
def SignBitCount : Prop := ∀ (w : Nat) (v : Int), 0 < w → SignCount w v (signBits w v)

/-- VBEXP_S, VBEXP_H, VBEXP_W and VBEXP_A write the least redundant-sign-bit count of their elements to d[vd] (R106, R112). -/
def VectorExponents : Prop :=
  ∀ (b : IssueV) (vd va : BitVec 5) (imm6 : BitVec 6) (s : State),
    let x := b.core
    let k := s.view x
    let done (i : Instr) (q : VIns) (reg : TReg) (w n lat : Nat) : Prop := Completing s x (b.bundle q) →
      ∃ t v, exec i s = .next t ∧ OnlyCore s t x ∧ Writes t x (dReg vd) 0 32 v lat ∧
        (∃ j < n, SignCount w (el w j (k.seen reg 0 false)) v) ∧ ∀ j < n, ∀ m, SignCount w (el w j (k.seen reg 0 false)) m → v ≤ m
    done (.vbexpS b vd va) { mn := .vbexps, vd := vd, va := va } (svReg va) 16 8 1 ∧
    done (.vbexpH b vd va imm6) { mn := .vbexph, vd := vd, va := va, imm6 := imm6 } (lvReg va) 16 (imm6.toNat + 1) 2 ∧
    done (.vbexpW b vd va imm6) { mn := .vbexpw, vd := vd, va := va, imm6 := imm6 } (lvReg va) 32 (imm6.toNat + 1) 2 ∧
    done (.vbexpA b vd va imm6) { mn := .vbexpa, vd := vd, va := va, imm6 := imm6 } (vaccReg va) 48 (imm6.toNat + 1) 2

/-- The command of an instruction issues its bundle. -/
def CommandsIssue : Prop := ∀ (c : Instr) (x : Fin 192) (q : Bundle) (s : State), bundleOf c = some (x, q) → s.held = none → exec c s = .next (s.issue x q)

/-- Every bundle without an access that completes keeps the frame of its instructions, and changes nothing outside its core. -/
def PlainFrame : Prop :=
  ∀ (s : State) (x : Fin 192) (q : Bundle), Completing s x q → CoreFrame (s.view x) (s.issue x q).cores[x] q ∧ OnlyCore s (s.issue x q) x

/-- The decoded form of a cpx. -/
def cpxIns (tag : BitVec 6) (an : BitVec 4) (flag : BitVec 5) (func : BitVec 8) : MIns := { mn := .cpx, tag := tag, an := an, flag := flag, func := func }

/-- The tag of a core is busy (R127). -/
def tagBusy (s : State) (x : Fin 192) (tag : BitVec 6) : Bool := s.regBit (cqA x (8 + tag.toNat / 32 * 4)) (tag.toNat % 32)

/-- Requests pending at one acceptance point are taken in the order HALT, KILL, SWITCH, ATTN; ATTN and SWITCH are held while EXL is 1, and ATTN
while IE is 0; none is taken between a control transfer and the end of its second delay slot, after a rep until its last repetition, while
a cpx awaits its answer, or after rfe until the bundle at tc.epc has completed (R87, R88). -/
def RequestOrder : Prop :=
  ∀ c : Core, c.run = .running →
    (c.wait.isSome ∨ c.delay.isSome ∨ c.repOn = true ∨ c.rfeHold = true → c.takes = none) ∧
    (c.wait = none → c.delay = none → c.repOn = false → c.rfeHold = false →
      (c.haltReq = true → c.takes = some .halt) ∧
      (c.haltReq = false → c.killReq = true → c.takes = some .kill) ∧
      (c.haltReq = false → c.killReq = false →
        (bit c.fg.status 2 = true → c.takes = none) ∧
        (bit c.fg.status 2 = false → c.switchReq = true → c.takes = some .switch) ∧
        (bit c.fg.status 2 = false → c.switchReq = false →
          c.takes = if c.attnReq = true ∧ bit c.fg.status 1 = true then some .attn else none)))

/-- A core that would take a request, awaits an answer, or does not run issues no bundle: the bundle's command leaves the state as it is (R88;
log entry 1). -/
def NoIssue : Prop :=
  ∀ (s : State) (x : Fin 192) (q : Bundle), s.cores[x].takes.isSome = true ∨ s.cores[x].wait.isSome = true ∨ s.cores[x].run ≠ .running →
    s.issue x q = s

/-- HALT stops the core at an acceptance point with all its state intact and raises event c; DEBUG_RESUME resumes it (R90). -/
def HaltAndResume : Prop :=
  ∀ (s : State) (x : Fin 192), s.held = none →
    (s.cores[x].accepts = true → ∃ t, exec (.haltRequest x) s = .next t ∧ t.cores[x].run = .halted ∧ t.cores[x].fg = s.cores[x].drain.fg ∧
      t.cores[x].sh = s.cores[x].sh ∧ t.cores[x].epc = s.cores[x].epc ∧ t.cores[x].estatus = s.cores[x].estatus ∧
      t.events = s.events ++ [(x.val, s.reg (routeAddr x.val))] ∧ t.mem = s.mem) ∧
    (s.cores[x].accepts = false → s.cores[x].run = .running →
      ∃ t, exec (.haltRequest x) s = .next t ∧ t.cores[x] = { s.cores[x] with haltReq := true } ∧ OnlyCore s t x) ∧
    (s.cores[x].run = .halted → ∃ t, exec (.debugResume x) s = .next t ∧ t.cores[x] = { s.cores[x] with run := .running } ∧ OnlyCore s t x)

/-- KILL abandons the foreground thread without saving its bank and takes the shadow bank's thread, or stops the core (R90); SWITCH exchanges
the banks, the outgoing one saved to the context store (R89, R132); the core-wide control registers stay. Dispatch is enabled, or no
thread is in the shadow bank. -/
def KillAndSwitch : Prop :=
  ∀ (s : State) (x : Fin 192) (i : Instr) (q : CoreReq), (i, q) ∈ [(Instr.killRequest x, CoreReq.kill), (Instr.switchRequest x, CoreReq.switch)] →
    s.held = none → s.cores[x].takes = some q →
    let c := s.cores[x]
    let stays (t : State) : Prop := t.cores[x].sh = c.drain.fg ∧ t.cores[x].epc = c.epc ∧ t.cores[x].estatus = c.estatus ∧
      t.cores[x].cause = c.cause ∧ t.cores[x].vbase = c.vbase ∧ t.cores[x].ctl = c.ctl
    (c.shT = none → ∃ t, exec i s = .next t ∧ t.cores[x].run = .idle ∧ t.cores[x].fgT = none ∧ stays t ∧ t.cores[x].mpu = c.mpu ∧
      t.mem = s.mem ∧ (q = .kill → t.ctx = s.ctx)) ∧
    (∀ u, c.shT = some u → s.regBit (dptA (coreRange x) 4) 0 = true → (c.run = .running ∨ c.fgT ≠ some u) →
      ∃ t, exec i s = .next t ∧ t.cores[x].run = .running ∧ t.cores[x].fgT = some u ∧ t.cores[x].shT = none ∧ stays t ∧
        t.cores[x].fg.pc = c.sh.pc ∧ t.cores[x].fg.d = c.sh.d ∧ t.cores[x].fg.lv = c.sh.lv ∧ t.tState (coreRange x) u.toNat = 2 ∧
        (c.shSet = 15 → t.cores[x].mpu = c.mpu) ∧
        (c.shSet ≠ 15 → ∀ j : Fin 16, t.cores[x].mpu[j] = s.rset (coreRange x) c.shSet.toNat j.val)) ∧
    (q = .switch → c.discard = false → ∀ h, c.fgT = some h → (c.shT.isSome → s.regBit (dptA (coreRange x) 4) 0 = true) →
      ∃ t, exec i s = .next t ∧ ∀ j : Fin 32, t.ctxW (coreRange x).val (scalarOff h.toNat + 4 * j.val) = c.drain.fg.d[j])

/-- ATTN enters the exception path with CODE 0x10 and ASYNC, tc.epc naming the bundle about to issue (R83, R89). -/
def AttnEntry : Prop :=
  ∀ (s : State) (x : Fin 192), s.held = none → s.cores[x].takes = some .attn →
    let c := s.cores[x]
    ∃ t, exec (.attnRequest x) s = .next t ∧ OnlyCore s t x ∧ t.cores[x].cause = 0x410 ∧ t.cores[x].epc = c.fg.pc ∧
      t.cores[x].estatus = statusView s.compat c.fg.status &&& 0xFF ∧ t.cores[x].eaddr = 0 ∧
      t.cores[x].fg.pc = bundleAddr (c.vbase + 0x400) ∧ bit t.cores[x].fg.status 2 = true ∧ bit t.cores[x].fg.status 1 = false ∧
      bit t.cores[x].fg.status 0 = true ∧ t.cores[x].fg.d = c.drain.fg.d ∧ t.cores[x].attnReq = false

/-- An address that a row of the tables of R12 to R14 assigns. -/
def assigned (a : Nat) : Bool :=
  decide (a < 0x800000000) ||
  (decide (0x1000000000 ≤ a ∧ a < 0x1018000000) &&
    (let o := a % 0x1000000
     decide (o < 0xC00000) || decide ((o - 0xC00000) / 0x10000 ∈ [0, 2, 4, 5, 6, 7, 8, 9, 10, 11, 12, 13, 14, 15]))) ||
  (decide (0x2000000000 ≤ a ∧ a < 0x2000500000) &&
    (let k := (a - 0x2000000000) / 0x10000
     decide (k ≤ 8) || decide (0x10 ≤ k ∧ k ≤ 0x13) || decide (0x20 ≤ k ∧ k ≤ 0x23) || decide (0x30 ≤ k ∧ k ≤ 0x33) ||
       decide (0x40 ≤ k ∧ k ≤ 0x4F))) ||
  decide (0x3000000000 ≤ a ∧ a < 0x4000000000)

/-- A plain write of a register changes each bit by its access type: RW takes the value, RWL while LOCK is 0, W1C clears and W1S sets where
the value has 1; other bits, other registers and all else stay; an offset without a register ignores it (R6, R7, R8). -/
def AccessTypes : Prop :=
  ∀ (s : State) (b : Block) (o : Nat) (v : Word),
    (rowAt (rowsOf b) o = none → s.plainWrite b o v = s) ∧
    (∀ r, rowAt (rowsOf b) o = some r →
      { s.plainWrite b o v with regs := s.regs } = s ∧ (∀ a, a ≠ b.at o → (s.plainWrite b o v).reg a = s.reg a) ∧
      ∀ i < 32, (s.plainWrite b o v).regBit (b.at o) i =
        if r.w1s.testBit i && bit v i then true
        else if r.w1c.testBit i && bit v i then false
        else if r.rw.testBit i || (r.rwl.testBit i && !s.locked b) then bit v i
        else s.regBit (b.at o) i)

/-- LOCK_SET sets the LOCK of the block that holds the address, where it has one; no plain write clears it, and RWL bits then keep their
values (R6, R7). -/
def LockStays : Prop :=
  ∀ (s : State) (req : Requester) (b : Block) (l o : Nat) (a : Addr) (v : Word), lockOff b = some l →
    (decodeAddr s.part a.toNat = .block b o → Granted s req b l →
      ∃ t, exec (.lockSet req a) s = .next t ∧ t.locked b = true ∧ t.acc = .ok []) ∧
    (s.locked b = true → (s.plainWrite b o v).locked b = true ∧
      ∀ r, rowAt (rowsOf b) o = some r → ∀ i < 32, r.rwl.testBit i = true → r.rw.testBit i = false → r.w1c.testBit i = false →
        r.w1s.testBit i = false → (s.plainWrite b o v).regBit (b.at o) i = s.regBit (b.at o) i)

/-- A command that writes a register: its address and the word written. -/
structure WriteRow where
  cmd : Instr
  addr : Nat
  val : State → Word

/-- Every granted write command has the effect of its word at its register, and the access is done. -/
def RowsWrite (req : Requester) (l : List WriteRow) : Prop :=
  ∀ i ∈ l, ∀ (s : State) (b : Block) (o : Nat), b.at o = i.addr → Granted s req b o →
    exec i.cmd s = .next (s.regEffect req b o (i.val s)).granted

/-- REGISTER_WRITE and the write commands of the timebase, the dispatchers, the BFAs, the memories, the fabric and the flumes write their word
to their register. -/
def FirstWriteCommands : Prop :=
  ∀ (req : Requester) (a : Addr) (v : Word) (c : CmpId) (p : Bool) (r h : Fin 4) (t : BitVec 10) (flag : BitVec 5) (l : BitVec 8) (e : BitVec 9)
    (cell : Fin 16) (w : Fin 3) (n : Fin 24) (banks : BitVec 16) (m : Option (Fin 24)) (hi : Byte) (k : Fin 38 ⊕ Fin 64) (pl : Fin 8)
    (rs : BitVec 4) (f : FlumeId) (q : Fin 5) (g : EngId),
    RowsWrite req [
      ⟨.registerWrite req a v, a.toNat / 4 * 4, fun _ => v⟩,
      ⟨.tbCap req, tbA 0x18, fun _ => 1⟩, ⟨.tickDivWrite req v, tbA 0x70, fun _ => v⟩, ⟨.tbRateWrite req v, tbA 0x40, fun _ => v⟩,
      ⟨.comparatorArm req c v, c.base + 0xC, fun _ => v ||| 1⟩, ⟨.comparatorDisarm req c v, c.base + 0xC, fun _ => (v &&& ~~~1) ||| 2⟩,
      ⟨.stepGo req p, tbA 0x58, fun _ => if p then 3 else 1⟩, ⟨.stepLoadAtPps req, tbA 0x58, fun _ => 2⟩,
      ⟨.csDataWrite req r v, dptA r 0x24, fun _ => v⟩, ⟨.tcbStart req r t, dptA r 0x28, fun _ => BitVec.ofNat 32 (t.toNat + 0x1000)⟩,
      ⟨.tcbKill req r t, dptA r 0x28, fun _ => BitVec.ofNat 32 (t.toNat + 0x2000)⟩,
      ⟨.tcbRestart req r t, dptA r 0x28, fun _ => BitVec.ofNat 32 (t.toNat + 0x3000)⟩,
      ⟨.dptPost req r t flag, dptA r 0x30, fun _ => BitVec.ofNat 32 (t.toNat + 1024 * flag.toNat)⟩,
      ⟨.coreEnWrite req r p v, dptA r (if p then 0x14 else 0x10), fun _ => v⟩,
      ⟨.lockCfgWrite req r l v, lockA r l.toNat, fun _ => v⟩, ⟨.lockSeqWrite req r l v, lockA r l.toNat + 4, fun _ => v⟩,
      ⟨.streamWrite req r l v, bfaA r (0x1000 + 4 * l.toNat), fun _ => v⟩, ⟨.seqStart req r h, seqA r h.val 0x20, fun _ => 1⟩,
      ⟨.seqStop req r h, seqA r h.val 0x20, fun _ => 2⟩, ⟨.immOp req r e, bfaA r 0x10, fun _ => e.setWidth 32⟩,
      ⟨.cellActivate req r cell, cellA r cell.val 12, fun _ => 0x10000⟩, ⟨.forceColdUl req r cell, cellA r cell.val 12, fun _ => 0x20000⟩,
      ⟨.forceColdDl req r cell, cellA r cell.val 12, fun _ => 0x40000⟩, ⟨.cellCfgWrite req r cell w v, cellA r cell.val (4 * w.val), fun _ => v⟩,
      ⟨.bfaEnable req r v, bfaA r 4, fun _ => v ||| 1⟩,
      ⟨.poolInit req n banks, memA n.val 0xA4, fun _ => banks.setWidth 32⟩,
      ⟨.poisonWrite req m hi, match m with | some j => memA j.val 0xB4 | none => Block.rsv.at 0x304, fun _ => hi.setWidth 32⟩,
      ⟨.flipArm req m v, match m with | some j => memA j.val 0x100 | none => Block.rsv.at 0x400, fun _ => v ||| 1⟩,
      ⟨.flipDisarm req m v, match m with | some j => memA j.val 0x100 | none => Block.rsv.at 0x400, fun _ => (v &&& ~~~1) ||| 2⟩,
      ⟨.grantWrite req k v, match k with | .inl j => leatA (0x200 + 4 * j.val) | .inr j => leatA (0x300 + 4 * j.val), fun _ => v⟩,
      ⟨.planValidate req pl rs, leatA (0x400 + 4 * pl.val), fun _ => BitVec.ofNat 32 (rs.toNat + 0x100)⟩,
      ⟨.doorbell req f banks, f.base + 0x20, fun _ => banks.setWidth 32⟩, ⟨.flumeDisable req f v, f.base, fun _ => v &&& ~~~1⟩,
      ⟨.flumeEnable req f v, f.base, fun _ => v ||| 1⟩,
      ⟨.flumeCfgWrite req f q v, f.base + (if q.val = 4 then 0x24 else 0x10 + 4 * q.val), fun _ => v⟩,
      ⟨.engineEnable req g v, engA g 4, fun _ => v ||| 1⟩]

/-- BFA_DISABLE of a BFA that works on no operation at its head writes BFA_CTL with EN clear, and the records of the operations that it ends
go to the ring (08_beamforming_array.md R214, R216). -/
def BfaDisableCommand : Prop :=
  ∀ (req : Requester) (r : Fin 4) (v : Word) (s : State) (b : Block) (o : Nat), b.at o = bfaA r 4 → Granted s req b o →
    exec (.bfaDisable req r ⟨v, none⟩) s = .next (s.regEffect req b o (v &&& ~~~1)).granted.landPosts

/-- The write commands of the lanes, the framing, the sluices, start-up, housekeeping, events and the host port write their word to their
register. -/
def MoreWriteCommands : Prop :=
  ∀ (req : Requester) (v : Word) (p : Bool) (h r : Fin 4) (l : Fin 96) (q : Fin 24) (st : BitVec 2) (k : Fin 6) (i : BitVec 9) (c : Fin 16) (d : Fin 62)
    (keys : BitVec 4) (prod : BitVec 16) (ch : Fin 8) (chans : BitVec 8) (a : Fin 2) (inp : BitVec 5) (src : BitVec 11) (f : Fn),
    RowsWrite req [
      ⟨.rateWrite req l v, lnA l 0, fun _ => v⟩, ⟨.familyWrite req q v, quadA q.val 0, fun _ => v⟩, ⟨.txeqWrite req l v, lnA l 0x10, fun _ => v⟩,
      ⟨.prbsClear req l v, lnA l 0x30, fun _ => v ||| 0x100⟩, ⟨.laneCounterClear req l, lnA l 0x40, fun _ => 1⟩,
      ⟨.lanePwrReq req l st, lnA l 4, fun _ => st.setWidth 32⟩, ⟨.userBindWrite req h k i v, bindReg h k i.toNat, fun _ => v⟩,
      ⟨.scheduleEnable req h c v, schA h c.val 0, fun _ => v ||| 1⟩, ⟨.trunkGroupEnWrite req h q v, trkA h q.val 0, fun _ => v⟩,
      ⟨.forceWrite req d v, domCfg d.val, fun _ => v⟩, ⟨.clockSelWrite req r v, rangeClk r.val, fun _ => v⟩,
      ⟨.hubLimitWrite req h p v, slcA (0x500 + 8 * h.val + 4 * p.toNat), fun _ => v⟩,
      ⟨.fuseRevoke req keys, bootA 0x8004, fun _ => keys.setWidth 32⟩, ⟨.bootModeWrite req v, bootA 0x20, fun _ => v⟩,
      ⟨.h2sDoorbell req prod, mbxA 0x10, fun _ => prod.setWidth 32⟩, ⟨.s2hDoorbell req prod, mbxA 0x14, fun _ => prod.setWidth 32⟩,
      ⟨.dacInWrite req ch prod, dacA ch 8, fun _ => prod.setWidth 32⟩, ⟨.dacStrobe req keys, hkA 0x10, fun _ => keys.setWidth 32⟩,
      ⟨.dacQstop req ch, dacA ch 0x18, fun s => s.reg (dacA ch 0x18) ||| 0x80000000⟩,
      ⟨.dacQcfgWrite req ch p v, dacA ch (if p then 0x1C else 0x18), fun _ => v⟩,
      ⟨.dacRangeWrite req ch p, dacA ch 0, fun s => if p then s.reg (dacA ch 0) ||| 0x40 else s.reg (dacA ch 0) &&& ~~~0x40⟩,
      ⟨.dacOutEnWrite req ch p, dacA ch 0, fun s => if p then s.reg (dacA ch 0) ||| 0x80 else s.reg (dacA ch 0) &&& ~~~0x80⟩,
      ⟨.dacForceSafe req chans, hkA 0x1C, fun _ => chans.setWidth 32⟩, ⟨.dacResume req ch, dacA ch 0x20, fun _ => 1⟩,
      ⟨.toneFtwWrite req v, hkA 0x20, fun _ => v⟩, ⟨.adcUrgent req a inp, adcA a 0xC, fun _ => inp.setWidth 32⟩,
      ⟨.adcRefWrite req a v, adcA a 0, fun _ => v⟩, ⟨.routeWrite req src v, routeAddr src.toNat, fun _ => v⟩,
      ⟨.swevt req v, Block.evf.at 0x10, fun _ => v⟩, ⟨.eventCountClear req, Block.evf.at 0x14, fun _ => 1⟩,
      ⟨.msixSizeWrite req f v, hifA (0x100 + 0x20 * f.val), fun _ => v⟩]

/-- Commands that share a queue with those of a core: in the queue of the engine, or, of a range engine, of the core's ridge, there or on their
way there (R162). -/
def sharing (s : State) (e : EngId) (x : Fin 192) : List EngCmd :=
  let sent := s.fabric.txns.filterMap fun t => match t.carry with
    | .cmd k c => if k = e ∧ t.st ≠ .answered then some c else none
    | _ => none
  ((s.eng e).queue ++ sent).filter fun c => !e.ofRange || decide (c.core.val / 8 = x.val / 8)

/-- COMMIT of command c has reached engine e between s and t: a command that does not run is marked committed; one that runs with no staged
writes keeps its result (R121). -/
def Committed (s t : State) (e : EngId) (c : EngCmd) : Prop :=
  (s.engRuns e c = false → s.engEn e = true →
    (t.eng e).queue = (s.eng e).queue.map fun k => if k.core = c.core ∧ k.tag = c.tag then { k with committed := true } else k) ∧
  (s.engRuns e c = true → (s.eng e).staged = [] → (s.eng e).later = [] → (t.eng e).result = (s.eng e).result ∧ t.mem = s.mem)

/-- CANCEL of command c has reached engine e: it is removed and writes nothing (R122). -/
def Cancelled (s t : State) (e : EngId) (c : EngCmd) : Prop :=
  (t.eng e).queue = (s.eng e).queue.filter (fun k => !decide (k.core = c.core ∧ k.tag = c.tag)) ∧ t.mem = s.mem

/-- The initiator of a packet's transaction t, which stands answered after it, is to have an acknowledgement (R260). -/
def Acknowledged (u : State) (t : Txn) : Prop :=
  ∃ k ∈ u.fabric.txns, k.init = t.init ∧ k.tid = t.tid ∧ k.st = .answered ∧ k.carry = t.carry ∧ k.err = false

/-- ENGINE_COMMAND: the oldest command on its way to an engine, behind no COMMIT or CANCEL of its core (R123), is answered by the first that
applies of FUNC_UNSUPPORTED, DISABLED and QUEUE_FULL, and an accepted one joins a ridge engine's queue, or is sent to a range engine as an
ENG_CMD packet, with which it joins the queue there and is acknowledged (R117, R260). -/
def CommandsToEngines : Prop :=
  ∀ (s : State) (e : EngId), s.held = none →
    (∀ m, s.engArrival e = some m → s.rfabOn e.range = true →
      let cap := s.regBit (capA e m.cmd.core) (m.cmd.func.toNat % 32) && decide (m.cmd.func.toNat ∈ engCodes e)
      let en := s.regBit (engA e 4) 0
      let room := decide ((sharing s e m.cmd.core).length < 64)
      let i := (Requester.core m.cmd.core).endpoint
      let answers (a : Option Nat) : Prop := ∃ t, exec (.engineCommand ⟨e, none⟩) s = .next t ∧ t.replies = s.replies ++ [⟨m.cmd.core, some e, a⟩] ∧
        t.engSent = s.engSent.erase m ∧ (a ≠ none → t.engines = s.engines ∧ t.fabric = s.fabric) ∧
        (a = none → e.ofRange = false → (t.eng e).queue = (s.eng e).queue ++ [m.cmd] ∧ t.fabric = s.fabric) ∧
        (a = none → e.ofRange = true → t.engines = s.engines ∧ ∀ d, s.reach (.core m.cmd.core) e.base = .send d →
          ∃ k ∈ t.fabric.txns, k.carry = .cmd e m.cmd ∧ k.init = i ∧ k.dest = d ∧ k.ty = 2 ∧ k.len = 32 ∧
            (k.st = .sent ↔ s.niFree i = true ∧ s.maySend i d = true))
      (cap = false → answers (some 0x10)) ∧ (cap = true → en = false → answers (some 0x11)) ∧
        (cap = true → en = true → room = false → answers (some 0x12)) ∧ (cap = true → en = true → room = true → answers none)) ∧
    (∀ h t c, malformed h = false → s.arrival h 2 = some t → t.carry = .cmd e c →
      ∃ u, exec (.engineCommand ⟨e, some h⟩) s = .next u ∧ (u.eng e).queue = (s.eng e).queue ++ [c] ∧ Acknowledged u t ∧ u.mem = s.mem)

/-- COMMIT and CANCEL reach a ridge engine by its ridge's command port, and a range engine by a packet, which it acknowledges (R121, R122,
R260); COMMAND_COMPLETE of a committed command without staged writes writes its header, sets DONE, clears BUSY and removes it (R124); an
engine without a command gates its clock (R125). -/
def EngineQueues : Prop :=
  ∀ (s u : State) (e : EngId), s.held = none →
    (∀ m c, s.engMsg e = some m → s.engCmd e m.core m.tag = some c → e.ofRange = false →
      (m.cancel = false → ∃ t, exec (.commit ⟨e, none⟩) s = .next t ∧ t.engMsgs = s.engMsgs.erase m ∧ Committed s t e c) ∧
      (m.cancel = true → ∃ t, exec (.cancel ⟨e, none⟩) s = .next t ∧ t.engMsgs = s.engMsgs.erase m ∧ Cancelled s t e c)) ∧
    (∀ h t m c, malformed h = false → s.arrival h 3 = some t → t.carry = .ctl m → m.eng = e → s.engCmd e m.core m.tag = some c →
      (m.cancel = false → ∃ v, exec (.commit ⟨e, some h⟩) s = .next v ∧ Committed s v e c) ∧
      (m.cancel = true → ∃ v, exec (.cancel ⟨e, some h⟩) s = .next v ∧ Acknowledged v t ∧ Cancelled s v e c)) ∧
    (∀ m d, s.engMsg e = some m → e.ofRange = true → s.reach (.core m.core) e.base = .send d →
      ∃ t, exec (if m.cancel then .cancel ⟨e, none⟩ else .commit ⟨e, none⟩) s = .next t ∧ t.engMsgs = s.engMsgs.erase m ∧ t.engines = s.engines ∧
        ∃ k ∈ t.fabric.txns, k.carry = .ctl m ∧ k.init = (Requester.core m.core).endpoint ∧ k.dest = d ∧ k.ty = 3 ∧
          (k.st = .sent ↔ s.niFree k.init = true ∧ s.maySend k.init d = true)) ∧
    (∀ x tag res c d, (s.eng e).running = some (x, tag) → (s.eng e).result = some res → s.engCmd e x tag = some c → c.committed = true →
      s.engineOn e = true → (s.eng e).staged = [] → (s.eng e).later = [] →
      s.memWrite (.engine e) (c.ptr + 4) (wholeBytes (s.engHeader e res.status res.detail)) = (u, .ok d) →
      u.engines = s.engines →
      ∃ t, exec (.commandComplete e) s = .next t ∧ t.regBit (cqA x (0x10 + tag.toNat / 32 * 4)) (tag.toNat % 32) = true ∧
        t.regBit (cqA x (8 + tag.toNat / 32 * 4)) (tag.toNat % 32) = false ∧ (t.eng e).running = none ∧ (t.eng e).result = none ∧
        (t.eng e).queue = (s.eng e).queue.filter (fun k => !decide (k.core = x ∧ k.tag = tag)) ∧ t.mem = u.mem) ∧
    (s.engineOn e = true → (s.eng e).queue = [] → ∃ t, exec (.engineIdleGate e) s = .next t ∧ (t.eng e).gated = true ∧ t.mem = s.mem ∧
      t.regs = s.regs)

/-- A function of an engine: its command, its engine, its code and the length of its block. -/
def engineFunctions (n : Fin 24) (r : Fin 4) : List (Instr × EngId × Nat × EngFn × Nat) := [
  (.ldpcEnc n, .codec n, 0x01, encFn false, 2), (.ldpcDec n, .codec n, 0x05, decFn false, 2), (.turboEnc r, .turbo r, 0x81, encFn true, 2),
  (.turboDec r, .turbo r, 0x85, decFn true, 2), (.polarEnc n, .codec n, 0x09, polarFn false, 1), (.polarDec n, .codec n, 0x0D, polarFn true, 1),
  (.crcOp n, .codec n, 0x11, crcFn, 1), (.ofdmDemod n, .fft n, 0x21, fftFn .demod, 2), (.ofdmMod n, .fft n, 0x25, fftFn .mod, 2),
  (.dftOp n, .fft n, 0x29, fftFn .dft, 2), (.chest n, .eq n, 0x41, chestFn, 2), (.equalise n, .eq n, 0x45, equaliseFn, 2),
  (.burstRx r, .nbe r, 0xA1, burstRxFn, 2), (.burstTx r, .nbe r, 0xA5, burstTxFn, 1)]

/-- ENGINE_DISABLE with no command in the queue clears EN and raises the drained event where it is enabled; ENGINE_ENABLE sets EN where the queue
is empty, and is ignored with its cause bit set where it is not (R168). -/
def EngineEnables : Prop :=
  ∀ (s : State) (req : Requester) (e : EngId) (b : Block) (v : Word), engineAt b (engA e 4 - b.base) = some (e, 4) →
    Granted s req b (engA e 4 - b.base) → b.base ≤ engA e 4 →
    (s.engEn e = true → (s.eng e).queue = [] →
      ∃ t, exec (.engineDisable req e none) s = .next t ∧ t.regBit (engA e 4) 0 = false ∧ t.acc = .ok [] ∧
        t.events = s.events ++ if s.regBit (engA e 4) 2 then [(engEvent e 1, s.reg (routeAddr (engEvent e 1)))] else []) ∧
    (s.engEn e = false → (s.eng e).queue = [] → ∃ t, exec (.engineEnable req e v) s = .next t ∧ t.regBit (engA e 4) 0 = true ∧ t.acc = .ok []) ∧
    (s.engEn e = false → (s.eng e).queue ≠ [] → ∃ t, exec (.engineEnable req e v) s = .next t ∧ t.reg (engA e 4) = s.reg (engA e 4) ∧
      t.regBit (engA e 0xC) 0 = true ∧ t.engines = s.engines)

/-- The reference clock and the PLL of the timebase, the PPS supervision and the tick length: which TB_STATUS bits and events each input
command sets or clears, and that the count itself does not move (R24, R25, R43). -/
def TimebaseInputs : Prop :=
  ∀ s : State, s.held = none →
    (s.regBit (tbA 4) 1 = false → Does .refclkLost s fun t => OnlyRegs s t [tbA 4] [1638] ∧ t.reg (tbA 4) = s.reg (tbA 4) ||| 0x102) ∧
    (s.regBit (tbA 4) 1 = true → Does .refclkRestored s fun t => OnlyRegs s t [tbA 4] [1639] ∧ t.reg (tbA 4) = s.reg (tbA 4) &&& ~~~2) ∧
    (s.regBit (tbA 4) 0 = true → Does .tbPllUnlock s fun t => OnlyRegs s t [tbA 4] [1640] ∧
      t.reg (tbA 4) = (s.reg (tbA 4) &&& ~~~1) ||| 0x200) ∧
    (s.tb.started = false → s.regBit (tbA 4) 1 = false → Does .tbPllLock s fun t =>
      t.tb = { s.tb with started := true } ∧ t.reg (tbA 4) = s.reg (tbA 4) ||| 1) ∧
    (s.tb.started = true → s.regBit (tbA 4) 0 = false → s.regBit (tbA 4) 1 = false → Does .tbPllRelock s fun t =>
      OnlyRegs s t [tbA 4] [] ∧ t.reg (tbA 4) = s.reg (tbA 4) ||| 1) ∧
    (s.regBit (tbA 0x68) 0 = true → s.tb.ppsRef + 1474560000 ≤ s.tb.cycles → Does .ppsMissing s fun t =>
      t.events = s.events ++ [(1633, s.reg (routeAddr 1633))] ∧ t.tb = { s.tb with ppsRef := s.tb.ppsRef + 1474560000 }) ∧
    (∀ d, s.tb.divNew = some d → s.tb.divFrame ≠ ((s.tb.now.toNat : Int) - s.frameOfs) / 9830400 → Does .tickDivApply s fun t =>
      t.tb = { s.tb with div := d, divNew := none } ∧ t.regBit (tbA 0x74) 0 = false)

/-- A difference of a replica above 2 tu is counted, recorded and reported as event 1637, and the replica is reloaded from the count where
TREE_RELOAD_EN is 1 (R31). -/
def TreeChecks : Prop :=
  ∀ (s : State) (r : ReplicaId), s.held = none →
    2 < (sget (fun _ => 0) s.replicas r.index).natAbs →
    Does (.treeCheck r) s fun t =>
      t.reg (tbA 0xD0) = satAdd (s.reg (tbA 0xD0)) 1 ∧ t.regBit (tbA 4) 11 = true ∧ t.events = s.events ++ [(1637, s.reg (routeAddr 1637))] ∧
      t.tb = s.tb ∧ (s.regBit (tbA 8) 1 = true → t.replica r = t.tb.now) ∧ (s.regBit (tbA 8) 1 = false → t.replicas = s.replicas)

/-- The rate: a write beyond 109,951 in magnitude is clamped, sets RATE_CLAMP and raises event 1641; a carry takes TB_NOW forward by 2, or
holds it, and takes one tu off the remainder to slew; the end of a slew raises event 1636 (R38, R40). -/
def RateAndSlew : Prop :=
  ∀ (s : State) (v : Word),
    (s.rateWrite v).reg (tbA 0x40) = v ∧
    ((sext 32 v.toNat).natAbs ≤ 109951 → (s.rateWrite v).events = s.events) ∧
    (109951 < (sext 32 v.toNat).natAbs →
      (s.rateWrite v).regBit (tbA 4) 10 = true ∧ (s.rateWrite v).events = s.events ++ [(1641, s.reg (routeAddr 1641))]) ∧
    (s.tb.slew = 0 → s.rateAct = max (-109951) (min 109951 (sext 32 (s.reg (tbA 0x40)).toNat))) ∧
    (0 < s.tb.slew → s.rateAct = 109951) ∧ (s.tb.slew < 0 → s.rateAct = -109951) ∧
    (s.held = none → s.tb.started = true → s.carries = true →
      Does .slewCarry s fun t =>
        t.tb.now = s.tb.now + (if 0 < s.rateAct then 2 else 0) ∧
        (0 < s.tb.slew → t.tb.slew = s.tb.slew - 1) ∧ (s.tb.slew < 0 → t.tb.slew = s.tb.slew + 1) ∧ (s.tb.slew = 0 → t.tb.slew = 0) ∧
        ((s.tb.slew = 1 ∨ s.tb.slew = -1) → t.events = s.events ++ [(1636, s.reg (routeAddr 1636))]) ∧
        (s.tb.slew ≠ 1 → s.tb.slew ≠ -1 → t.events = s.events))

/-- Steps: GO with LOAD_AT_PPS is a conflict; in a mode that permits steps TB_NOW moves by the amount in one cycle, with STEPPED, the outcome
STEPPED and event 1634; in any other mode an amount of at most 983 tu joins the slew, and a greater one is refused with event 1635 (R39, R41). -/
def Steps : Prop :=
  ∀ (s : State) (v : Word) (d : Int),
    (bit v 0 = true → bit v 1 = true → s.stepCmd v = s.setRegFld (tbA 0x5C) 2 0 5) ∧
    (bit v 0 = true → bit v 1 = false → s.tb.started = true →
      s.stepCmd v = ({ s with tb := { s.tb with waitLoad := none } } : State).stepDue (sext 64 (s.reg64 (tbA 0x50)))) ∧
    (bit v 0 = false → bit v 1 = true → (s.stepCmd v).tb.waitLoad = some (BitVec.ofNat 64 (s.reg64 (tbA 0x50))) ∧
      (s.stepCmd v).regFld (tbA 0x5C) 2 0 = 1) ∧
    (s.stepMode = true → d ≤ 0 → (s.stepDue d).tb = { s.tb with now := s.tb.now + BitVec.ofInt 64 d, slew := 0, stepAt := s.tb.cycles, stepBy := d } ∧
      (s.stepDue d).regFld (tbA 0x5C) 2 0 = 2 ∧ (s.stepDue d).regBit (tbA 4) 2 = true ∧
      (s.stepDue d).events = s.events ++ [(1634, s.reg (routeAddr 1634))]) ∧
    (s.stepMode = false → d.natAbs ≤ 983 → (s.stepDue d).tb = { s.tb with slew := s.tb.slew + d } ∧ (s.stepDue d).regFld (tbA 0x5C) 2 0 = 3) ∧
    (s.stepMode = false → 983 < d.natAbs → (s.stepDue d).tb = s.tb ∧ (s.stepDue d).regFld (tbA 0x5C) 2 0 = 4 ∧
      (s.stepDue d).events = s.events ++ [(1635, s.reg (routeAddr 1635))])

/-- An edge of PPS_IN of the kind that FALLING selects, stable for DEGLITCH tu, records the replica value of its first sample, raises event
1632, and applies the load that waits for it (R25, R39); an edge of the other kind does nothing, and the 1.5 s without an edge begin where
EN is set (R25). -/
def PpsEdges : Prop :=
  ∀ (s : State) (falling : Bool) (first : Time), s.held = none → s.regBit (tbA 0x68) 0 = true → s.tb.started = true →
    let d := max 1 (s.regFld (tbA 0x68) 15 2)
    let v := (s.replica .tb).toNat
    (s.regBit (tbA 0x68) 1 ≠ falling → NoEffect (.ppsEdgeHeld ⟨falling, first⟩) s) ∧
    (s.regBit (tbA 0x68) 1 = falling → first.toNat + d ≤ v + 1 → v ≤ first.toNat + d → s.tb.waitLoad = none → s.regBit (tbA 8) 0 = false →
      Does (.ppsEdgeHeld ⟨falling, first⟩) s fun t =>
      OnlyRegs { s with tb := t.tb } t [tbA 0x60, tbA 0x64] [1632] ∧ t.tb = { s.tb with ppsRef := s.tb.cycles } ∧
      t.reg64 (tbA 0x60) = first.toNat) ∧
    (∀ w, s.regBit (tbA 0x68) 1 = falling → first.toNat + d ≤ v + 1 → v ≤ first.toNat + d → s.tb.waitLoad = some w → s.regBit (tbA 8) 0 = false →
      (w.toNat : Int) ≤ first.toNat → s.stepMode = true →
      Does (.ppsEdgeHeld ⟨falling, first⟩) s fun t => t.tb.now = s.tb.now + w - first ∧ t.tb.waitLoad = none ∧ t.regFld (tbA 0x5C) 2 0 = 2) ∧
    ((s.ppsEnable false).tb = { s.tb with ppsRef := s.tb.cycles } ∧ (s.ppsEnable false).regs = s.regs ∧ s.ppsEnable true = s)

/-- The tick: every dispatcher whose infrastructure runs receives the tick number; DPT_TICK shows it once no entry of its delay list is due
(R42, R144). A write of 256 to 65,536 to TB_TICK_DIV waits for the next frame boundary, any other is ignored (R42, R43). -/
def Ticks : Prop :=
  ∀ s : State,
    (s.held = none → s.tb.started = true → s.atTick = true → Does .tick s fun t =>
      ∀ r : Fin 4, s.rinfOn r.val = true →
        t.dpts[r] = { s.dpts[r] with tick := s.tickOf s.tb.now.toNat } ∧
        ((∀ e ∈ s.dpts[r].delay, tickDue (s.tickOf s.tb.now.toNat) e.1 = false) → t.reg (dptA r 0x40) = s.tickOf s.tb.now.toNat)) ∧
    (∀ v : Word, fld v 16 0 < 256 ∨ 65536 < fld v 16 0 → s.tickDivWrite v = s) ∧
    (∀ v : Word, 256 ≤ fld v 16 0 → fld v 16 0 ≤ 65536 →
      (s.tickDivWrite v).reg (tbA 0x70) = BitVec.ofNat 32 (fld v 16 0) ∧ (s.tickDivWrite v).regBit (tbA 0x74) 0 = true ∧
      (s.tickDivWrite v).tb.div = s.tb.div ∧ (s.tickDivWrite v).tb.divNew = some (BitVec.ofNat 17 (fld v 16 0)))

/-- A recovered-clock output is the clock of the lane SRC_LANE names, divided by 165, 660, 80 or 320, and low while OUT_EN is 0, while SRC_LANE
names no lane of the part, and while it is squelched: its lane is lost and SQUELCH_EN is 1; it goes on where the lane is live again (R46, R50). -/
def ClockOutputs : Prop :=
  ∀ (s : State) (n : Fin 2),
    let w := s.reg (tbA (0xC0 + 4 * n.val))
    let lane := fld w 6 0
    let low := bit w 10 = false ∨ 96 ≤ lane ∨ s.hasRange (lane / 24) = false ∨ (s.tb.recLost.getLsbD n.val = true ∧ bit w 9 = true)
    (low → s.recclk n.val = .low) ∧
    (¬low → s.recclk n.val = .clock lane (if bit w 8 then (if bit w 7 then 320 else 80) else if bit w 7 then 660 else 165)) ∧
    (s.tbView (0xC0 + 4 * n.val) = some (setBit w 16 (s.tb.recLost.getLsbD n.val && bit w 9))) ∧
    (s.held = none → s.tb.recLost.getLsbD n.val = true → s.recclkLive n = true →
      Does (.recclkResume n) s fun t => t.tb.recLost.getLsbD n.val = false ∧ { t with tb := s.tb } = s ∧
        { t.tb with recLost := s.tb.recLost } = s.tb ∧ ∀ m : Fin 2, m ≠ n → t.tb.recLost.getLsbD m.val = s.tb.recLost.getLsbD m.val)

/-- ARM and DISARM of a comparator (R33, R35, R36): ARM arms at TARGET, unless PERIODIC is set with PERIOD below 256, which sets ERR and leaves
the comparator as it was, but for a DISARM in the same write; DISARM alone disarms; both together re-arm; neither leaves it as it is. A
write that meets a fire comes after it. -/
def ComparatorWrites : Prop :=
  ∀ (s : State) (c : CmpId) (v : Word), let t := s.cmpCtl c.base v
    let refused := bit v 0 = true ∧ bit v 2 = true ∧ (s.reg (c.base + 8)).toNat < 256
    (¬refused → t.reg (c.base + 0xC) = setFld (s.reg (c.base + 0xC)) 3 2 (fld v 3 2)) ∧
    (¬refused → bit v 0 = true → t.armed c = true ∧ t.target c.base = BitVec.ofNat 64 (s.reg64 c.base)) ∧
    (refused → t.reg (c.base + 0xC) = s.reg (c.base + 0xC) ∧ t.regBit (c.base + 0x10) 3 = true ∧ t.targets = s.targets ∧
      t.armed c = (s.armed c && !bit v 1)) ∧
    (bit v 0 = false → bit v 1 = true → t.armed c = false ∧ t.targets = s.targets) ∧
    (bit v 0 = false → bit v 1 = false → t.armed c = s.armed c ∧ t.targets = s.targets) ∧
    (∀ g, c = .gt g → s.armed c = true → (s.target c.base).toNat ≤ (s.replica c.replica).toNat → (s.cmpWrite c v).regBit (c.base + 0x10) 1 = true)

/-- What every fire of a comparator does (R34, R35): FIRED, FIRED_AT the replica's low word, LATE with the count and event 1642 where the
replica is 2 or more beyond the target; without PERIODIC it is disarmed; with it, it is armed again at the first multiple of the period
beyond the replica's value, the skipped ones counted. -/
def ComparatorFires : Prop :=
  ∀ (s : State) (c : CmpId),
    let v := (s.replica c.replica).toNat
    let a := (s.target c.base).toNat
    let p := (s.reg (c.base + 8)).toNat
    let t := s.cmpFire c
    t.regBit (c.base + 0x10) 1 = true ∧ t.reg (c.base + 0x14) = BitVec.ofNat 32 v ∧
    (a + 2 ≤ v → t.regBit (c.base + 0x10) 2 = true ∧ t.reg (tbA 0x6C) = satAdd (s.reg (tbA 0x6C)) 1 ∧
      t.events = s.events ++ [(1642, s.reg (routeAddr 1642))]) ∧
    (v < a + 2 → t.events = s.events ∧ t.regBit (c.base + 0x10) 2 = s.regBit (c.base + 0x10) 2) ∧
    (s.regBit (c.base + 0xC) 2 = false → t.armed c = false) ∧
    (s.regBit (c.base + 0xC) 2 = true → 256 ≤ p → s.armed c = true → a + 2 * p + v < 2 ^ 64 → a ≤ v →
      t.armed c = true ∧ v < (t.target c.base).toNat ∧ (t.target c.base).toNat ≤ v + p ∧ p ∣ (t.target c.base).toNat - a)

/-- COMPARATOR_FIRE of a due comparator of a running unit: the fire, and the action of its unit; of a general comparator the event where
EVT_EN is 1, of a timed post the flag posted to its thread, of a flume its start, of a sequencer, a schedule, a DAC queue and the
sluice controller their next work (R34, R37), after which posted writes land. A sequencer channel fires in its turn (R211). -/
def ComparatorActions : Prop :=
  ∀ (s : State) (c : CmpId), s.held = none → s.cmpOn c = true → s.armed c = true → s.cmpTurn c = true →
    (s.target c.base).toNat ≤ (s.replica c.replica).toNat →
    exec (.comparatorFire c) s = .next (State.landPosts
      (let t := s.cmpFire c
       let late := decide ((s.target c.base).toNat + 2 ≤ (s.replica c.replica).toNat)
       match c with
       | .gt g => if t.regBit (c.base + 0xC) 3 then t.raise (1600 + g.val) else t
       | .flume f => t.flumeFire f late
       | .tp r i =>
         let w := t.reg (dptA r (0x6020 + 0x40 * i.val))
         let u := t.post r (fld w 9 0) (fld w 14 10) none
         if u.regBit (c.base + 0xC) 3 then u.raise (dptEvent r 10) else u
       | .seq r h => t.seqFire r h.val late
       | .sch h i => t.schFire h i (s.target c.base).toNat
       | .dac d => t.dacFire d
       | .slc i => t.slcFire i))

/-- The words of a TCB are words of their own: setting a field of one leaves every other word of the context store as it is. -/
def TcbWords : Prop :=
  ∀ (s : State) (r q : Fin 4) (t u off o : Nat) (v : Word), off < 0x80 → o < 0x80 → t < 1024 → u < 1024 →
    (s.setTcb r t off v).tcb q u o = if q = r ∧ u = t ∧ o = off then v else s.tcb q u o

/-- A post to a DORMANT TCB, or with a generation that is not the TCB's, is dropped and counted; any other sets its flag. A flag that
satisfies the wait of a WAITING thread makes it READY behind its equals with wake cause 0; a new flag of AMASK sends ATTN to the core of a
RUNNING thread (R135 to R137). -/
def Posts : Prop :=
  ∀ (s : State) (r : Fin 4) (t : BitVec 10) (flag : BitVec 5) (gen : Option Nat),
    let n := t.toNat
    let u := s.post r n flag.toNat gen
    let flags := s.tcb r n 4 ||| (1 <<< flag.toNat)
    let stale := gen.isSome = true ∧ gen ≠ some (fld (s.tcb r n 44) 27 24)
    ((s.tState r n = 0 ∨ stale) →
      u.ctx = s.ctx ∧ u.cores = s.cores ∧ u.dpts = s.dpts ∧ u.reg (dptA r 0xB0) = s.reg (dptA r 0xB0) + 1 ∧
      u.events = s.events ++ (if s.regBit (dptA r 4) 2 then [(dptEvent r 9, s.reg (routeAddr (dptEvent r 9)))] else [])) ∧
    (s.tState r n = 3 → ¬stale → waitMet flags (s.tcb r n 8) (bit (s.tcb r n 0) 6) = true →
      u.tState r n = 1 ∧ u.dpts[r].ready = s.dpts[r].ready.filter (· ≠ t) ++ [t] ∧ (∀ e ∈ u.dpts[r].delay, e.2 ≠ t) ∧
      sget (fun _ => 0) u.dpts[r].wake n = 0 ∧
      (bit (s.tcb r n 0) 7 = false → u.tcb r n 4 = flags) ∧
      (bit (s.tcb r n 0) 7 = true → u.tcb r n 4 = flags &&& ~~~s.tcb r n 8 ∧
        sget (fun _ => 0) u.dpts[r].consumed n = flags &&& s.tcb r n 8)) ∧
    (s.tState r n ≠ 0 → ¬stale → (s.tState r n = 3 → waitMet flags (s.tcb r n 8) (bit (s.tcb r n 0) 6) = false) →
      u.tcb r n 4 = flags ∧ u.dpts = s.dpts ∧
      ∀ x, s.fgCore r n = some x →
        u.cores[x].attnReq = (s.cores[x].attnReq || (decide (s.tState r n = 2) && !bit (s.tcb r n 4) flag.toNat && bit (s.tcb r n 12) flag.toNat)))

/-- TCB commands: START of a DORMANT thread with a core in its affinity and a vector frame of its own makes it READY with the next
generation and wake cause 3; RESTART of a FAULTED thread makes it READY with its saved frames; KILL makes it DORMANT; other states, an empty
affinity and a frame in use are refused with their codes (R131, R133, R134, R148, R160). -/
def ThreadCommands : Prop :=
  ∀ (s : State) (r : Fin 4) (t : BitVec 10),
    let n := t.toNat
    let code := fun (u : State) => u.regFld (dptA r 0x2C) 2 0
    (s.tState r n = 0 → (s.tcb r n 16 ≠ 0 ∨ fld (s.tcb r n 20) 15 0 ≠ 0) → s.frameTaken r n = false →
      let u := s.tcbStart r n
      u.tState r n = 1 ∧ code u = 0 ∧ u.dpts[r].ready = s.dpts[r].ready.filter (· ≠ t) ++ [t] ∧
      fld (u.tcb r n 44) 27 24 = (fld (s.tcb r n 44) 27 24 + 1) % 16 ∧ sget (fun _ => 0) u.dpts[r].wake n = 3 ∧
      u.tcb r n 36 = 0 ∧ u.tcb r n 40 = 0 ∧ u.tcb r n 4 = s.tcb r n 4) ∧
    (s.tState r n ≠ 0 → s.tcbStart r n = s.cmdRefused r 1) ∧
    (s.tState r n = 0 → s.tcb r n 16 = 0 → fld (s.tcb r n 20) 15 0 = 0 → s.tcbStart r n = s.cmdRefused r 2) ∧
    (s.tState r n = 0 → (s.tcb r n 16 ≠ 0 ∨ fld (s.tcb r n 20) 15 0 ≠ 0) → s.frameTaken r n = true → s.tcbStart r n = s.cmdRefused r 3) ∧
    (s.tState r n = 5 → (s.tcbRestart r n).tState r n = 1 ∧ code (s.tcbRestart r n) = 0 ∧
      (s.tcbRestart r n).dpts[r].ready = s.dpts[r].ready.filter (· ≠ t) ++ [t]) ∧
    (s.tState r n ≠ 5 → s.tcbRestart r n = s.cmdRefused r 1) ∧
    (s.tState r n ≠ 0 → (s.tcbKill r n).tState r n = 0 ∧ code (s.tcbKill r n) = 0 ∧ t ∉ (s.tcbKill r n).dpts[r].ready ∧
      fld ((s.tcbKill r n).tcb r n 44) 2 0 = 2) ∧
    (∀ c, (s.cmdRefused r c).regBit (dptA r 0x50) 3 = true ∧ (s.cmdRefused r c).ctx = s.ctx ∧ (s.cmdRefused r c).dpts = s.dpts)

/-- The order of dispatch holds exactly the READY threads, by level, and threads of one level without deadlines stay in the order in which
they became READY (R138). -/
def ReadyOrder : Prop :=
  ∀ (s : State) (r : Fin 4),
    (s.readyOrder r).Perm (s.dpts[r].ready.map BitVec.toNat) ∧
    (s.readyOrder r).Pairwise (fun a b => fld (s.tcb r a 0) 13 8 ≤ fld (s.tcb r b 0) 13 8) ∧
    ((∀ t ∈ s.dpts[r].ready, bit (s.tcb r t.toNat 0) 22 = false) → ∀ l : Nat,
      (s.readyOrder r).filter (fun a => fld (s.tcb r a 0) 13 8 = l) =
        (s.dpts[r].ready.map BitVec.toNat).filter (fun a => fld (s.tcb r a 0) 13 8 = l))

/-- The core chosen for a thread is eligible, in its affinity and idle; its rank (HOME ridge, then ridges in RUN, DOZE and SLEEP) is the
least there is, and no core of the same rank has a lower number (R139). -/
def CoreChoice : Prop :=
  ∀ (s : State) (r : Fin 4) (t : Nat) (c : Fin 48), s.chooseCore r t false = some c →
    let fits := fun d : Fin 48 => s.idleFor r t d = true ∧ (s.coreRank r t d).isSome = true ∧ s.voted (6 * r.val + d.val / 8) 1 = false
    fits c ∧ ∀ d : Fin 48, fits d →
      (s.coreRank r t c).getD 9 < (s.coreRank r t d).getD 9 ∨ ((s.coreRank r t c).getD 9 = (s.coreRank r t d).getD 9 ∧ c ≤ d)

/-- THREAD_DISPATCH, PREEMPT and SHADOW_PRELOAD where their thread's frames load without error: the thread of the first runs on the chosen
core, that of the second is in the shadow bank of a core that has been sent SWITCH, that of the third is PRELOADED (R139 to R142); a core
in DOZE or SLEEP is asked to wake first, and a thread whose frames do not load, for an uncorrectable codeword, is FAULTED (R129, R139). -/
def Dispatching : Prop :=
  ∀ (s : State) (r : Fin 4) (t : BitVec 10) (c : Fin 48), s.held = none → s.rinfOn r.val = true → s.regBit (dptA r 4) 0 = true →
    let n := t.toNat
    let loads := (s.readFrames r n).2.isSome = true
    (s.nextDispatch r = some (n, c) → s.dom (6 * r.val + c.val / 8) = 0 → loads →
      Does (.threadDispatch r none) s fun u =>
        u.cores[dev r c].run = .running ∧ u.cores[dev r c].fgT = some t ∧ u.cores[dev r c].shT = none ∧ u.tState r n = 2 ∧
        t ∉ u.dpts[r].ready ∧ u.reg (dptA r 0xA0) = s.reg (dptA r 0xA0) + 1) ∧
    (s.nextDispatch r = some (n, c) → s.dom (6 * r.val + c.val / 8) ≠ 0 →
      Does (.threadDispatch r none) s fun u =>
        6 * r.val + c.val / 8 ∈ u.wakes ∧ (n, c.val) ∈ u.dpts[r].wakePending ∧ u.cores = s.cores ∧ u.ctx = s.ctx) ∧
    (s.nextDispatch r = some (n, c) → s.dom (6 * r.val + c.val / 8) = 0 → bit (s.tcb r n 0) 23 = false → ¬loads →
      Does (.threadDispatch r none) s fun u => u.tState r n = 5 ∧ u.regBit (dptA r 0x50) 1 = true ∧ t ∉ u.dpts[r].ready) ∧
    (s.regBit (dptA r 4) 1 = true → s.nextPreempt r = some (n, c) → (loads ∨ s.cores[dev r c].shT = some t) →
      Does (.preempt r none) s fun u =>
        u.cores[dev r c].shT = some t ∧ u.cores[dev r c].switchReq = true ∧ u.cores[dev r c].discard = false ∧
        u.reg (dptA r 0xA4) = s.reg (dptA r 0xA4) + 1) ∧
    (s.coreEn r c.val = true → s.cores[dev r c].fgT.isSome = true → s.cores[dev r c].switchReq = false → s.shadowChoice r c = some n →
      (loads ∨ s.cores[dev r c].shT = some t) →
      Does (.shadowPreload r c none) s fun u =>
        u.cores[dev r c].shT = some t ∧ u.cores[dev r c].fg = s.cores[dev r c].fg ∧
        (s.cores[dev r c].shT ≠ some t → bit (u.tcb r n 0) 4 = true))

/-- DELAY_ENTRY_DUE, DEADLINE_MISS and THREAD_FAULT: the first due entry leaves the delay list and its thread is READY with wake cause 1 after
a sleep, 2 after a timed wait; a miss is counted, reported as the dispatcher's event 0 and meets its policy: DL_EN cleared, the lower level
taken, or the thread killed; a core stopped by a double fault leaves its thread FAULTED (R144, R146, R147). -/
def Timers : Prop :=
  ∀ (s : State) (r : Fin 4) (t : BitVec 10), s.held = none → s.rinfOn r.val = true →
    let n := t.toNat
    (∀ w l, s.dueEntries r = (w, t) :: l → Does (.delayEntryDue r) s fun u =>
      u.tState r n = 1 ∧ t ∈ u.dpts[r].ready ∧ (∀ e ∈ u.dpts[r].delay, e.2 ≠ t) ∧
      sget (fun _ => 0) u.dpts[r].wake n = (if s.tState r n = 4 then 1 else 2) ∧ u.events = s.events) ∧
    (s.missed r n = true →
      (fld (s.tcb r n 0) 21 20 = 0 → Does (.deadlineMiss r t) s fun u =>
        bit (u.tcb r n 0) 22 = false ∧ u.tState r n = s.tState r n ∧ u.events = s.events ++ [(dptEvent r 0, s.reg (routeAddr (dptEvent r 0)))] ∧
        u.reg (dptA r 0xA8) = s.reg (dptA r 0xA8) + 1 ∧ u.reg (dptA r 0x58) = t.setWidth 32 ∧
        fld (u.tcb r n 28) 31 16 = min 65535 (fld (s.tcb r n 28) 31 16 + 1)) ∧
      (fld (s.tcb r n 0) 21 20 = 1 → Does (.deadlineMiss r t) s fun u =>
        bit (u.tcb r n 0) 22 = false ∧ fld (u.tcb r n 0) 13 8 = fld (s.tcb r n 0) 19 14 ∧ u.tState r n = s.tState r n) ∧
      (1 < fld (s.tcb r n 0) 21 20 → Does (.deadlineMiss r t) s fun u =>
        u.tState r n = 0 ∧ fld (u.tcb r n 44) 2 0 = 3 ∧ t ∉ u.dpts[r].ready)) ∧
    (∀ x : Fin 192, coreRange x = r → s.cores[x].run = .faulted → s.cores[x].fgT = some t → s.cores[x].shT ≠ some t →
      s.cores[x].discard = false → (s.tState r n = 1 ∨ s.tState r n = 2) → bit (s.tcb r n 0) 23 = false →
      Does (.threadFault x) s fun u => u.tState r n = 5 ∧ u.events = s.events ++ [(dptEvent r 1, s.reg (routeAddr (dptEvent r 1)))])

/-- LOCK_ENTER and LOCK_RELEASE: the sequence numbers a lock gives and takes back in order, and their refusals by code (R149, R150, R153). -/
def LockOps : Prop :=
  ∀ (s : State) (r : Fin 4) (x : Fin 192) (t : BitVec 10) (l : BitVec 8) (q : BitVec 16),
    let n := t.toNat
    let k := l.toNat
    let e := s.lockE r k
    let res := fun u : State => (u.cores[x].result.toNat % 65536, u.cores[x].result.toNat / 65536)
    let full := bit (s.tcb r n 36) 24 = true ∧ bit (s.tcb r n 40) 24 = true
    (s.lockOn r k = true → s.lockN r k ≠ s.lockWindow r k → ¬full →
      let u := s.lockEnter r x n k
      res u = (e, 0) ∧ u.lockE r k = (e + 1) % 65536 ∧ u.lockR r k = s.lockR r k ∧ (u.openEntry r n k e).isSome = true ∧ u.events = s.events) ∧
    (s.lockOn r k = false → res (s.lockEnter r x n k) = (0, 8) ∧ (s.lockEnter r x n k).ctx = s.ctx) ∧
    (s.lockOn r k = true → s.lockN r k = s.lockWindow r k → res (s.lockEnter r x n k) = (0, 2)) ∧
    (s.lockOn r k = true → s.lockN r k ≠ s.lockWindow r k → full → res (s.lockEnter r x n k) = (0, 3)) ∧
    (s.lockOn r k = false → res (s.lockRelease r x n k q.toNat) = (q.toNat, 8)) ∧
    (s.lockOn r k = true → s.openEntry r n k q.toNat = none → res (s.lockRelease r x n k q.toNat) = (q.toNat, 7)) ∧
    (∀ off, s.lockOn r k = true → s.openEntry r n k q.toNat = some off → relArgOk s.cores[x].relArg = true → s.lockR r k = q.toNat →
      0 < s.lockN r k → s.headHold r k = none → fld s.cores[x].relArg 1 0 = 0 → s.dpts[r].skips = [] →
      let u := s.lockRelease r x n k q.toNat
      res u = (q.toNat, 0) ∧ u.lockR r k = (q.toNat + 1) % 65536 ∧ u.lockE r k = e ∧ u.tcb r n off = 0 ∧ u.events = s.events)

/-- HELD_RELEASE_PERFORM completes wherever a hold entry holds the lock's next number and the range infrastructure runs: the entry is freed, its
action performed and the number passed, where no skip marker waits by one (R151, R153); a lock whose EN is 1 is not configured, and one
with numbers outstanding or holds is not disabled (R152). -/
def HeldReleases : Prop :=
  ∀ (s : State) (r : Fin 4) (l : BitVec 8) (v : Word), s.held = none → s.rinfOn r.val = true →
    (∀ h, s.headHold r l.toNat = some h →
      ∃ t, exec (.heldReleasePerform r l) s = .next t ∧ t.lockE r l.toNat = s.lockE r l.toNat ∧ t.mem = s.mem ∧
        (s.dpts[r].skips = [] → t.lockR r l.toNat = (s.lockR r l.toNat + 1) % 65536 ∧ h ∉ t.dpts[r].holds ∧
          (fld h.arg 1 0 = 0 → t.ctx = s.ctx ∧ t.cores = s.cores ∧ t.events = s.events) ∧
          (fld h.arg 1 0 = 1 → t.ctx = (s.post r (fld h.arg 11 2) (fld h.arg 16 12) none).ctx) ∧
          (∀ f, fld h.arg 1 0 = 2 → relChannel r (fld h.arg 11 2) = some f → t.ctx = s.ctx ∧ t.fabric = (s.ringFlume f).fabric) ∧
          (fld h.arg 1 0 = 3 → t.ctx = s.ctx ∧ t.out = (s.hostq (fld h.arg 11 2)).out))) ∧
    (s.lockOn r l.toNat = true → (s.lockN r l.toNat ≠ 0 ∨ s.holdsOf r l.toNat ≠ 0) → bit v 31 = false →
      (s.lockCfgWrite r l.toNat v).lockOn r l.toNat = true ∧ (s.lockCfgWrite r l.toNat v).regBit (dptA r 0x50) 2 = true) ∧
    (s.lockOn r l.toNat = true → bit v 31 = true → s.lockCfgWrite r l.toNat v = s) ∧
    (s.lockOn r l.toNat = false → (s.lockCfgWrite r l.toNat v).reg (lockA r l.toNat) = v &&& 0x81FFFFFF ∧
      (s.lockSeqWrite r l.toNat v).lockE r l.toNat = fld v 15 0 ∧ (s.lockSeqWrite r l.toNat v).lockR r l.toNat = fld v 15 0)

/-- The operations of the array: the command, the OP it takes, and what it does. -/
def arrayRows (r : Fin 4) : List (Instr × Nat × (State → BfaOp → Option Nat → OpOut)) :=
  [(.ulCombine r, 1, fun s op => s.ulCombine r op), (.dlPrecode r, 2, fun s op => s.dlPrecode r op), (.srsEst r, 3, fun s op => s.srsEst r op),
    (.covAcc r, 4, fun s op => s.covAcc r op), (.weightSolve r, 5, fun s op => s.weightSolve r op), (.wcopy r, 6, fun s op => s.wcopy r op),
    (.bfaPost r, 7, State.headerOnly), (.bfaNop r, 0, State.headerOnly)]

/-- The array takes the operation at the head of its queue: it runs, with the status its work came to, and its record waits for
BFA_OP_COMPLETE; an operation whose access waits stays at the head (R200, R211). -/
def ArrayTakes : Prop :=
  ∀ (s : State) (r : Fin 4) (op : BfaOp) (l : List BfaOp), s.held = none → s.bfaReady r.val = true → s.voted (56 + r.val) 6 = false →
    s.bfas[r].run = none → s.bfas[r].queue = op :: l → ∀ row ∈ arrayRows r, eOp op.entry = row.2.1 →
      let o := row.2.2 s op none
      (o.waits = none → exec row.1 s = .next (o.s.modBfa r fun b => { b with
          queue := b.queue.drop 1, busy := b.busy + o.cycles,
          run := some ⟨op, o.status, o.detail, o.flags, (s.replica (.bfa r)).setWidth 32, o.groups, o.pages, o.set⟩ })) ∧
      (o.waits ≠ none → Does row.1 s fun t => t.bfas = s.bfas ∧ t.mem = s.mem)

/-- An entry's header is checked first, by every operation: the first field that does not hold ends it PARAM with the field's offset, and
nothing else happens (R199, R200). POST and NOP do nothing but complete (R199, R207). -/
def HeaderChecks : Prop :=
  ∀ (s : State) (r : Fin 4) (op : BfaOp) (stop : Option Nat), ∀ row ∈ arrayRows r,
    let o := row.2.2 s op stop
    (∀ d, firstBad (headerChecks op.entry) = some d → o.status = 2 ∧ o.detail = d ∧ o.s = s ∧ o.waits = none) ∧
    ((row.2.1 = 0 ∨ row.2.1 = 7) → firstBad (headerChecks op.entry) = none → o.status = 0 ∧ o.s = s)

/-- The exponent of a compressed downlink PRB is the least of 0 to 15 at which no mantissa saturates, or 15; without compression it is 0 and
the samples have 16 bits (R198). -/
def DownlinkExponents : Prop :=
  ∀ (c : Cell) (z : List Cplx) (ex : Int),
    let p := dlPack c z ex
    let fits := fun e : Nat => ∀ q ∈ dlMant z ex c.mw e, q.2 = 0
    (c.comp = true → p.1 ≤ 15 ∧ p.2 = dlMant z ex c.mw p.1 ∧ (p.1 < 15 → fits p.1) ∧ ∀ e < p.1, ¬fits e) ∧
    (c.comp = false → p.1 = 0 ∧ p.2 = dlMant z ex 16 0)

/-- BFA_OP_COMPLETE: the array is free, the operation is counted, its events are raised (done where the entry asks, failed where the status is
neither OK nor ABORTED and the enable is 1), and its flag is posted where the entry asks; stated for an entry without a post on an array
that keeps no status ring. A WEIGHT_SOLVE next in the queue whose target the operation had resolved has waited for it (R200, R209, R214,
R218). -/
def ArrayCompletes : Prop :=
  ∀ (s : State) (r : Fin 4) (k : BfaRun), s.held = none → s.bfaOn r.val = true → s.bfas[r].run = some k →
    s.regFld (bfaA r 0x28) 15 0 = 0 → eOp k.op.entry ≠ 5 → eFld k.op.entry 6 1 % 2 = 0 → s.regBit (bfaA r 4) 0 = true → k.status ≠ 0x40 →
    DoesAndLands (.bfaOpComplete r) s fun t =>
      t.bfas[r].run = none ∧ (k.set = none → t.bfas[r].queue = s.bfas[r].queue) ∧
      (∀ op l, s.bfas[r].queue = op :: l → eOp op.entry = 5 → k.set = some (eFld op.entry 20 2) →
        t.bfas[r].queue = { op with waited := true } :: l) ∧ t.reg (bfaA r 0x40) = s.reg (bfaA r 0x40) + 1 ∧
      t.events = s.events ++ (if (eFld k.op.entry 6 1).testBit 1 then [(bfaEvent r 0, s.reg (routeAddr (bfaEvent r 0)))] else []) ++
        (if k.status ≠ 0 ∧ k.status ≠ 3 ∧ s.regBit (bfaA r 4) 1 = true then [(bfaEvent r 1, s.reg (routeAddr (bfaEvent r 1)))] else [])

/-- The status ring holds RING_SIZE records: with fewer in it a record is written at RING_WR, which moves on, and one more is lost, counted and
reported as event 5 (R214). -/
def StatusRing : Prop :=
  ∀ (s : State) (r : Fin 4) (op : BfaOp) (status detail flags : Nat) (start : Word),
    let n := s.regFld (bfaA r 0x28) 15 0
    let t := s.bfaRecord r op status detail flags start
    (n = 0 → t = s) ∧
    (0 < n → s.bfas[r].ringHeld < n → t.bfas[r].ringHeld = s.bfas[r].ringHeld + 1 ∧ t.reg (bfaA r 0x50) = s.reg (bfaA r 0x50) ∧
      t.reg (bfaA r 0x2C) = BitVec.ofNat 32 ((s.regFld (bfaA r 0x2C) 15 0 + 1) % n)) ∧
    (0 < n → n ≤ s.bfas[r].ringHeld → t.bfas = s.bfas ∧ t.mem = s.mem ∧ t.posted = s.posted ∧ t.reg (bfaA r 0x50) = s.reg (bfaA r 0x50) + 1 ∧
      t.events = s.events ++ [(bfaEvent r 5, s.reg (routeAddr (bfaEvent r 5)))])

/-- A WEIGHT_SOLVE with COMMIT that ended OK or DEGRADED makes its set the active set of its direction, which is no longer COLD (R206, R208);
a write of a cell's CFG or SETS, or FORCE_COLD, makes it COLD with active set 0 (R208). -/
def ActiveSets : Prop :=
  ∀ (s : State) (r : Fin 4) (k : BfaRun) (c : Fin 16) (v mask : Word), eOp k.op.entry = 5 → eFld k.op.entry 24 1 = 1 →
    (k.status = 0 ∨ k.status = 0x42) → eFld k.op.entry 5 1 = c.val → eFld k.op.entry 20 2 < 64 →
    let a := cellA r c.val 12
    (eFld k.op.entry 17 1 = 1 → (s.commitSet r k).regFld a 13 8 = eFld k.op.entry 20 2 ∧ (s.commitSet r k).regBit a 1 = false ∧
      (s.commitSet r k).regFld a 7 2 = s.regFld a 7 2) ∧
    (eFld k.op.entry 17 1 = 0 → (s.commitSet r k).regFld a 7 2 = eFld k.op.entry 20 2 ∧ (s.commitSet r k).regBit a 0 = false ∧
      (s.commitSet r k).regFld a 13 8 = s.regFld a 13 8) ∧
    (∀ off ∈ [0, 4, 8], (s.cellCfg r c.val off v mask).regBit a 0 = true ∧ (s.cellCfg r c.val off v mask).regBit a 1 = true ∧
      (s.cellCfg r c.val off v mask).regFld a 7 2 = 0 ∧ (s.cellCfg r c.val off v mask).regFld a 13 8 = 0)


/-- No two valid uplink streams of a BFA share a page of its antenna buffer. -/
def RingsApart (s : State) (r : Fin 4) : Prop :=
  ∀ i j : Nat, i < 256 → j < 256 → i ≠ j → (s.stream r i).valid = true → (s.stream r i).down = false → (s.stream r j).valid = true →
    (s.stream r j).down = false → ringsMeet (s.stream r i) (s.stream r j) = false

/-- A write of a stream entry that would share a page with another valid uplink stream, or reach beyond page 767, is refused with event 7 and
the entry stays as it was; so the streams' pages stay apart (R193). -/
def StreamWrites : Prop :=
  ∀ (s : State) (r : Fin 4) (i : Fin 256) (v : Word), RingsApart s r →
    RingsApart (s.streamWrite r i.val v) r ∧
    (∀ j < 256, j ≠ i.val → (s.streamWrite r i.val v).stream r j = s.stream r j) ∧
    ((s.streamWrite r i.val v).stream r i.val = streamOf (v &&& 0xFFFFFF) ∨
      ((s.streamWrite r i.val v).stream r i.val = s.stream r i.val ∧ (s.streamWrite r i.val v).regBit (bfaA r 0xC) 1 = true ∧
        (s.streamWrite r i.val v).events = s.events ++ [(bfaEvent r 7, s.reg (routeAddr (bfaEvent r 7)))]))

/-- HELD_PAGE_WRITE: the first held write of a page that no operation reads lands, and its PRB of the symbol is valid under the symbol's tag
(R195, R196). -/
def HeldPages : Prop :=
  ∀ (s : State) (r : Fin 4) (w : PageWrite), s.held = none → s.bfaOn r.val = true →
    s.bfas[r].held.find? (fun w => !s.pageHeld r w) = some w → w.prb < 275 → w.close = none →
    Does (.heldPageWrite r) s fun t =>
      t.bfas[r].held = s.bfas[r].held.erase w ∧ (t.page r ((s.stream r w.stream).page w.sym)).tag = BitVec.ofNat 20 w.sym ∧
      bit (t.page r ((s.stream r w.stream).page w.sym)).valid w.prb = true ∧ t.bfas[r].queue = s.bfas[r].queue

/-- The queue of operations holds 32; one more is dropped, counted and reported as event 2, and as event 1 where
that is enabled (R211, R218). START of a channel whose program is in order arms
its first entry at BASE plus its OFFSET; with entries out of order it sets the error and does not run (R210, R211). -/
def SlotPrograms : Prop :=
  ∀ (s : State) (r : Fin 4) (op : BfaOp) (h : Fin 4), op.late = false →
    (s.bfas[r].queue.length < 32 → s.bfaEnqueue r op = s.modBfa r fun b => { b with queue := b.queue ++ [op] }) ∧
    (32 ≤ s.bfas[r].queue.length → s.regFld (bfaA r 0x28) 15 0 = 0 →
      let t := s.bfaEnqueue r op
      t.bfas = s.bfas ∧ t.reg (bfaA r 0x48) = s.reg (bfaA r 0x48) + 1 ∧ t.events = s.events ++ [(bfaEvent r 2, s.reg (routeAddr (bfaEvent r 2)))] ++
        (if s.regBit (bfaA r 4) 1 = true then [(bfaEvent r 1, s.reg (routeAddr (bfaEvent r 1)))] else [])) ∧
    (s.seqRun r h.val = false → s.regBit (bfaA r 4) 0 = true →
      let t := s.seqStart r h.val
      (s.seqOk r h.val = true → t.seqRun r h.val = true ∧ t.armed (.seq r h) = true ∧
        t.target (seqA r h.val 0) = BitVec.ofNat 64 (s.reg64 (seqA r h.val 0) + s.entryOfs r (s.seqRange r h.val).1)) ∧
      (s.seqOk r h.val = false → t.seqRun r h.val = false ∧ t.regBit (seqA r h.val 0x30) 1 = true ∧ t.targets = s.targets)) ∧
    (s.seqRun r h.val = true → (s.seqStop r h.val).seqRun r h.val = false ∧ (s.seqStop r h.val).armed (.seq r h) = false)

/-- The memories of a BFA and the context store of a dispatcher, cleared after their domain was switched on, are ready (R360). -/
def ClearsDone : Prop :=
  ∀ (s : State) (r : Fin 4), s.held = none →
    (56 + r.val ∈ s.slc.clearing → Does (.bfaClearDone r) s fun t =>
      56 + r.val ∉ t.slc.clearing ∧ (∀ d, d ≠ 56 + r.val → (d ∈ t.slc.clearing ↔ d ∈ s.slc.clearing)) ∧ { t with slc := s.slc } = s) ∧
    (52 + r.val ∈ s.slc.clearing → Does (.contextStoreClearDone r) s fun t =>
      52 + r.val ∉ t.slc.clearing ∧ (∀ d, d ≠ 52 + r.val → (d ∈ t.slc.clearing ↔ d ∈ s.slc.clearing)) ∧ { t with slc := s.slc } = s)

/-- An error vector with value v in byte position j. -/
def byteError (j v : Nat) : BitVec 288 := BitVec.ofNat 288 v <<< (8 * j)

/-- A memory the device has. -/
def CwMem.real : CwMem → Prop
  | .pool n => n < 24
  | .stack i => i < 2
  | .range r m => r < 4 ∧ m < 3

/-- The data of a codeword, as a memory holds it: pool, reservoir, context store (0), antenna buffer (1) or weight memory (2) of a range. -/
def cwHeld (s : State) (m : CwMem) (cw : Nat) : List Byte := (List.range 32).map fun j => s.cwByte m (32 * cw + j)

/-- Registers of a range's memories: RSV_RMEMr_CE, and 4 further RSV_RMEMr_UE (R256). -/
def rmemA (r : Nat) : Nat := Block.rsv.base + 0x600 + 0x10 * r

/-- A codeword read, of any of the memories: a poisoned one fails; a clean one gives its bytes; one the code corrects gives its bytes; an
uncorrectable one fails and its line is poisoned (R240, R242, R243). -/
def CodewordReads : Prop :=
  ∀ (s : State) (m : CwMem) (cw : Nat), m.real →
    let q := s.readCw m cw
    (s.poisoned cw = true → q.2 = none ∧ q.1.mem = s.mem ∧ q.1.ctx = s.ctx ∧ q.1.events = s.events) ∧
    (s.poisoned cw = false → s.cwError cw = 0 → q = (s, some (cwHeld s m cw))) ∧
    (∀ fix, s.poisoned cw = false → decodeErr (s.cwError cw) = .corrected fix → fixErr (s.cwError cw) fix = 0 →
      q.2 = some (cwHeld s m cw) ∧ q.1.mem = s.mem ∧ q.1.ctx = s.ctx ∧ q.1.poisoned cw = false) ∧
    (s.poisoned cw = false → decodeErr (s.cwError cw) = .uncorrectable →
      q.2 = none ∧ q.1.poisoned (cw / 2 * 2) = true ∧ q.1.poisoned (cw / 2 * 2 + 1) = true)

/-- What a read of a codeword counts and reports: in a pool or a stack, poisoned reads, corrections, with a write back where WB_ON_READ is 1, and
uncorrectable codewords, whose event is raised where the enable is 1; in a range's memories, the context store among them, corrections and
uncorrectable codewords, whose event is raised always (R240, R242, R243, R254 to R256). -/
def CodewordCounts : Prop :=
  ∀ (s : State) (m : CwMem) (cw : Nat), m.real →
    let q := s.readCw m cw
    (∀ g, memRegs m = some g →
      (s.poisoned cw = true → q.1.reg g.prd = satAdd (s.reg g.prd) 1 ∧ q.1.regBit g.cause g.prdBit = true) ∧
      (∀ fix, s.poisoned cw = false → decodeErr (s.cwError cw) = .corrected fix → fixErr (s.cwError cw) fix = 0 →
        q.1.reg g.ce = satAdd (s.reg g.ce) 1 ∧ q.1.cwError cw = if s.regBit g.ctl 1 = true then 0 else s.cwError cw) ∧
      (s.poisoned cw = false → decodeErr (s.cwError cw) = .uncorrectable →
        q.1.reg g.ue = satAdd (s.reg g.ue) 1 ∧ q.1.regBit g.cause g.ueBit = true ∧
        q.1.events = s.events ++ (if s.regBit g.ctl 2 = true then [(g.errEvent, s.reg (routeAddr g.errEvent))] else []))) ∧
    (∀ r k, m = .range r k →
      (∀ fix, s.poisoned cw = false → decodeErr (s.cwError cw) = .corrected fix →
        q.1.reg (rmemA r) = satAdd (s.reg (rmemA r)) 1 ∧ q.1.cwError cw = s.cwError cw ∧ q.1.events = s.events) ∧
      (s.poisoned cw = false → decodeErr (s.cwError cw) = .uncorrectable →
        q.1.reg (rmemA r + 4) = satAdd (s.reg (rmemA r + 4)) 1 ∧ q.1.events = s.events ++ [(1780 + r, s.reg (routeAddr (1780 + r)))]))

/-- With no error mask armed: a codeword written whole is stored with valid code and no poison whatever it held; a part of a codeword merges into
its bytes, and fails where the codeword is poisoned or uncorrectable, whose data stays as it is; other codewords stay (R241). -/
def CodewordWrites : Prop :=
  ∀ (s : State) (m : CwMem) (cw : Nat) (w : List WByte) (first : Bool), m.real → w.length = 32 → s.prot.flips = [] →
    let q := s.writeCw m cw w first
    let part := (∃ b ∈ w, b.2 ≠ 0xFF) ∧ (∃ b ∈ w, b.2 ≠ 0)
    ((∀ b ∈ w, b.2 = 0xFF) → q.2 = false ∧ cwHeld q.1 m cw = w.map (·.1) ∧ q.1.cwError cw = 0 ∧ q.1.poisoned cw = false) ∧
    (part → s.poisoned cw = false → s.cwError cw = 0 →
      q.2 = false ∧ cwHeld q.1 m cw = (w.zip (cwHeld s m cw)).map (fun p => mergeByte p.1 p.2)) ∧
    (part → s.poisoned cw = true → q.2 = true ∧ q.1.mem = s.mem ∧ q.1.ctx = s.ctx ∧ q.1.prot = s.prot) ∧
    (part → s.poisoned cw = false → decodeErr (s.cwError cw) = .uncorrectable → q.2 = true ∧ q.1.mem = s.mem ∧ q.1.ctx = s.ctx) ∧
    (∀ a, (a < 32 * cw ∨ 32 * cw + 32 ≤ a) → q.1.byte a = s.byte a) ∧
    ∀ c, c % 65536 ≠ cw % 65536 → cwHeld q.1 m c = cwHeld s m c

/-- A byte of tile memory whose check bits fail ends a read as a bus error, counted by its core's count, with its address recorded (R235);
other reads give the bytes. -/
def TileReads : Prop :=
  ∀ (s : State) (x : Fin 192) (a n : Nat),
    ((∀ i < n, s.tileSyn (a + i) = 0) → s.tileRead x.val a n = (s, .ok (s.bytes a n))) ∧
    (∀ i < n, s.tileSyn (a + i) ≠ 0 → (∀ j < i, s.tileSyn (a + j) = 0) →
      let q := s.tileRead x.val a n
      q.2 = .busError ∧ q.1.mem = s.mem ∧ q.1.reg (memA (x.val / 8) 0x10) = BitVec.ofNat 32 (a + i) ∧
      q.1.regBit (memA (x.val / 8) 8) 0 = true ∧
      q.1.events = s.events ++ (if s.regBit (memA (x.val / 8) 4) 2 = true
        then [(1728 + 2 * (x.val / 8), s.reg (routeAddr (1728 + 2 * (x.val / 8))))] else []))


/-- SCRUB_READ: the position moves on by one line of each bank or pseudo-channel, to 0 at the end of a lap, and every codeword at the position
that it may read is left without error or poisoned (R243, R248). -/
def Scrubbing : Prop :=
  ∀ (s : State) (m : ScrubId), s.held = none → s.scrubOn m = true → (s.reg (scrubPos m).2).toNat < (scrubPos m).1 →
    Does (.scrubRead m) s fun t =>
      (t.reg (scrubPos m).2).toNat = ((s.reg (scrubPos m).2).toNat + 1) % (scrubPos m).1 ∧ t.cores = s.cores ∧
      ∀ a ∈ scrubLines m (s.reg (scrubPos m).2).toNat, (∀ n, m = .pool n → s.bankBusy n.val a = false) →
        ∀ cw ∈ [a / 32, a / 32 + 1], t.poisoned cw = true ∨ decodeErr (t.cwError cw) = .clean

/-- POOL_INIT_DONE and RSV_INIT_DONE: the bank, or the stack, reads as zeros without poison, and its status shows it (R245);
a stack that is awake no longer shows held requests, and what waits for the memory is tried again (R251). -/
def Inits : Prop :=
  ∀ s : State, s.held = none →
    (∀ (n : Fin 24) (b : Fin 16), s.ridgeOn n.val = true → s.regBit (memA n.val 0xA8) b.val = true →
      DoesAndLands (.poolInitDone n b) s fun t =>
        (∀ a, bankBase (16 * n.val + b.val) ≤ a → a < bankBase (16 * n.val + b.val) + 0x80000 →
          t.byte a = 0 ∧ t.poisoned (a / 32) = false ∧ t.cwError (a / 32) = 0) ∧
        (∀ a, ¬(bankBase (16 * n.val + b.val) ≤ a ∧ a < bankBase (16 * n.val + b.val) + 0x80000) → t.byte a = s.byte a) ∧
        t.regBit (memA n.val 0xA8) b.val = false) ∧
    (∀ i : Fin 2, s.regBit (stackA i.val + 4) 2 = false →
      DoesAndLands (.rsvInitDone i) s fun t =>
        (∀ a, i.val * 2 ^ 34 ≤ a → a < (i.val + 1) * 2 ^ 34 → t.byte a = 0 ∧ t.poisoned (a / 32) = false) ∧
        t.regBit (stackA i.val + 4) 2 = true ∧ t.regBit (stackA i.val + 4) 0 = true ∧
        (s.dom (60 + i.val) = 0 → t.regBit (stackA i.val + 4) 1 = false) ∧ t.events = s.events)

/-- STACK_WAKE and STACK_IDLE_SLEEP: a stack in self-refresh that holds requests, or may sleep no longer, serves again; an idle one that may
sleep goes to self-refresh (R251, R366). -/
def Stacks : Prop :=
  ∀ (s : State) (i : Fin 2), s.held = none →
    (s.dom (60 + i.val) = 2 → (s.regBit (stackA i.val + 4) 1 = true ∨ s.stackSleeps i.val = false) →
      DoesAndLands (.stackWake i) s fun t => t.dom (60 + i.val) = 0 ∧ t.regBit (stackA i.val + 4) 1 = false ∧ t.regBit (stackA i.val + 4) 0 = true ∧
        60 + i.val ∉ t.wakes ∧ t.mem = s.mem) ∧
    (s.dom (60 + i.val) = 0 → s.stackSleeps i.val = true → s.stackIdle i.val = true →
      Does (.stackIdleSleep i) s fun t => t.dom (60 + i.val) = 2 ∧ t.regBit (stackA i.val + 4) 0 = false ∧ t.mem = s.mem)

/-- CACHE_FILL: a line that its source gives is stored with its CRC and can be had, where no error mask is armed on its ridge; one that its source refuses
can not, and the owner's next access to it fails (R237). -/
def CacheFills : Prop :=
  ∀ (s : State) (c : CacheId) (a : Addr), s.held = none →
    let q := s.busRead (cacheReq c) (64 * (a.toNat / 64)) 64
    (∀ d, q.2 = .ok d → q.1.prot.flips = [] → Does (.cacheFill c a) s fun t =>
      t.lineBad c (a.toNat / 64) = false ∧ t.lineGone c (a.toNat / 64) = false ∧ t.mem = q.1.mem ∧
      ∃ l, t.lineOf c (a.toNat / 64) = some l ∧ l.data = d ∧ l.crc = crc16 d) ∧
    (q.2 = .err → Does (.cacheFill c a) s fun t =>
      t.lineBad c (a.toNat / 64) = false ∧ t.lineGone c (a.toNat / 64) = true ∧ t.mem = q.1.mem)

/-- The transaction a REQUEST_SEND makes. -/
def newTxn (req : Requester) (wr : Bool) (tid : BitVec 10) (a : Addr) (len : Nat) (data : List Byte) (m0 m1 : Byte) : Txn :=
  { req := req, init := req.endpoint, dest := 0, tid := tid.toNat, ty := wr.toNat, addr := a.toNat, len := if wr then data.length else len,
    data := if wr then data else [], maskFirst := m0, maskLast := m1, epoch := false, respEpoch := false, st := .waiting, late := false,
    lost := false, resp := [], err := false }

/-- REQUEST_SEND by where the address leads: to an OPEN endpoint the request is sent where its initiator has a credit and no earlier request
waits, and waits otherwise; to a FENCING or ASLEEP one it is held and the first one asks for a wake; to one that is OFF, or FENCING on the way
there, it is refused and counted, and ends as a bus error; within the requester's node it is served without a packet; an address that decodes
to nothing is a bus error and nothing is sent (R258, R265 to R267). -/
def RequestsSent : Prop :=
  ∀ (req : Requester) (wr : Bool) (tid : BitVec 10) (a : Addr) (len : Fin 257) (data : List Byte) (m0 m1 : Byte) (s : State),
    let n := if wr then data.length else len.val
    let t := newTxn req wr tid a len.val data m0 m1
    let c := Instr.requestSend req wr tid a len data m0 m1
    s.held = none → s.txnOf req.endpoint tid.toNat = none → 1 ≤ n → n ≤ 256 → a.toNat % 256 + n ≤ 256 →
      (∀ e, s.reach req a.toNat = .send e → s.niFree t.init = true → s.maySend t.init e = true →
        Does c s fun u => u.fabric.txns = s.fabric.txns ++
            [{ t with dest := e, st := .sent, epoch := s.niEpoch t.init, via := s.viaOf t.init e }] ∧
          { u with fabric := s.fabric } = s) ∧
      (∀ e, s.reach req a.toNat = .send e → (s.niFree t.init = false ∨ s.maySend t.init e = false) →
        Does c s fun u => u.fabric.txns = s.fabric.txns ++ [{ t with dest := e, st := .waiting }] ∧ { u with fabric := s.fabric } = s) ∧
      (∀ e, s.reach req a.toNat = .held e → Does c s fun u =>
        u.fabric.txns = s.fabric.txns ++ [{ t with dest := e, st := .held }] ∧ u.acc = .held ∧ e ∈ u.fabric.woken ∧
        (e ∉ s.fabric.woken → epDomain e ∈ u.wakes) ∧ (e ∈ s.fabric.woken → u.wakes = s.wakes)) ∧
      (∀ e, (s.reach req a.toNat = .off e ∨ s.reach req a.toNat = .fenced e) → (∀ f, req ≠ .flume f) → Does c s fun u =>
        u.fabric = s.fabric ∧ u.acc = .busError ∧ u.reg (leatA 0x30) = s.reg (leatA 0x30) + 1 ∧ u.mem = s.mem) ∧
      (s.reach req a.toNat = .own → s.targetBusy a.toNat = false →
        let q := if wr then s.targetWrite req a.toNat t.wbytes else s.targetRead req a.toNat n
        q.2 ≠ .held → Does c s fun u => { u with acc := q.1.acc } = q.1 ∧ (∀ d, q.2 = .ok d → u.acc = .ok d) ∧
          ((∀ d, q.2 ≠ .ok d) → u.acc = .busError)) ∧
      (s.reach req a.toNat = .fail → Does c s fun u => { u with acc := s.acc } = s ∧ u.acc = .busError)

/-- A request that waits is sent in its turn, the first of its initiator first, once a credit is free (R266). -/
def RequestsResent : Prop :=
  ∀ (req : Requester) (wr : Bool) (tid : BitVec 10) (a : Addr) (len : Fin 257) (data : List Byte) (m0 m1 : Byte) (s : State) (t : Txn) (e : Nat),
    s.held = none → s.txnOf req.endpoint tid.toNat = some t → t.st = .waiting → s.reach t.req t.where_ = .send e →
    let c := Instr.requestSend req wr tid a len data m0 m1
    let turn := s.fabric.txns.find? (fun k => decide (k.init = t.init ∧ k.st = .waiting)) = some t
    (turn → s.maySend t.init e = true → Does c s fun u =>
      u.fabric.txns = s.fabric.txns.filter (fun k => decide (k.init ≠ t.init ∨ k.tid ≠ t.tid)) ++
        [{ t with dest := e, st := .sent, epoch := s.niEpoch t.init, via := s.viaOf t.init e }] ∧ { u with fabric := s.fabric } = s) ∧
    ((¬turn ∨ s.maySend t.init e = false) → exec c s = .next s)

/-- RD and WR: the transaction whose request the packet is, is served at its target: its read data or its write take effect, and its answer
waits for its response packet; a target that holds keeps it; a malformed packet is dropped and reported, and its transaction has lost it
(R259, R260). -/
def RequestPackets : Prop :=
  ∀ (h : BitVec 128) (s : State) (t : Txn), s.held = none → ∀ p ∈ [(Instr.rdReq h, 0), (.wrReq h, 1)],
    (malformed h = false → s.arrival h p.2 = some t → s.targetBusy t.addr = false →
      let q := if p.2 = 0 then s.targetRead t.req t.addr t.len else s.targetWrite t.req t.addr t.wbytes
      q.2 ≠ .held →
      Does p.1 s fun u => u.mem = q.1.mem ∧ u.regs = q.1.regs ∧ u.acc = q.1.acc ∧
        ∀ k ∈ u.fabric.txns, k.init = t.init → k.tid = t.tid → k.st = .answered ∧ k.respEpoch = q.1.niEpoch t.dest ∧
          k.respVia = q.1.viaOf t.dest t.init ∧ (∀ d, q.2 = .ok d → k.resp = d ∧ k.err = false) ∧ ((∀ d, q.2 ≠ .ok d) → k.err = true)) ∧
    (malformed h = false → s.arrival h p.2 = some t → s.targetBusy t.addr = true → Does p.1 s fun u =>
      u.mem = s.mem ∧ u.acc = s.acc ∧ ∀ k ∈ u.fabric.txns, k.init = t.init → k.tid = t.tid → k.there = true) ∧
    (malformed h = false → s.arrival h p.2 = none → exec p.1 s = .next s) ∧
    (malformed h = true → Does p.1 s fun u => u.regBit (leatA 0xC) 3 = true ∧ u.mem = s.mem ∧
      (∀ k ∈ u.fabric.txns, k.init = endpointAt h 16 → k.tid = fld h 41 32 → k.lost = true) ∧
      u.events = s.events ++ (if s.regBit (leatA 4) 2 = true then [(1800, s.reg (routeAddr 1800))] else []))

/-- RD_DATA and WR_ACK: the transaction ends at its requester with its data, or as a bus error, and its credit returns; one that has timed out
is discarded (R265, R266). -/
def ResponsePackets : Prop :=
  ∀ (h : BitVec 128) (s : State) (t : Txn), s.held = none → malformed h = false →
    ∀ p ∈ [(Instr.rdData h, [0]), (.wrAck h, [1, 2, 3])],
    s.fabric.txns.find? (fun k => decide (k.st = .answered ∧ k.ty ∈ p.2) && !k.lost && decide (s.respHeader k = h) && s.backInOrder k &&
      s.pathClear k.respVia k.dest k.init) = some t →
    Does p.1 s fun u =>
      u.fabric.txns = s.fabric.txns.filter (fun k => decide (k.init ≠ t.init ∨ k.tid ≠ t.tid)) ∧ { u with fabric := s.fabric, acc := s.acc } = s ∧
      u.acc = (if t.late = true ∨ t.carry ≠ .access then s.acc else if t.err then .busError else .ok t.resp)

/-- RESPONSE_TIMEOUT and HOST_REQUEST_TIMEOUT: the requester sees a bus error, counted and reported; a read of host memory is answered with an
error and event 1971 (R266, R420). -/
def Timeouts : Prop :=
  ∀ (s : State) (e : Fin 38) (tid : BitVec 10) (t : Txn), s.held = none → s.txnOf e.val tid.toNat = some t →
    ((t.st = .sent ∨ t.st = .answered) → t.late = false → Does (.responseTimeout e tid) s fun u =>
      u.acc = (if t.carry = .access then .busError else s.acc) ∧ u.regBit (leatA 0xC) 4 = true ∧ u.reg (leatA 0x34) = s.reg (leatA 0x34) + 1 ∧ u.mem = s.mem ∧
      (t.lost = false → ∀ k ∈ u.fabric.txns, k.init = t.init → k.tid = t.tid → k.late = true) ∧
      (t.lost = true → ∀ k ∈ u.fabric.txns, ¬(k.init = t.init ∧ k.tid = t.tid))) ∧
    (t.st = .sent → t.ty = 0 → decodeAddr s.part t.addr = .hostWindow → Does (.hostRequestTimeout e tid) s fun u =>
      u.events = s.events ++ [(1971, s.reg (routeAddr 1971))] ∧
      ∀ k ∈ u.fabric.txns, k.init = t.init → k.tid = t.tid → k.st = .answered ∧ k.err = true)

/-- Nodes p and q are the ends of a link. -/
def linked (p q : Nat) : Prop := ∃ l : Fin 72, linkEnds l.val = (p, q) ∨ linkEnds l.val = (q, p)

/-- Paths: from node to node over links, from source to destination. By dimension order, first in X and then in Y, the shorter way round each
ring and + at a distance of 3, on VC1 from the dateline of a ring on and on VC0 before it; by source routing over no wrap link, in X and then
Y with ORDER 0, in Y and then X with ORDER 1, on the VC of the ORDER (R261, R262). -/
def Paths : Prop :=
  ∀ (a b : Fin 36) (yx : Bool),
    (∀ via ∈ [none, some yx], (routePath via a b).head? = some a.val ∧ (routePath via a b).getLast? = some b.val ∧
      (∀ p ∈ (routePath via a b).zip (routePath via a b).tail, linked p.1 p.2) ∧
      (routePath via a b).length ≤ (if via = none then 7 else 11)) ∧
    (∀ p ∈ (routePath (some yx) a b).zip (routePath (some yx) a b).tail,
      (p.2 = p.1 + 1 ∨ p.1 = p.2 + 1) ∧ p.1 / 6 = p.2 / 6 ∨ p.2 = p.1 + 6 ∨ p.1 = p.2 + 6) ∧
    6 * (if yx then b.val / 6 else a.val / 6) + (if yx then a.val % 6 else b.val % 6) ∈ routePath (some yx) a b ∧
    6 * (a.val / 6) + b.val % 6 ∈ routePath none a b ∧
    routeVcs (some yx) a b = List.replicate ((routePath (some yx) a b).length - 1) yx ∧
    (let ring (p q : Nat) : List Bool :=
      let d := (q + 6 - p) % 6
      if d ≤ 3 then (List.range d).map fun i => decide (6 ≤ p + i + 1) else (List.range (6 - d)).map fun i => decide (p ≤ i)
     routeVcs none a b = ring (a.val % 6) (b.val % 6) ++ ring (a.val / 6) (b.val / 6))

/-- A link that is DOWN holds what is routed over it: a request or response packet whose path leads over one is not delivered (R275). -/
def DownLinksHold : Prop :=
  ∀ (h : BitVec 128) (s : State), s.held = none → malformed h = false →
    (∀ p ∈ [(Instr.rdReq h, 0), (.wrReq h, 1)],
      (∀ t ∈ s.fabric.txns, t.st = .sent → t.ty = p.2 → s.reqHeader t = h →
        t.there = false ∧ ∃ l ∈ routeLinks t.via t.init t.dest, s.regFld (linkA l) 1 0 = 2) → exec p.1 s = .next s) ∧
    (∀ p ∈ [(Instr.rdData h, [0]), (.wrAck h, [1, 2, 3])],
      (∀ t ∈ s.fabric.txns, t.st = .answered → t.ty ∈ p.2 → s.respHeader t = h →
        ∃ l ∈ routeLinks t.respVia t.dest t.init, s.regFld (linkA l) 1 0 = 2) → exec p.1 s = .next s)

/-- Endpoints: a fence closes an OPEN endpoint to new requests; with nothing outstanding it becomes ASLEEP, or OFF where its domain goes off,
with event 1802 where the enable is 1; a reopen makes an ASLEEP or OFF endpoint OPEN, and one asked for during a fence follows it (R267, R269). -/
def Endpoints : Prop :=
  ∀ (s : State) (e : Fin 38), s.held = none →
    (∀ t, s.fencing e.val = some t → s.epState e.val = 0 → DoesAndLands (.endpointFence e) s fun u =>
      u.epState e.val = 1 ∧ u.regBit (epA e.val) 2 = decide (t.target = 4) ∧ ∀ k : Fin 38, k ≠ e → u.epState k.val = s.epState k.val) ∧
    (s.epState e.val = 1 → s.outstanding e.val = 0 → e.val ∉ s.fabric.reopen → DoesAndLands (.fenceComplete e) s fun u =>
      u.epState e.val = (if s.regBit (epA e.val) 2 = true then 3 else 2) ∧ ∀ k : Fin 38, k ≠ e → u.epState k.val = s.epState k.val) ∧
    (s.epState e.val = 1 → s.outstanding e.val = 0 → e.val ∈ s.fabric.reopen → DoesAndLands (.fenceComplete e) s fun u =>
      u.epState e.val = 0 ∧ e.val ∉ u.fabric.reopen) ∧
    (e.val < 36 → (let d := (ridgeOfNode e.val).getD (epDomain e.val); (s.exitReady d = true ∨ s.dom d = 0) ∧ s.txn d = none) →
      ((s.epState e.val = 2 ∨ s.epState e.val = 3) → DoesAndLands (.endpointReopen e) s fun u =>
        u.epState e.val = 0 ∧ (∀ t ∈ u.fabric.txns, t.dest = e.val → t.st ≠ .held) ∧ e.val ∉ u.fabric.woken ∧
        ∀ k : Fin 38, k ≠ e → u.epState k.val = s.epState k.val) ∧
      (s.epState e.val = 1 → DoesAndLands (.endpointReopen e) s fun u =>
        u.epState e.val = 1 ∧ e.val ∈ u.fabric.reopen ∧ { u with fabric := s.fabric } = s))

/-- No write of a grant or an override leaves a destination with more credits granted than it has slots; one that would is refused with event
1801 (R265). -/
def Grants : Prop :=
  ∀ (s : State) (k : Fin 102) (v mask : Word), s.grantsOk = true →
    let a := if k.val < 38 then leatA (0x200 + 4 * k.val) else leatA (0x300 + 4 * (k.val - 38))
    let u := s.grantWrite a v mask
    u.grantsOk = true ∧
    ((s.setReg a ((s.reg a &&& ~~~mask) ||| (v &&& mask))).grantsOk = true → u.reg a = (s.reg a &&& ~~~mask) ||| (v &&& mask)) ∧
    ((s.setReg a ((s.reg a &&& ~~~mask) ||| (v &&& mask))).grantsOk = false →
      u.reg a = s.reg a ∧ u.regBit (leatA 0xC) 2 = true ∧ u.events = s.events ++ [(1801, s.reg (routeAddr 1801))])

/-- Plans and flips: the check of a plan makes it VALID or is reported; a flip in which every live NI has confirmed and no packet of the old
epoch remains completes: the epoch changes, the new routing is in use, the flip is counted and event 1792 raised (R270 to R272). -/
def PlansAndFlips : Prop :=
  ∀ (s : State) (p : Fin 7) (f : Flip) (e : Fin 38) (pause : Word) (r : Fin 4), s.held = none →
    (s.regBit (leatA (0x400 + 4 * p.val)) 9 = true → Does (.planCheckEnd p) s fun u =>
      u.regBit (leatA (0x400 + 4 * p.val)) 9 = false ∧
      ((s.setRegBit (leatA (0x400 + 4 * p.val)) 9 false).planOk p.val = true → u.planValid p.val = true ∧ u.events = s.events) ∧
      ((s.setRegBit (leatA (0x400 + 4 * p.val)) 9 false).planOk p.val = false → u.planValid p.val = s.planValid p.val ∧
        u.regBit (leatA 0xC) 0 = true ∧ u.events = s.events ++ [(1793, s.reg (routeAddr 1793))])) ∧
    (∀ x, s.fabric.flip = none → s.txn (48 + r.val) = none → s.slc.up.any (fun k => decide (k.1 = 48 + r.val)) = true →
      s.coveredRanges.testBit r.val = false → (rangeNodes r.val).all (fun n => !s.routerClosed n) = true →
      s.flipPlan (s.rangesOn + 2 ^ r.val) = x → Does (.flipRequest r) s fun u =>
        (∀ k, x = some k → u.fabric.flip = some ⟨BitVec.ofNat 4 (s.rangesOn + 2 ^ r.val), k, false, []⟩ ∧ u.regBit (leatA 8) 2 = true) ∧
        (x = none → u.fabric = s.fabric ∧ u.regBit (leatA 0xC) 1 = true ∧ u.events = s.events ++ [(1793, s.reg (routeAddr 1793))])) ∧
    (s.fabric.flip = some f → f.signalled = false → Does .flipSignal s fun u =>
      u.fabric.flip = some { f with signalled := true } ∧ u.paused = decide (f.plan.isSome ≠ s.curPlan.isSome)) ∧
    (s.fabric.flip = some f → f.signalled = true → e.val ∈ s.liveEndpoints → e.val ∉ f.confirmed → Does (.niFlipConfirm e) s fun u =>
      u.niEpoch e.val = !s.epoch ∧ u.niPlan e.val = f.plan ∧ ∀ k : Fin 38, k ≠ e → u.niEpoch k.val = s.niEpoch k.val) ∧
    (s.fabric.flip = some f → f.signalled = true → (∀ k ∈ s.liveEndpoints, k ∈ f.confirmed) → s.oldEpoch = false →
      (∀ k, f.plan = some k → k < 8) → DoesAndLands (.flipComplete pause) s fun u =>
        u.fabric.flip = none ∧ u.epoch = !s.epoch ∧ u.curPlan = f.plan ∧ u.paused = false ∧
        u.reg (leatA 0x20) = s.reg (leatA 0x20) + 1 ∧ u.events = s.events ++ [(1792, s.reg (routeAddr 1792))])

/-- Routers and links: a router outside the routing with no traffic closes, and opens once its links have trained, with events 1794 and 1795;
a replay that succeeds is counted and ends a row of failures; the eighth that fails in a row puts the link DOWN with event 1799 (R273, R275). -/
def RoutersAndLinks : Prop :=
  ∀ (s : State) (n : Fin 36) (l : Fin 72) (failed : Bool), s.held = none →
    (s.routerClosed n.val = false → s.fabric.flip = none →
      (∀ t ∈ s.fabric.txns, epNode t.init ≠ n.val ∧ epNode t.dest ≠ n.val) → inRanges s.coveredRanges n.val = false → s.epState n.val = 3 →
      Does (.routerClose n) s fun u => u.routerClosed n.val = true ∧ u.events = s.events ++ [(1794, s.reg (routeAddr 1794))]) ∧
    (n.val ∈ s.fabric.training → Does (.linkTrainingDone n) s fun u =>
      u.routerClosed n.val = !s.hasRange (epRange n.val) ∧ n.val ∉ u.fabric.training ∧ u.events = s.events ++ [(1795, s.reg (routeAddr 1795))]) ∧
    (s.linkState l.val = 0 → failed = false → s.regFld (leatA 0x18) 15 0 = 0 → Does (.linkReplay l failed) s fun u =>
      u.linkState l.val = 0 ∧ u.regFld (linkA l.val) 23 8 = min 65535 (s.regFld (linkA l.val) 23 8 + 1) ∧
      sget (fun _ => 0) u.fabric.fails l.val = 0 ∧ u.events = s.events) ∧
    (s.linkState l.val = 0 → failed = true → sget (fun _ => 0) s.fabric.fails l.val + 1 = 8 → s.regFld (leatA 0x18) 15 0 = 0 →
      (s.linkReplay l.val failed).1.regFld (linkA l.val) 1 0 = 2 ∧ (s.linkReplay l.val failed).2 = true ∧
      (s.linkReplay l.val failed).1.events = s.events ++ [(1799, s.reg (routeAddr 1799))] ∧
      exec (.linkReplay l failed) s = .next (s.linkReplay l.val failed).1.toSafe)

/-- DESCRIPTOR_FETCH: a channel in FETCH reads the descriptor at FLM_HEAD and clears DB_PENDING; a read that fails is a failed fetch (R282). -/
def DescriptorFetches : Prop :=
  ∀ (s : State) (f : FlumeId), s.held = none → s.flumeMayWork f = true → s.chState f = 3 → (s.chan f).fetch = none →
    let q := s.busRead (.flume f) (s.descAddr f) s.descSize
    (∀ d, q.2 = .ok d → Does (.descriptorFetch f) s fun t =>
      (t.chan f).fetch = some (some d) ∧ (t.chan f).ringDest = s.sentTo f (s.descAddr f) ∧ t.regBit (f.base + 4) 4 = false ∧ t.mem = q.1.mem) ∧
    ((q.2 = .err ∨ ∃ e, q.2 = .fenced e ∨ q.2 = .off e) → Does (.descriptorFetch f) s fun t => (t.chan f).fetch = some none ∧ t.regBit (f.base + 4) 4 = false ∧ t.mem = q.1.mem)

/-- DESCRIPTOR_RETURN: a descriptor with OWN = 1 and valid fields is in hand, and moves at once, waits for its time, or for its request line;
one with OWN = 0 leaves the channel IDLE, or fetching again where a doorbell has come meanwhile; one with invalid fields ends with status 3; a
failed fetch halts the channel with its event; a channel being stopped is DISABLED (R279, R282, R284, R292, R293, R297). -/
def DescriptorReturns : Prop :=
  ∀ (s : State) (f : FlumeId) (d : List Byte), s.held = none → s.flumeOn f = true → s.regBit f.base 2 = false →
    let x := descOf d
    ((s.chan f).fetch = some (some d) → (s.chan f).stopping = false →
      (bit x.ctl 0 = true → descOk d = true → Does (.descriptorReturn f) s fun t =>
        (t.chan f).desc = some x ∧ (t.chan f).fetch = none ∧ (t.chan f).moved = 0 ∧ (t.chan f).bursts = [] ∧
        (x.trig = 0 → t.chState f = if x.count = 0 then 7 else 6) ∧
        (x.trig = 1 → t.chState f = 4 ∧ t.armed (.flume f) = true ∧ t.target (f.base + 0x40) = x.start) ∧
        (x.trig = 2 → t.chState f = 5)) ∧
      (bit x.ctl 0 = true → descOk d = false → Does (.descriptorReturn f) s fun t => t.chState f = 7 ∧ (t.chan f).status = 3) ∧
      (bit x.ctl 0 = false → Does (.descriptorReturn f) s fun t =>
        t.chState f = (if s.regBit (f.base + 4) 4 = true then 3 else 1) ∧ (t.chan f).fetch = none)) ∧
    ((s.chan f).fetch = some none → (s.chan f).stopping = false → Does (.descriptorReturn f) s fun t =>
      t.chState f = 9 ∧ t.regBit (f.base + 8) 3 = true ∧ t.events = s.events ++ [(flumeEvent f, s.reg (routeAddr (flumeEvent f)))]) ∧
    ((s.chan f).fetch ≠ none → (s.chan f).stopping = true → Does (.descriptorReturn f) s fun t =>
      t.chState f = 0 ∧ t.flumeDrained f = true ∧ (t.chan f).fetch = none)

/-- A write burst has at most 256 bytes, at least one while bytes remain, never more than remain, and lies in one 256-byte block of its
destination unless that is fixed (R285, R286). -/
def BurstLengths : Prop :=
  ∀ (s : State) (f : FlumeId) (x : Desc) (n : Nat), n < x.count →
    0 < s.burstLen f x n ∧ s.burstLen f x n ≤ 256 ∧ n + s.burstLen f x n ≤ x.count ∧
    (x.dstFixed = false → (x.dst + n) % 256 + s.burstLen f x n ≤ 256) ∧
    (x.trig = 2 → s.burstLen f x n ≤ 32 * 2 ^ s.regFld f.base 9 8)

/-- The reads of a burst go on from the bytes that earlier reads left over, to the end of a 256-byte block of the source or of the transfer: no
source block is read twice (R285). -/
def BurstReads : Prop :=
  ∀ (s : State) (f : FlumeId) (x : Desc) (p : Nat × Nat), let c := s.chan f
    c.started < x.count →
    (s.burstFrom f x = none ↔ s.burstLen f x c.started ≤ c.funnel.length) ∧
    (s.burstFrom f x = some p → 0 < p.2 ∧ s.burstLen f x c.started ≤ c.funnel.length + p.2 ∧
      (x.srcFixed = false → p.1 = x.src + c.started + c.funnel.length ∧
        (x.trig ≠ 2 → (p.1 + p.2) % 256 = 0 ∨ p.1 + p.2 = x.src + x.count)) ∧
      (x.srcFixed = true → p.1 = x.src + c.funnel.length))

/-- An engine serves one of its channels: none of PRIO 0 before one of PRIO 1, and those of one group in turn, from the one after the last
served on (R289). -/
def BurstTurns : Prop :=
  ∀ (s : State) (f g : FlumeId), s.flumeServes f = true → s.burstHeld f = false → g ∈ flumePeers f → s.burstReady g = true →
    s.burstHeld g = false →
    (s.regBit g.base 4 = true → s.regBit f.base 4 = true) ∧
    (s.regBit g.base 4 = s.regBit f.base 4 →
      let last := sget (fun _ => 0) s.flumeTurn (s.flumeGroup f)
      let place (k : FlumeId) : Nat := if last ≤ k.index then k.index else k.index + 1024
      place f ≤ place g)

/-- A burst whose write is sent is in flight; an error of the write is kept for its acknowledgement. -/
def inFlight (dest : Option Nat) (err : Nat) (b : Burst) : Burst :=
  if b.wait.isSome then { b with wait := none, err := err, dest := dest } else b

/-- BURST_START and BURST_ACK: a channel served by its engine reads what the burst needs and sends its write; a failed read ends the descriptor
with SRC_ERROR; a write that waited is sent in its turn; a transfer of no bytes ends. The acknowledgement of a burst counts its bytes, the last
one takes the channel to WRITEBACK, and one of a failed write ends the descriptor (R284 to R291). -/
def Bursts : Prop :=
  ∀ (s : State) (f : FlumeId) (x : Desc), s.held = none → (s.chan f).desc = some x →
    (s.burstReady f = true → s.flumeServes f = true → s.burstHeld f = false →
      let r := { s with flumeTurn := sset (fun _ => 0) s.flumeTurn (s.flumeGroup f) (f.index + 1) }
      (s.unsent f = none → 0 < x.count →
        let z := r.setChState f 6
        let q := match z.burstFrom f x with
          | none => (z, Res.ok [])
          | some p => z.busRead (.flume f) p.1 p.2
        (∀ d l err, q.2 = .ok d →
          let n := q.1.burstLen f x (q.1.chan f).started
          let b := burstTo x (q.1.chan f).started
          let all := (q.1.chan f).funnel ++ d
          let v := q.1.modChan f fun c => { c with
            started := c.started + n, funnel := all.drop n, bursts := c.bursts ++ [{ bytes := n, err := 0, wait := some (b, all.take n) }] }
          let w := v.busWrite (.flume f) b (wholeBytes (all.take n))
          v.unsent f = some (b, all.take n) → (w.2 = .ok l ∧ err = 0 ∨ w.2 = .err ∧ err = 2) → Does (.burstStart f) s fun t =>
            t.mem = w.1.mem ∧ (t.chan f).started = (w.1.chan f).started ∧
            (t.chan f).bursts = (w.1.chan f).bursts.map (inFlight (v.sentTo f b) err)) ∧
        (q.2 = .err → (q.1.chan f).status = 0 → Does (.burstStart f) s fun t =>
          t.mem = q.1.mem ∧ (t.chan f).status = 1 ∧ t.chState f = 7)) ∧
      (s.unsent f = none → x.count = 0 → Does (.burstStart f) s fun t => t.chState f = 7 ∧ t.mem = s.mem) ∧
      (∀ b d l, s.unsent f = some (b, d) → let w := r.busWrite (.flume f) b (wholeBytes d)
        w.2 = .ok l → Does (.burstStart f) s fun t => t.mem = w.1.mem ∧ (t.chan f).started = (w.1.chan f).started ∧
          (t.chan f).bursts = (w.1.chan f).bursts.map (inFlight (r.sentTo f b) 0))) ∧
    (∀ b bs, s.flumeOn f = true → (s.chan f).bursts = b :: bs → b.wait = none → b.err = 0 → Does (.burstAck f) s fun t =>
      (t.chan f).moved = (s.chan f).moved + b.bytes ∧ (t.chan f).bursts = bs ∧ t.mem = s.mem ∧
      t.chState f = (if bs = [] ∧ x.count ≤ (s.chan f).started ∧ (s.chState f = 6 ∨ s.chState f = 5) then 7 else s.chState f)) ∧
    (∀ b bs, s.flumeOn f = true → (s.chan f).bursts = b :: bs → b.wait = none → b.err ≠ 0 → (s.chan f).status = 0 →
      Does (.burstAck f) s fun t => (t.chan f).moved = (s.chan f).moved ∧ (t.chan f).status = b.err ∧ t.chState f = 7)

/-- WRITEBACK and WRITEBACK_ACK: the descriptor is written back with OWN 0, its status and the bytes that were not moved; acknowledged, FLM_HEAD
goes on to the next entry of the ring and the channel to FETCH or GATE_WAIT, or halts where the status asks for it; a write-back that fails
halts the channel with its event (R290 to R292). -/
def Writebacks : Prop :=
  ∀ (s : State) (f : FlumeId) (x : Desc), s.held = none → s.flumeOn f = true → (s.chan f).desc = some x →
    (∀ l, s.chState f = 7 → (s.chan f).bursts = [] → (s.chan f).wb = none →
      let w := s.wbBytes f x
      (s.busWrite (.flume f) w.1 (wholeBytes w.2)).2 = .ok l → Does (.writeback f) s fun t =>
        (t.chan f).wb = some false ∧ (t.chan f).ringDest = s.sentTo f w.1 ∧ t.mem = (s.busWrite (.flume f) w.1 (wholeBytes w.2)).1.mem) ∧
    (s.chState f = 7 → (s.chan f).bursts = [] → (s.chan f).wb = none →
      let w := s.wbBytes f x
      let q := s.busWrite (.flume f) w.1 (wholeBytes w.2)
      (q.2 = .err ∨ ∃ e, q.2 = .fenced e ∨ q.2 = .off e) → Does (.writeback f) s fun t => (t.chan f).wb = some true ∧ t.mem = q.1.mem) ∧
    (s.compat = false → ofBytes ((s.wbBytes f x).2.drop 4) = (x.count - (s.chan f).moved) % 2 ^ 32 ∧ (s.wbBytes f x).1 = s.descAddr f + 16 ∧
      (ofBytes ((s.wbBytes f x).2.take 4)) % 2 = 0) ∧
    ((s.chan f).wb = some false → (s.chan f).stopping = false → (s.chan f).status = 0 → 0 < s.regFld (f.base + 0x18) 15 0 →
      Does (.writebackAck f) s fun t =>
        (t.reg (f.base + 0x1C)).toNat = (s.regFld (f.base + 0x1C) 15 0 + 1) % s.regFld (f.base + 0x18) 15 0 ∧
        t.reg (f.base + 0x30) = s.reg (f.base + 0x30) + 1 ∧ (t.chan f).desc = none ∧ (t.chState f = 3 ∨ t.chState f = 2) ∧
        t.events = s.events ++ (if bit x.ctl 1 = true then [(flumeEvent f, s.reg (routeAddr (flumeEvent f)))] else [])) ∧
    ((s.chan f).wb = some true → (s.chan f).stopping = false → Does (.writebackAck f) s fun t =>
      t.chState f = 9 ∧ t.regBit (f.base + 8) 4 = true ∧ t.reg (f.base + 0x1C) = s.reg (f.base + 0x1C))

/-- Event i of lane l where its enable bit is 1, as a list of sources. -/
def laneEv (s : State) (l : Fin 96) (i : Nat) : List Nat := if s.regBit (lnA l 0x3C) i = true then [896 + 4 * l.val + i] else []

/-- Signal detect, CDR lock, adaptation and PRBS lock of a lane set and clear their bits of LN_STATUS, LN_ERR and LN_PRBS_STAT, with the event of
the condition where it is enabled, and change nothing else (R310, R312, R314, R315, R318). -/
def LaneStatusBits : Prop :=
  ∀ (l : Fin 96) (s : State), s.held = none → s.hasLane l = true →
    (s.lnState l < 2 → s.lnStatus l 0 = false → Does (.sigDetRise l) s fun t =>
      t.lnStatus l 0 = true ∧ OnlyRegs s t [lnA l 8] (laneEv s l 0)) ∧
    (s.lnState l = 0 → s.lnStatus l 0 = true → s.lnStatus l 1 = false → Does (.cdrLockGained l) s fun t =>
      t.lnStatus l 1 = true ∧ OnlyRegs s t [lnA l 8] (laneEv s l 0)) ∧
    (s.lnStatus l 0 = true → s.lnStatus l 4 = false → Does (.adaptFail l) s fun t =>
      t.regBit (lnA l 0xC) 6 = true ∧ OnlyRegs s t [lnA l 0xC] (laneEv s l 3)) ∧
    (s.regBit (lnA l 0x30) 5 = true → Does (.prbsLock l) s fun t => t.regBit (lnA l 0x34) 0 = true ∧ OnlyRegs s t [lnA l 0x34] []) ∧
    (s.regBit (lnA l 0x34) 0 = true → Does (.prbsLockLost l) s fun t =>
      t.regBit (lnA l 0x34) 0 = false ∧ t.regBit (lnA l 0x34) 1 = true ∧ OnlyRegs s t [lnA l 0x34] (laneEv s l 2)) ∧
    (s.regBit (lnA l 0x34) 0 = true → Does (.prbsBitError l) s fun t =>
      (t.reg (lnA l 0x38)).toNat = min 0xFFFFFFFF ((s.reg (lnA l 0x38)).toNat + 1) ∧
      OnlyRegs s t [lnA l 0x38] (if s.reg (lnA l 0x38) = 0xFFFFFFFE then laneEv s l 2 else []))

/-- Initial adaptation that completes sets ADAPTED, and with ADAPT CONTINUOUS shows the values found (R310). -/
def Adaptation : Prop :=
  ∀ (l : Fin 96) (v0 v1 : Word) (s : State), s.held = none → s.hasLane l = true → s.lnState l = 0 → s.lnStatus l 0 = true →
    s.lnStatus l 4 = false → Does (.adaptDone l v0 v1) s fun t =>
      t.lnStatus l 4 = true ∧ t.lanes[l].adapting = false ∧
      t.reg (lnA l 0x18) = (if s.regFld (lnA l 0x14) 1 0 = 0 then v0 &&& 0x3F3F0F else s.reg (lnA l 0x18)) ∧
      t.reg (lnA l 0x1C) = (if s.regFld (lnA l 0x14) 1 0 = 0 then v1 &&& 0x3F3F3F else s.reg (lnA l 0x1C)) ∧ t.events = s.events

/-- What the loss of a lane's receiver leaves: no CDR lock, no alignment and no block lock; a trunk lane hunts, and no Ethernet port on
the lane is UP. -/
def ReceiverLost (s t : State) (l : Fin 96) : Prop :=
  t.lnStatus l 1 = false ∧ t.lnStatus l 2 = false ∧ t.lnStatus l 3 = false ∧ t.fState (laneHub l) (l.val % 24) = 0 ∧
    ∀ p : Fin 24, l.val % 24 ∈ s.userLanes (laneHub l) (.eth p.val) → t.portUp (laneHub l) p.val = false

/-- The loss of signal or of CDR lock loses the receiver; the former sets LOS, at the lane and at a CPRI link on it (R306, R312, R321, R334,
R337). -/
def LaneLosses : Prop :=
  ∀ (l : Fin 96) (s : State), s.held = none → s.hasLane l = true →
    (s.lnState l < 2 → s.lnStatus l 0 = true → Does (.sigDetFall l) s fun t =>
      ReceiverLost s t l ∧ t.lnStatus l 0 = false ∧ t.regBit (lnA l 0xC) 3 = true ∧
      ((s.lnStatus l 2 = true ∨ s.lnStatus l 3 = true) → t.regBit (lnA l 0xC) 4 = true) ∧
      ∀ k : Fin 12, s.regBit (cpriA (laneHub l) k.val 0) 0 = true → s.cpriLane (laneHub l) k.val = l.val % 24 →
        t.regBit (cpriA (laneHub l) k.val 4) 1 = true) ∧
    (s.lnStatus l 1 = true → Does (.cdrLockLost l) s fun t => ReceiverLost s t l ∧ t.lnStatus l 0 = s.lnStatus l 0)

/-- The loss of lock of a quad's PLL, or of its reference, clears PLL_LOCK of the ACTIVE and QUIET lanes that use it, which send no more, sets
their UNLOCK and loses their receivers; the lock's return sets PLL_LOCK again (R304). -/
def QuadPlls : Prop :=
  ∀ (q : Fin 24) (cpri absent : Bool) (s : State), s.held = none → s.hasRange (q.val / 6) = true →
    let lock := if cpri then 3 else 1
    ((s.regBit (quadA q.val 4) lock = true ∨ absent = true) → Does (.quadPllUnlock q ⟨cpri, absent⟩) s fun t =>
      t.regBit (quadA q.val 4) lock = false ∧ (absent = true → pllRef q.val cpri ∈ t.refLost) ∧
      (s.regBit (quadA q.val 4) lock = true → ∀ l : Fin 96, quadOf l = q.val → s.usesPll l cpri = true → s.lnState l < 2 →
        t.lnStatus l 5 = false ∧ t.lnStatus l 1 = false ∧ t.regBit (lnA l 0xC) 5 = true ∧ t.laneSends l = false)) ∧
    (s.regBit (quadA q.val 4) (lock - 1) = true → s.regBit (quadA q.val 4) lock = false → Does (.quadPllRelock q cpri) s fun t =>
      t.regBit (quadA q.val 4) lock = true ∧ pllRef q.val cpri ∉ t.refLost ∧ t.events = s.events ∧
      ∀ l : Fin 96, t.lnStatus l 5 = (s.lnStatus l 5 || decide (quadOf l = q.val ∧ s.usesPll l cpri = true ∧ s.lnState l < 2)))

/-- Symbols of an 8b/10b lane, RX_INV undone: a comma alone in an unaligned lane's window fixes the candidate position and the running disparity,
and ALIGN_CNT commas align it, with a valid latency; an aligned lane delivers its symbols, and LOSS_CNT invalid ones lose the alignment; the
invalid ones are counted (R305, R306, R308). -/
def SymbolAlignment : Prop :=
  ∀ (l : Fin 96) (x : BitVec 10) (s : State), s.held = none → s.hasLane l = true → rate8b10b (s.lnRate l) = true → s.lnState l = 0 →
    s.lnStatus l 1 = true →
    let a := s.lanes[l]
    let x' := if s.regBit (lnA l 0) 5 then ~~~x else x
    let w := a.win.toNat + 1024 * x'.toNat
    let commas := (List.range 10).filter fun p => isComma (bitsAt w p 7)
    let q := receive10 (bitsAt w a.pos 10) a.rdPos
    let errs := (s.reg (lnA l 0x24)).toNat
    Does (.symbolReceive l x) s (fun t => t.lanes[l].win = x' ∧
      (t.reg (lnA l 0x24)).toNat = (if a.al ≠ .unaligned ∧ q.bad = true then min 0xFFFFFFFF (errs + 1) else errs)) ∧
    (∀ p, a.al = .unaligned → commas = [p] → Does (.symbolReceive l x) s fun t =>
      t.lanes[l].pos = p ∧ t.lanes[l].al = (if s.alignCnt l ≤ 1 then .aligned else .candidate) ∧
      t.lanes[l].rdPos = (receive10 (bitsAt w p 10) a.rdPos).rdPos ∧
      (s.alignCnt l ≤ 1 → t.lnStatus l 2 = true ∧ t.regBit (lnA l 0x2C) 31 = true)) ∧
    (a.al = .candidate → commas = [a.pos] → q.bad = false → a.n + 1 = s.alignCnt l →
      Does (.symbolReceive l x) s fun t => t.lanes[l].al = .aligned ∧ t.lnStatus l 2 = true ∧ t.regBit (lnA l 0x2C) 31 = true) ∧
    (a.al = .aligned → q.bad = false → Does (.symbolReceive l x) s fun t =>
      t.lanes[l].got = some (q.sym, false) ∧ t.lanes[l].rdPos = q.rdPos ∧ t.lanes[l].al = .aligned) ∧
    (a.al = .aligned → s.lnStatus l 2 = true → commas = [] → q.bad = true → s.lossCnt l ≤ a.e + 1 →
      Does (.symbolReceive l x) s fun t => t.lanes[l].al = .unaligned ∧ t.lnStatus l 2 = false ∧ t.regBit (lnA l 0xC) 4 = true ∧
        t.regBit (lnA l 0x2C) 31 = false ∧ t.fState (laneHub l) (l.val % 24) = 0)

/-- What a lane sends for a framing's symbols: nothing, in electrical idle or near-end loopback; as many bits of the chosen PRBS as the symbols
take, each the sum of those that its polynomial names, where the generator is on; else their 8b/10b code groups (R304, R305, R313). -/
def LaneSending : Prop :=
  ∀ (l : Fin 96) (x : List (BitVec 9)) (s : State),
    let t := s.laneSend l x
    let taps := prbsTaps (s.regFld (lnA l 0x30) 1 0)
    t.regs = s.regs ∧ t.events = s.events ∧
    ((s.lnState l ≠ 0 ∨ s.lnStatus l 5 = false ∨ s.regFld (lnA l 0) 7 6 = 1) → t = s) ∧
    (s.laneSends l = true → s.regBit (lnA l 0x30) 4 = true → ∃ b, t.out = s.out ++ [.prbs (l.val / 24) (l.val % 24) b] ∧
      b.length = 10 * x.length ∧
      ∀ i, taps.1 ≤ i → i < b.length → let bit (k : Nat) := xor (s.prbsInv l) (b.getD k false)
        bit i = xor (bit (i - taps.1)) (bit (i - taps.2))) ∧
    (s.framingSends l = true → ∃ g, t.out = s.out ++ [.symbols (l.val / 24) (l.val % 24) g] ∧ g.length = x.length ∧
      g = (encodeSyms (s.regBit (lnA l 0) 4) s.lanes[l].txPos x).1)

/-- The 8b/10b code: what is sent for a data byte or a special code decodes at the same running disparity to it, and leaves the same disparity; no
code group is off balance by more than two (R305). -/
def CodeGroups : Prop :=
  ∀ (b : BitVec 8) (rd : Bool), ∀ k ∈ false :: (if kCodes.any (fun p => decide (p.1 = b.toNat)) then [true] else []),
    let c := encodeSym (b.setWidth 9 ||| (if k then 0x100 else 0)) rd
    receive10 c.1 rd = ⟨some (k, b.toNat), false, false, c.2⟩ ∧ (ones 10 c.1 = 5 ∧ c.2 = rd ∨ ones 10 c.1 = (if rd then 4 else 6) ∧ c.2 = !rd)

/-- Sync headers of a 64b/66b lane: 64 valid ones in a row give block lock, 16 invalid ones within 64 lose it; an invalid one is
counted (R307). -/
def BlockLock : Prop :=
  ∀ (l : Fin 96) (x : BitVec 2) (s : State), s.held = none → s.hasLane l = true → s.lnRate l = 1 → s.lnState l = 0 → s.lnStatus l 1 = true →
    let a := s.lanes[l]
    Does (.blockReceive l x) s (fun t =>
      (t.reg (lnA l 0x24)).toNat = (if x = 1 ∨ x = 2 then (s.reg (lnA l 0x24)).toNat else min 0xFFFFFFFF ((s.reg (lnA l 0x24)).toNat + 1))) ∧
    ((x = 1 ∨ x = 2) → a.hdrs = 63 → a.hdrBad = 0 → s.lnStatus l 3 = false → Does (.blockReceive l x) s fun t =>
      t.lnStatus l 3 = true ∧ t.regBit (lnA l 0x2C) 31 = true ∧ t.lanes[l].hdrs = 0) ∧
    ((x = 0 ∨ x = 3) → a.hdrBad = 15 → s.lnStatus l 3 = true → Does (.blockReceive l x) s fun t =>
      t.lnStatus l 3 = false ∧ t.regBit (lnA l 0xC) 4 = true)

/-- A transition of a lane's power state ends in its state: OFF clears LN_STATUS, and with every lane of the quad OFF the quad's domain is OFF;
DORMANT keeps the equaliser's values, which ACTIVE gives back; the PLL a lane needs is on (R302, R315, R317). -/
def LanePower : Prop :=
  ∀ (l : Fin 96) (g : Nat) (s : State), s.held = none → s.hasLane l = true → s.lanes[l].trans = some g → g < 4 →
    Does (.lanePwrTransitionDone l) s fun t =>
      t.lnState l = g ∧ (g = s.pwrTarget l → s.regBit (lnA l 0x3C) 1 = true → ∃ v, (896 + 4 * l.val + 1, v) ∈ t.events) ∧
      (g = 3 → t.reg (lnA l 8) = 0 ∧ t.lanes[l].stored = (0, 0)) ∧
      (g = 2 → t.lanes[l].stored = (s.reg (lnA l 0x18), s.reg (lnA l 0x1C)) ∧ t.lnStatus l 6 = true ∧ t.lnStatus l 1 = false) ∧
      (g = 0 → s.lnState l = 2 → t.reg (lnA l 0x18) = s.lanes[l].stored.1 ∧ t.reg (lnA l 0x1C) = s.lanes[l].stored.2) ∧
      (g < 2 → s.lnRate l = 1 → t.regBit (quadA (quadOf l) 4) 0 = true) ∧
      t.dom (24 + quadOf l) = (if ∃ k : Fin 96, quadOf k = quadOf l ∧ t.lnState k ≠ 3 then 0 else 4)

/-- The framing's frames reach the balls of a port's lanes: none of them is in electrical idle, in a loopback, or sends a PRBS (R304, R313). -/
def PortSends (s : State) (h : Fin 4) (p : Nat) : Prop :=
  ∀ l : Fin 96, l.val / 24 = h.val → l.val % 24 ∈ s.userLanes h (.eth p) → s.framingSends l = true

/-- FRAME_RECEIVE on an UP port: the frame is counted; one with a bad FCS or length, a MAC control frame, and one addressed to another station
are dropped with their counts alone; one the hub does not process goes to the slow path's queue as a record of KIND 4, while that has room; a
U-plane message whose ID no entry has is counted UNKNOWN (R321, R322, R324, R331). -/
def FramesReceived : Prop :=
  ∀ (h : Fin 4) (p : Fin 24) (f : List Byte) (ts te : Time) (s : State), s.held = none → s.rfabOn h.val = true → s.portUp h p.val = true →
    s.frameTimes h p.val f.length ts te = true →
    let c := Instr.frameReceive h p f ts te
    let d := f.take (f.length - 4)
    let ok := 64 ≤ f.length ∧ f.length ≤ 9600 ∧ eFld f (f.length - 4) 4 = fcs d
    let mine := d.take 6 = s.portMac h p.val ∨ d.take 6 = List.replicate 6 0xFF ∨ d.take 6 ∈ ptpMacs ∨ s.regBit (ethA h p.val 0) 3 = true
    let ty := beFld d (typeAt d) 2
    let q := s.regFld (hubA h 1 4) 11 8
    let one (o : Nat) (t : State) : Prop :=
      OnlyRegs s t [ethA h p.val 0x40, ethA h p.val o] [] ∧ t.reg (ethA h p.val 0x40) = s.reg (ethA h p.val 0x40) + 1 ∧
        t.reg (ethA h p.val o) = s.reg (ethA h p.val o) + 1
    (¬ok → Does c s (one 0x44)) ∧
    (ok → ty = 0x8808 → Does c s (one 0x48)) ∧
    (ok → ty ≠ 0x8808 → ¬mine → Does c s (one 0x4C)) ∧
    (ok → ty ≠ 0x8808 → mine → ty ≠ 0x88F7 → s.ecpriOf h p.val d = none → s.regBit (hubA h 1 4) 0 = false → Does c s (one 0x4C)) ∧
    (ok → ty ≠ 0x8808 → mine → ty ≠ 0x88F7 → s.ecpriOf h p.val d = none → s.regBit (hubA h 1 4) 0 = true → s.regBit (rxqA h q 0) 0 = true →
      (recordsOf s.hubs[h].rxq q).length < 65536 / recSize (s.reg (rxqA h q 0)) → Does c s fun t =>
        t.hubs[h].rxq = s.hubs[h].rxq ++ [(q, recordOf (recSize (s.reg (rxqA h q 0))) 4 p.val 0 ts.toNat d)] ∧
        t.reg (ethA h p.val 0x50) = s.reg (ethA h p.val 0x50) + 1 ∧ t.events = s.events) ∧
    (∀ m, ok → ty ≠ 0x8808 → mine → ty ≠ 0x88F7 → s.ecpriOf h p.val d = some m → 4 ≤ m.length → eFld m 0 1 % 2 = 0 → eFld m 1 1 = 0 →
      s.eaxcFor h false p.val (beFld ((m.drop 4).take (beFld m 2 2)) 0 2) = none → Does c s fun t =>
        t.regBit (hubA h 2 0x800C) 0 = true ∧ t.reg (hubA h 2 0x8010) = s.reg (hubA h 2 0x8010) + 1 ∧ t.mem = s.mem)

/-- UPLANE_TRANSMIT: with no symbol due nothing happens; a due symbol leaves its stream; after TXCLOSE it is discarded and counted, and on an UP
port whose lanes send it is otherwise sent, in as many frames as its PRBs need (R326, R330). -/
def SymbolsSent : Prop :=
  ∀ (h : Fin 4) (i : Fin 256) (s : State), s.held = none → s.rfabOn h.val = true →
    let w := s.ecpW h i.val 0
    let p := fld w 20 16
    (s.dueSym h i.val = none → Does (.uplaneTransmit h i) s (· = s)) ∧
    ∀ x y a, s.dueSym h i.val = some (x, y, a) →
      let close := a - s.regFld (schA h (fld (s.ecpW h i.val 1) 3 0) 16) 23 0
      let m := s.regFld (ethA h p 0x2C) 8 0
      (close < (s.replica (.hub h)).toNat → bit w 21 = false → Does (.uplaneTransmit h i) s fun t =>
        t.hubs[h].dl = s.hubs[h].dl.erase x ∧ t.out = s.out ∧ t.reg (ethA h p 0x64) = s.reg (ethA h p 0x64) + 1) ∧
      ((s.replica (.hub h)).toNat ≤ close → bit w 21 = false → p < 24 → s.portUp h p = true → PortSends s h p →
        Does (.uplaneTransmit h i) s fun t =>
        t.hubs[h].dl = s.hubs[h].dl.erase x ∧ t.events = s.events ∧
        ∃ l : List (List Byte), t.out = s.out ++ l.map (fun d => OutMsg.frame h.val p d) ∧
          l.length = ceilDiv x.prbs.length (if m = 0 then 275 else m))

/-- The windows of the record queues: a read takes the next bytes of the head record, which leaves the queue with its last byte; of an empty
queue it gives zeros and sets the error bit; a write collects bytes until a record of RECSIZE is whole, and sets the error bit where there is no
room (R331). -/
def RecordWindows : Prop :=
  ∀ (h : Fin 4) (k : Fin 16) (s : State), s.held = none → s.rfabOn h.val = true →
    (∀ n : Fin 257, recordsOf s.hubs[h].rxq k.val = [] → Does (.rxqWindowRead h k n) s fun t =>
      t.acc = .ok (List.replicate n.val 0) ∧ t.regBit (hubA h 1 8) 1 = true ∧ OnlyRegs s { t with acc := s.acc } [hubA h 1 8] []) ∧
    (∀ (n : Fin 257) r l, recordsOf s.hubs[h].rxq k.val = r :: l →
      let pos := sget (fun _ => 0) s.hubs[h].rxPos k.val
      Does (.rxqWindowRead h k n) s fun t =>
        (pos + n.val ≤ r.length → t.acc = .ok ((r.drop pos).take n.val)) ∧
        recordsOf t.hubs[h].rxq k.val = (if r.length ≤ pos + n.val then l else r :: l) ∧
        sget (fun _ => 0) t.hubs[h].rxPos k.val = (if r.length ≤ pos + n.val then 0 else pos + n.val) ∧ t.regs = s.regs) ∧
    (∀ d : List Byte,
      let n := recSize (s.reg (txqA h k.val 0))
      let got := sget (fun _ => []) s.hubs[h].txPart k.val ++ d
      (s.txRoom h k.val = true → got.length < n → Does (.txqWindowWrite h k d) s fun t =>
        sget (fun _ => []) t.hubs[h].txPart k.val = got ∧ t.hubs[h].txq = s.hubs[h].txq ∧ t.acc = .ok [] ∧ t.regs = s.regs) ∧
      (s.txRoom h k.val = true → n ≤ got.length → Does (.txqWindowWrite h k d) s fun t =>
        sget (fun _ => []) t.hubs[h].txPart k.val = got.drop n ∧ t.hubs[h].txq = s.hubs[h].txq ++ [(k.val, got.take n)] ∧ t.acc = .ok []) ∧
      (s.txRoom h k.val = false → Does (.txqWindowWrite h k d) s fun t =>
        t.regBit (hubA h 1 8) 1 = true ∧ OnlyRegs s { t with acc := s.acc } [hubA h 1 8] []))

/-- TX_RECORD_SEND: a record for a destination that cannot take it is dropped and counted; a raw frame leaves its port, unless its lanes are in
electrical idle; a record that waits for its START or its hyperframe stays (R304, R332). -/
def RecordsSent : Prop :=
  ∀ (h : Fin 4) (k : Fin 16) (r : List Byte) (s : State), s.held = none → s.rfabOn h.val = true →
    (s.txHead h k.val = none → Does (.txRecordSend h k) s (· = s)) ∧
    (s.txHead h k.val = some r → s.recordOk h k.val r = false → Does (.txRecordSend h k) s fun t =>
      t.hubs[h].txq = dropRecord k.val s.hubs[h].txq ∧ t.reg (txqA h k.val 8) = s.reg (txqA h k.val 8) + 1 ∧ t.out = s.out) ∧
    (s.txHead h k.val = some r → s.recordOk h k.val r = true → eFld r 2 1 = 4 → let p := eFld r 3 1 % 32
      Does (.txRecordSend h k) s fun t =>
        let d := recPayload r ++ List.replicate (60 - (recPayload r).length) 0
        t.hubs[h].txq = dropRecord k.val s.hubs[h].txq ∧ t.events = s.events ∧
        (PortSends s h p → t.out = s.out ++ [.frame h.val p (d ++ toBytes 4 (fcs d))]) ∧
        ((∃ j, j ∈ s.userLanes h (.eth p)) → (∀ l : Fin 96, l.val / 24 = h.val → s.laneSends l = false) → t.out = s.out)) ∧
    (s.txHead h k.val = some r → s.recordOk h k.val r = true → (eFld r 2 1 = 1 ∨ eFld r 2 1 = 2) → Does (.txRecordSend h k) s (· = s))

/-- CPRI_HYPERFRAME_RX: the second hyperframe in a row that begins with K28.5 gives SYNC and clears LOS and LOF; the fourth in a row
that does not loses it, sets LOF and counts; with SYNC the control words and the round trip are delivered (R334, R344). -/
def HyperframesReceived : Prop :=
  ∀ (h : Fin 4) (k : Fin 12) (start : Bool) (d : List Byte) (delay : Nat) (s : State), s.held = none → s.rfabOn h.val = true →
    s.cpriOn h k.val = true → d.length = 512 * s.cpriT h k.val →
    let c := Instr.cpriHyperframeRx h k start d delay
    let hit := start && s.hubStatus h (s.cpriLane h k.val) 2
    let l := s.cpriLink h k.val
    let sync (t : State) : Prop := t.cpriSync h k.val = true ∧ (t.reg (cpriA h k.val 0xC)).toNat = delay % 2 ^ 24 + 2 ^ 31 ∧
      t.regFld (cpriA h k.val 4) 5 3 = (let b := ctlByte d (s.cpriT h k.val) 130 0; (bit b 1).toNat + 2 * (bit b 2).toNat + 4 * (bit b 0).toNat)
    (hit = true → s.cpriSync h k.val = false → l.good = 0 → Does c s fun t =>
      t.cpriSync h k.val = false ∧ (t.cpriLink h k.val).good = 1 ∧ (t.cpriLink h k.val).miss = 0 ∧ t.regs = s.regs) ∧
    (hit = true → s.cpriSync h k.val = false → 1 ≤ l.good → Does c s fun t =>
      sync t ∧ t.regBit (cpriA h k.val 4) 1 = false ∧ t.regBit (cpriA h k.val 4) 2 = false) ∧
    (hit = true → s.cpriSync h k.val = true → Does c s sync) ∧
    (hit = false → l.miss < 3 → Does c s fun t => t.cpriSync h k.val = s.cpriSync h k.val ∧ (t.cpriLink h k.val).miss = l.miss + 1) ∧
    (hit = false → 3 ≤ l.miss → Does c s fun t =>
      t.cpriSync h k.val = false ∧ t.regBit (cpriA h k.val 4) 2 = true ∧ t.regBit (cpriA h k.val 0xC) 31 = false ∧
      t.reg (cpriA h k.val 0x10) = s.reg (cpriA h k.val 0x10) + (if s.cpriSync h k.val = true then 1 else 0))

/-- CPRI_HYPERFRAME_TX: where the lane sends the framing's symbols, a hyperframe of 256 basic frames of 16 words leaves in 8b/10b code, which begins with K28.5 and carries the hyperframe number in control
word 64 and the node B frame number in 128 and 192 (R333, R334). -/
def HyperframesSent : Prop :=
  ∀ (h : Fin 4) (k : Fin 12) (s : State), s.held = none → s.rfabOn h.val = true → s.cpriOn h k.val = true →
    let t := s.cpriT h k.val
    let n : Int := ((s.replica (.hub h)).toNat : Int) - s.frameOfs
    ∀ x : Fin 96, x.val = 24 * h.val + s.cpriLane h k.val → s.cpriLane h k.val < 24 →
    (s.laneSends x = false → Does (.cpriHyperframeTx h k) s fun u => u.out = s.out ∧ u.regs = s.regs) ∧
    (s.framingSends x = true → Does (.cpriHyperframeTx h k) s fun u => ∃ l : List (BitVec 9),
      u.out = s.out ++ [.symbols h.val (s.cpriLane h k.val) (encodeSyms (s.regBit (lnA x 0) 4) s.lanes[x].txPos l).1] ∧ l.length = 512 * t ∧ l[0]? = some 0x1BC ∧ l[64 * (2 * t)]? = some (BitVec.ofNat 9 ((n % 9830400).toNat / 65536 % 256)) ∧
      l[128 * (2 * t)]? = some (BitVec.ofNat 9 (((n / 9830400) % 4096).toNat % 256)) ∧
      l[192 * (2 * t)]? = some (BitVec.ofNat 9 (((n / 9830400) % 4096).toNat / 256)) ∧ u.regs = s.regs ∧ u.events = s.events)

/-- The frame state of a trunk lane: HUNT to CONFIRM to IN_FRAME at two frames that begin with the FAW; the fourth in a row that does not begin
with it leaves IN_FRAME (R337). -/
def LaneFrames : Prop :=
  ∀ (h : Fin 4) (j : Fin 24) (at_ : Nat) (o : List (BitVec 9)) (s : State), s.held = none → s.rfabOn h.val = true → s.hubRate h j.val = 9 →
    s.hubStatus h j.val 2 = true → o.length = 64 →
    let c := Instr.trunkLaneFrameRx h j at_ o
    let good := o[1]? = some 0x9B ∧ o[2]? = some 0x4E ∧ o[3]? = some 0xD2
    let a := trkLnA h j.val 0
    (s.fState h j.val = 0 → Does c s fun t => t.fState h j.val = (if good then 1 else 0) ∧ OnlyRegs s t [a] []) ∧
    (s.fState h j.val = 1 → Does c s fun t => t.fState h j.val = (if good then 2 else 0)) ∧
    (s.fState h j.val = 2 → good → Does c s fun t => t.fState h j.val = 2 ∧ t.regFld a 10 8 = 0) ∧
    (s.fState h j.val = 2 → ¬good → s.regFld a 10 8 < 3 → Does c s fun t => t.fState h j.val = 2 ∧ t.regFld a 10 8 = s.regFld a 10 8 + 1 ∧
      t.reg (trkLnA h j.val 4) = s.reg (trkLnA h j.val 4) + 1) ∧
    (s.fState h j.val = 2 → ¬good → 3 ≤ s.regFld a 10 8 → Does c s fun t => t.fState h j.val = 0)

/-- TRUNK_FRAME_TX: each member lane, where all send the framing's symbols, sends a lane frame that begins with the FAW, the frame number goes on, and no cell leaves while the group
is neither UP nor DEGRADED (R336, R339). -/
def GroupFrames : Prop :=
  ∀ (h : Fin 4) (g : Fin 24) (s : State), s.held = none → s.rfabOn h.val = true → s.members h g.val ≠ [] →
    (∀ x : Fin 96, x.val / 24 = h.val → x.val % 24 ∈ s.members h g.val → s.framingSends x = true) → Does (.trunkFrameTx h g) s fun t =>
      sget (fun _ => 0) t.hubs[h].groupFn g.val = (sget (fun _ => 0) s.hubs[h].groupFn g.val + 1) % 65536 ∧
      t.out.length = s.out.length + (s.members h g.val).length ∧
      (∀ i j, (s.members h g.val)[i]? = some j → ∀ x : Fin 96, x.val = 24 * h.val + j → ∃ l, t.out[s.out.length + i]? =
        some (.symbols h.val j (encodeSyms (s.regBit (lnA x 0) 4) s.lanes[x].txPos (0x1BC :: 0x9B :: 0x4E :: 0xD2 :: l)).1)) ∧
      (s.gState h g.val < 2 → t.hubs[h].tribTx = s.hubs[h].tribTx) ∧ t.events = s.events

/-- TRUNK_CELL_RX on a usable lane of an UP or DEGRADED group: an idle cell is counted, a cell with a bad CRC is counted and dropped, and the
first cell of a block on a receiving tributary of the group starts it (R340). -/
def CellsReceived : Prop :=
  ∀ (h : Fin 4) (j : Fin 24) (g : Nat) (x : List (BitVec 9)) (s : State), s.held = none → s.rfabOn h.val = true → s.laneGroup h j.val = some g →
    2 ≤ s.gState h g → s.usable h g j.val = true → x.length = 64 →
    let d := x.map fun y => y.setWidth 8
    let n := eFld d 0 1
    let w := s.reg (tribA h n)
    (x[0]? = some 0x1FB → Does (.trunkCellRx h j x) s fun t =>
      t.reg (trkLnA h j.val 12) = s.reg (trkLnA h j.val 12) + 1 ∧ OnlyRegs s t [trkLnA h j.val 12] []) ∧
    (x[0]? ≠ some 0x1FB → crc16 (d.take 62) ≠ eFld d 62 2 → Does (.trunkCellRx h j x) s fun t =>
      t.reg (trkA h g 20) = s.reg (trkA h g 20) + 1 ∧ OnlyRegs s t [trkA h g 20] []) ∧
    (x[0]? ≠ some 0x1FB → crc16 (d.take 62) = eFld d 62 2 → n ≠ 255 → bit w 0 = true → bit w 1 = false → fld w 6 2 = g →
      bit (d.getD 1 0) 0 = true → bit (d.getD 1 0) 1 = false → Does (.trunkCellRx h j x) s fun t =>
        sget (fun _ => {}) t.hubs[h].tribRx n = ⟨true, (d.drop 2).take 60, (fld (d.getD 1 0) 7 4 + 1) % 16, (s.replica (.hub h)).toNat⟩ ∧
        t.regs = s.regs)

/-- SLUICE_EVALUATE of a ridge in RUN: with work to do now the choice is RUN; with none in sight the deepest state it may take; with its next work a
gap ahead, SLEEP from 11,797 tu and DOZE from 689 tu, each beside the margin, and its comparator is armed so that the exit ends before the work
(R346, R350). -/
def AutomaticChoice : Prop :=
  ∀ (n : Fin 24) (i : Fin 32) (s : State), i.val = n.val → s.held = none → s.domPresent n.val = true → s.force n.val = none → s.txn n.val = none →
    s.dom n.val = 0 → s.slc.up.any (fun p => decide (p.1 = n.val)) = false →
    let w := s.nextWork (ridgeRange n) (n.val % 6)
    let now := (s.replica .slc).toNat
    let m := s.maxDepth n.val
    let sleepOk := s.regBit (slcA 4) 1 = true ∧ (m = 2 ∨ m = 4)
    let dozeOk := s.regBit (slcA 4) 0 = true ∧ m ≠ 0
    let dt := (w.2 - s.tickOf now).toNat
    let gap : Int := ((dt * s.tb.div.toNat : Nat) : Int) - ((now : Int) - s.frameOfs) % (s.tb.div.toNat : Int)
    let chosen (x : Nat) (t : State) : Prop := sget (fun _ => 0) t.slc.choice n.val = x ∧ t.dom n.val = 0 ∧ t.events = s.events
    let wakesAt (x : Int) (t : State) : Prop := t.armed (.slc i) = true ∧ t.target (CmpId.slc i).base = BitVec.ofInt 64 x
    let c := Instr.sluiceEvaluate i
    (w.1 = 1 → Does c s (chosen 0)) ∧
    (w.1 = 0 → (sleepOk → Does c s (chosen 2)) ∧ (¬sleepOk → dozeOk → Does c s (chosen 1)) ∧ (¬sleepOk → ¬dozeOk → Does c s (chosen 0))) ∧
    (w.1 = 2 → 2 ^ 31 ≤ dt → Does c s (chosen 0)) ∧
    (w.1 = 2 → dt < 2 ^ 31 →
      let deep := sleepOk ∧ 11797 + (s.margin : Int) ≤ gap
      let light := dozeOk ∧ 689 + (s.margin : Int) ≤ gap
      (deep → Does c s fun t => chosen 2 t ∧ wakesAt (now + gap - 7864 - s.margin) t) ∧
      (¬deep → light → Does c s fun t => chosen 1 t ∧ wakesAt (now + gap - 492 - s.margin) t) ∧
      (¬deep → ¬light → Does c s fun t => chosen 0 t ∧ (i.val ∈ s.slc.used → t.armed (.slc i) = false)))

/-- An entry that is aborted is over: its reason and voter are logged, it is counted, event 1665 is raised, and it is
tried again unless a FORCE was written meanwhile (R356, R358). -/
def Aborted (s t : State) (d reason voter : Nat) : Prop :=
  t.txn d = none ∧ (s.slc.held.find? (fun p => decide (p.1 = d)) = none → d ∈ t.slc.retry) ∧ t.reg (slcA 0x18) = BitVec.ofNat 32 (d + 2 ^ 8 * reason + 2 ^ 12 * voter) ∧
    t.reg (slcA 0x28) = s.reg (slcA 0x28) + 1 ∧ t.dom d = s.dom d ∧ t.events = s.events ++ [(1665, s.reg (routeAddr 1665))]

/-- The entry of a domain into the state wanted: PREPARE opens its transaction, or is aborted where the order of power-off is broken; the votes are
gathered, a voter that does not answer refusing with reason 4, and the fabric manager's refusal for want of a plan being reported besides; with all in, the first refusal in the order of the voters aborts, and without
one the entry is committed; it ends in its state (R271, R276, R355 to R357). -/
def DomainEntries : Prop :=
  ∀ (d : Fin 62) (s : State), s.held = none →
    (s.mayPrepare d.val = true → s.orderBad d.val (s.want d.val) = false → Does (.prepare d) s fun t =>
      t.txn d.val = some { dom := d.val, target := s.want d.val, auto := (s.force d.val).isNone } ∧ t.regBit (domState d.val) 3 = true ∧
      t.regFld (domState d.val) 6 4 = s.want d.val ∧ t.dom d.val = s.dom d.val ∧ t.events = s.events) ∧
    (s.mayPrepare d.val = true → s.orderBad d.val (s.want d.val) = true → Does (.prepare d) s fun t => Aborted s t d.val 6 0) ∧
    (∀ (u : SlcTxn) (v : Fin 16), s.txn d.val = some u → u.commit = false → v.val ∈ votersOf d.val u.target → (∀ p ∈ u.votes, p.1 ≠ v.val) →
      ∀ c ∈ [(Instr.vote d v, s.voteOf d.val u.target v.val), (.voteTimeout d v, 4)],
        let vs := u.votes ++ [(v.val, c.2)]
        let all := ∀ k ∈ votersOf d.val u.target, ∃ p ∈ vs, p.1 = k
        let refusal := (votersOf d.val u.target).findSome? fun k => vs.find? fun p => decide (p.1 = k ∧ p.2 ≠ 0)
        let s' := if c.2 = 5 then s.noPlan else s
        (¬all → Does c.1 s fun t => t.txn d.val = some { u with votes := vs } ∧ t.events = s'.events) ∧
        (all → refusal = none → Does c.1 s fun t => t.txn d.val = some { u with votes := vs, commit := true } ∧ t.events = s'.events) ∧
        (all → ∀ p, refusal = some p → Does c.1 s fun t => Aborted s' t d.val p.2 p.1)) ∧
    (∀ (u : SlcTxn) (v : Fin 16), s.txn d.val = some u → u.commit = false → v.val ∈ votersOf d.val u.target → (∀ p ∈ u.votes, p.1 ≠ v.val) →
      Does (.voteTimeout d v) s fun t => t.regBit (slcA 0xC) 3 = true) ∧
    (∀ u : SlcTxn, s.txn d.val = some u → s.entryReady u = true → u.target ≤ 4 → Does (.domainEntryComplete d) s fun t =>
      t.dom d.val = u.target ∧ t.txn d.val = none ∧ t.regBit (domState d.val) 3 = false ∧
      (d.val < 24 → u.target = 2 → t.reg (slcA 0x24) = s.reg (slcA 0x24) + 1) ∧
      (d.val ∈ s.slc.lateWakes → d.val ∈ t.slc.wakeAct) ∧
      t.events = s.events ++ (if u.auto = true then [] else [(1664, s.reg (routeAddr 1664))])) ∧
    (d.val ∈ s.slc.retry → Does (.sluiceRetry d) s fun t => d.val ∉ t.slc.retry ∧ t.dom d.val = s.dom d.val)

/-- DOZE_ENTRY of a quiescent ridge or BFA that wants it: DOZE without votes, counted (R351). -/
def DozeEntries : Prop :=
  ∀ (i : Fin 32) (s : State), s.held = none → i.val < 28 →
    let d := cmpDomain i
    s.domPresent d = true → s.want d = 1 → s.dom d = 0 → s.txn d = none → d ∉ s.wakes → s.quiescent i = true →
      Does (.dozeEntry i) s fun t => t.dom d = 1 ∧ t.reg (slcA 0x20) = s.reg (slcA 0x20) + 1 ∧ ∀ k, k ≠ d → k < 62 → t.dom k = s.dom k

/-- Wakes: a request for a domain asleep starts its exit, with that of the RINF of its range from DEEP; during an entry before COMMIT it aborts it, and
after COMMIT it follows it; a ridge whose supply was off comes up with its cores at reset and its tile memories cleared; the exit ends in
RUN, with event 1664 under FORCE = RUN (R354, R358 to R360). -/
def DomainExits : Prop :=
  ∀ (d : Fin 62) (s : State), s.held = none →
    (d.val ∈ s.wakes → s.txn d.val = none → s.dom d.val ≠ 0 → s.force d.val ≠ some 4 → s.domPresent d.val = true →
      let up := s.slc.up.any fun p => decide (p.1 = d.val)
      (up = false → Does (.demandWake d) s fun t => d.val ∈ t.slc.wakeAct ∧ d.val ∉ t.wakes ∧
        (d.val < 24 → s.dom (52 + d.val / 6) = 3 → 52 + d.val / 6 ∈ t.slc.wakeAct)) ∧
      (up = true → Does (.demandWake d) s fun t => t.slc = s.slc ∧ t.regs = s.regs ∧ d.val ∉ t.wakes)) ∧
    (∀ u : SlcTxn, d.val ∈ s.wakes → s.txn d.val = some u → u.commit = false → Does (.demandWake d) s fun t =>
      t.txn d.val = none ∧ t.reg (slcA 0x18) = BitVec.ofNat 32 (d.val + 2 ^ 8 * 10 + 2 ^ 12 * 11) ∧ d.val ∉ t.wakes) ∧
    (∀ u : SlcTxn, d.val ∈ s.wakes → s.txn d.val = some u → u.commit = true → u.target ≠ 4 → Does (.demandWake d) s fun t =>
      t.txn d.val = some u ∧ d.val ∈ t.slc.lateWakes ∧ d.val ∉ t.wakes) ∧
    (d.val < 60 → s.wakeDue d.val = true → Does (.domainWake d) s fun t =>
      t.slc.up = s.slc.up ++ [(d.val, s.dom d.val)] ∧ d.val ∉ t.slc.wakeAct ∧
      (d.val < 24 → s.dom d.val ≠ 1 → ∀ x : Fin 192, x.val / 8 = d.val → t.cores[x] = {}) ∧
      (d.val < 24 → s.dom d.val ≠ 1 → ∀ a, ridgeBase d.val ≤ a → a < ridgeBase d.val + 0x400000 → t.byte a = 0)) ∧
    (s.exitReady d.val = true → DoesAndLands (.domainExitComplete d) s fun t =>
      t.dom d.val = 0 ∧ (∀ p ∈ t.slc.up, p.1 ≠ d.val) ∧ (s.force d.val = some 0 → (1664, s.reg (routeAddr 1664)) ∈ t.events) ∧
      (d.val < 24 → (s.epState (ridgeNode d.val) = 2 ∨ s.epState (ridgeNode d.val) = 3) → t.epState (ridgeNode d.val) = 0))

/-- Range clocks, retention and throttling: a range PLL that locks is reported, and a range set to follow it switches; the end of the switch
is reported; the first brownout of a sleeping ridge's retained banks is recorded and reported; over-temperature divides the clocks of the ranges in RUN
until it ends (R361, R363, R367). -/
def ClocksAndRetention : Prop :=
  ∀ (r : Fin 4) (n : Fin 24) (banks : BitVec 16) (s : State), s.held = none →
    (s.regBit (rangeClk r.val) 2 = false → s.hasRange r.val = true → s.dom (52 + r.val) = 0 → Does (.rangePllLock r) s fun t =>
      t.regBit (rangeClk r.val) 2 = true ∧ OnlyRegs s { t with slc := s.slc } [rangeClk r.val] [1668 + r.val] ∧
      (s.regBit (rangeClk r.val) 1 = true → t.regBit (rangeClk r.val) 0 = false ∧ r.val ∈ t.slc.switching) ∧
      (s.regBit (rangeClk r.val) 1 = false → t.slc = s.slc)) ∧
    (r.val ∈ s.slc.switching → Does (.clockSwitchDone r) s fun t =>
      t.regBit (rangeClk r.val) 3 = false ∧ r.val ∉ t.slc.switching ∧ OnlyRegs s { t with slc := s.slc } [rangeClk r.val] [1672 + r.val]) ∧
    (let held := sget (fun _ => 0) s.slc.retained n.val
     let lost := sget (fun _ => 0) s.slc.retLost n.val
     let hit := banks.toNat &&& held
     s.dom n.val = 2 → hit ≠ 0 → Does (.retentionBrownout n banks) s fun t =>
      sget (fun _ => 0) t.slc.retLost n.val = (lost ||| hit) ∧
      (lost = 0 → t.regBit (domState n.val) 9 = true ∧ t.regBit (slcA 0xC) 0 = true ∧ t.events = s.events ++ [(1666, s.reg (routeAddr 1666))]) ∧
      (lost ≠ 0 → t.regs = s.regs ∧ t.events = s.events)) ∧
    (s.regBit (Block.hk.base + 0x8014) 0 = true → s.regBit (slcA 8) 1 = false → Does .throttleApply s fun t =>
      t.regBit (slcA 8) 1 = true ∧ t.events = s.events ++ [(1676, s.reg (routeAddr 1676))] ∧
      (s.hasRange r.val = true → s.dom (52 + r.val) = 0 →
        t.regFld (rangeClk r.val) 5 4 = if s.regFld (slcA 0x1C) 1 0 = 2 then 2 else 1)) ∧
    (s.regBit (Block.hk.base + 0x8014) 0 = false → s.regBit (slcA 8) 1 = true → Does .throttleRemove s fun t =>
      t.regBit (slcA 8) 1 = false ∧ t.events = s.events ++ [(1677, s.reg (routeAddr 1677))] ∧
      (s.hasRange r.val = true → s.dom (52 + r.val) = 0 → t.regFld (rangeClk r.val) 5 4 = 0))

/-- A code clamped to a channel's limits. -/
def clampCode (s : State) (c : Fin 8) (v : Int) : Int :=
  max (s.regFld (dacA c 0x10) 15 0 : Int) (min (s.regFld (dacA c 0x10) 31 16 : Int) v)

/-- No hold is on at a channel, and the deglitcher is off: a code drives the output at once. -/
def Direct (s : State) (c : Fin 8) : Prop :=
  (s.dac c).rangeHold = false ∧ (s.dac c).range = none ∧ (s.dac c).core = none ∧ s.regBit (dacA c 0) 5 = false

/-- DAC_LOAD_EDGE drives the input registers of the DRIVEN channels that wait for a strobe in an enabled group, and no other; TONE_STEP advances
the phase and drives the tone's channels; both clamp to the limits (R391, R396, R401). -/
def Strobes : Prop :=
  ∀ s : State, s.held = none →
    (Does .dacLoadEdge s fun t => t.events = s.events ∧ ∀ c : Fin 8,
      let loads := (s.regFld (hkA 0x14) 3 0).testBit (s.regFld (dacA c 0) 4 3) = true ∧ s.dacSrc c = 0 ∧ s.regBit (dacA c 0) 2 = true ∧ s.dacState c = 1
      (loads → Direct s c → (t.dacOut c : Int) = clampCode s c (s.regFld (dacA c 8) 15 0)) ∧ (¬loads → t.dacOut c = s.dacOut c)) ∧
    (Does .toneStep s fun t => t.hk.phase = s.hk.phase + s.reg (hkA 0x20) ∧ t.events = s.events ∧ ∀ c : Fin 8,
      let tone := s.dacSrc c = 2 ∧ s.dacState c = 1
      (tone → Direct s c → (t.dacOut c : Int) = clampCode s c (s.regFld (dacA c 8) 15 0 +
        (s.regFld (hkA 0x24) 15 0 : Int) * toneAt (s.hk.phase + s.reg (hkA 0x20)) / 32768)) ∧
      (¬tone → t.dacOut c = s.dacOut c))

/-- DAC_QUEUE_STEP plays the entry at QPOS, which goes on to the next and from QLAST to QFIRST; an entry with STOP ends the run with its
event (R397). -/
def QueueSteps : Prop :=
  ∀ (c : Fin 8) (s : State), s.held = none → s.regBit (dacA c 4) 3 = true →
    let q := s.reg (dacA c 0x18)
    let p := fld q 21 16
    let e := s.reg (hkA (0x1000 + 0x100 * c.val + 4 * p))
    Does (.dacQueueStep c) s fun t =>
      (t.dac c).played = fld e 15 0 ∧ t.regFld (dacA c 0x18) 21 16 = (if p = fld q 13 8 then fld q 5 0 else p + 1) % 64 ∧
      t.regBit (dacA c 4) 3 = !bit e 16 ∧
      t.events = s.events ++ (if bit e 16 = true then [(1864 + c.val, s.reg (routeAddr (1864 + c.val)))] else []) ∧
      (s.dacSrc c = 1 → s.dacState c = 1 → Direct s c → (t.dacOut c : Int) = clampCode s c (fld e 15 0)) ∧
      ∀ k : Fin 8, k ≠ c → t.dacOut k = s.dacOut k

/-- The end of a deglitch hold drives the code the core moved to, and starts a range change that waited for it; the end of a range change switches
the range and drives the input register, or the safe code, clamped (R394, R399, R400). -/
def HoldEnds : Prop :=
  ∀ (c : Fin 8) (s : State), s.held = none →
    (∀ v, (s.dac c).core = some v → (s.dac c).next = none → (s.dac c).range = none → Does (.deglitchHoldEnd c) s fun t =>
      t.dacOut c = v % 65536 ∧ t.regBit (dacA c 4) 2 = false ∧ (t.dac c).core = none ∧ OnlyRegs s { t with hk := s.hk } [dacA c 4, dacA c 0xC] []) ∧
    (∀ v r, (s.dac c).core = some v → (s.dac c).range = some r → Does (.deglitchHoldEnd c) s fun t =>
      t.dacOut c = v % 65536 ∧ t.regBit (dacA c 4) 2 = true ∧ (t.dac c).core = none ∧ (t.dac c).rangeHold = true) ∧
    (∀ r, (s.dac c).range = some r → (s.dac c).rangeHold = true → Does (.rangeHoldEnd c) s fun t =>
      t.regBit (dacA c 0) 6 = r ∧ t.regBit (dacA c 4) 2 = false ∧ (t.dac c).range = none ∧ (t.dac c).rangeHold = false ∧
      t.dacOut c = max (s.regFld (dacA c 0x10) 15 0) (min (s.regFld (dacA c 0x10) 31 16) (((s.dac c).rangeCode).getD (s.regFld (dacA c 8) 15 0))) % 65536 ∧
      OnlyRegs s { t with hk := s.hk } [dacA c 0, dacA c 4, dacA c 0xC] [])

/-- A brownout of VDDA_HK, where it is supervised, sends every DRIVEN channel to SAFE with cause 2 and its safe code; recovery clears the
status alone (R394, R395). -/
def Brownouts : Prop :=
  ∀ s : State, s.held = none →
    (s.regBit (hkA 8) 0 = false → Does .vddaHkBrownout s fun t => t.regBit (hkA 8) 0 = true ∧
      (s.regBit (hkA 4) 1 = false → OnlyRegs s t [hkA 8] []) ∧
      (s.regBit (hkA 4) 1 = true → ∀ c : Fin 8,
        (s.dacState c ≠ 1 → t.dacState c = s.dacState c ∧ t.dacOut c = s.dacOut c) ∧
        (s.dacState c = 1 → t.dacState c = 2 ∧ t.regFld (dacA c 4) 6 4 = 2 ∧ t.armed (.dac c) = false ∧
          (1856 + c.val, s.reg (routeAddr (1856 + c.val))) ∈ t.events ∧
          (Direct s c → s.regBit (dacA c 0) 6 = s.regBit (dacA c 0x14) 16 → (t.dacOut c : Int) = clampCode s c (s.regFld (dacA c 0x14) 15 0))))) ∧
    (s.regBit (hkA 8) 0 = true → Does .vddaHkRecovery s fun t => t.regBit (hkA 8) 0 = false ∧ OnlyRegs s t [hkA 8] [])

/-- ADC_CONVERSION: the result with its flags goes to the input's register, or to the urgent one with its event; a result that leaves its limits
sets the status and raises an event; a temperature at the threshold asserts the over-temperature signal; a read-back that fails often enough
sends its channel to SAFE with cause 3 (R402, R403, R405, R407). -/
def Conversions : Prop :=
  ∀ (a : Fin 2) (x : BitVec 12) (i : Nat) (u : Bool) (s : State), s.held = none → (s.adc a).cur = some (i, u) → i < 32 →
    let code := if s.deadInput a i = true then 0 else x.toNat
    let settled := s.regBit (adcA a 4) 1
    let lim := s.reg (hkA (0xA000 + 0x100 * a.val + 4 * i))
    let res := BitVec.ofNat 32 (code + 2 ^ 12 * (!settled).toNat + 2 ^ 13 + 2 ^ 14 * s.refSel a)
    let good := settled = true ∧ s.refSel a = 0
    Does (.adcConversion a x) s fun t =>
      (u = false → t.reg (hkA (0x9000 + 0x100 * a.val + 4 * i)) = res) ∧
      (u = true → t.reg (adcA a 0x10) = res ∧ (1877 + a.val, s.reg (routeAddr (1877 + a.val))) ∈ t.events) ∧
      (s.deadInput a i = false → bit lim 31 = true → (code < fld lim 11 0 ∨ fld lim 27 16 < code) → i ∉ (s.adc a).outside →
        t.regBit (adcA a 0x20) 1 = true ∧ (1873 + a.val, s.reg (routeAddr (1873 + a.val))) ∈ t.events) ∧
      (good → a = 0 → 8 ≤ i → i < 20 → s.deadInput 0 i = false → s.regBit (hkA 0x8014) 0 = false → s.regFld (hkA 0x8010) 11 0 ≤ code →
        t.regBit (hkA 0x8014) 0 = true ∧ (1875, s.reg (routeAddr 1875)) ∈ t.events) ∧
      (∀ c : Fin 8, good → a = 0 → i = c.val → s.regBit (dacA c 0) 8 = true → s.regBit (dacA c 4) 2 = false → s.dacSrc c ≠ 2 →
        (s.dac c).changed + 2458 ≤ s.tb.cycles → s.dacState c = 1 →
        (let e := s.dacOut c * (if s.regBit (dacA c 0) 6 = true then 6 else 3) / 128
         s.regFld (dacA c 0x24) 11 0 < max code e - min code e) → max 1 (s.regFld (dacA c 0x24) 15 12) ≤ (s.dac c).fails + 1 →
        t.dacState c = 2 ∧ t.regFld (dacA c 4) 6 4 = 3)

/-- REF_SETTLED of an enabled converter (R404). -/
def References : Prop :=
  ∀ (a : Fin 2) (s : State), s.held = none → s.regBit (adcA a 0) 0 = true → Does (.refSettled a) s fun t =>
    t.regBit (adcA a 4) 1 = true ∧ OnlyRegs s t [adcA a 4] []

/-- The message of a vector. -/
def msixMessage (s : State) (f v : Nat) : OutMsg :=
  .msix f v (BitVec.ofNat 64 ((s.msixW f v 0).toNat + 2 ^ 32 * (s.msixW f v 1).toNat)) (s.msixW f v 2)

/-- EVENT_DELIVERY of the oldest raise, by the route it was raised under: nowhere, counted as discarded; flags of a thread; a line of the control
complex; an MSI-X message, which a mask turns into its pending bit, and which is discarded where the function has no such vector, has MSI-X off
or is being reset (R411, R412, R414). -/
def Deliveries : Prop :=
  ∀ (s : State) (n : Nat) (r : Word) (es : List (Nat × Word)), s.held = none → s.events = (n, r) :: es →
    let u := { s with events := es }
    let f := fld r 6 2
    let v := fld r 17 7
    let dropped (t : State) : Prop := t.reg (Block.evf.base + 0xC) = s.reg (Block.evf.base + 0xC) + 1 ∧ OnlyRegs u t [Block.evf.base + 0xC] []
    let off := s.vectors f ≤ v ∨ s.regBit (fnA f) 1 = false ∨ s.flrBusy f = true
    (fld r 1 0 = 0 → Does .eventDelivery s dropped) ∧
    (∀ x : Fin 4, fld r 1 0 = 1 → fld r 3 2 = x.val →
      (s.rinfOn x.val = false → Does .eventDelivery s dropped) ∧
      (s.rinfOn x.val = true → Does .eventDelivery s (· = u.post x (fld r 13 4) (fld r 18 14) none))) ∧
    (fld r 1 0 = 2 → Does .eventDelivery s (· = { u with out := s.out ++ [.irq (fld r 7 2)] })) ∧
    (fld r 1 0 = 3 → off → Does .eventDelivery s dropped) ∧
    (fld r 1 0 = 3 → ¬off → s.vectorMasked f v = true → Does .eventDelivery s fun t =>
      t.pba f v = true ∧ { t with hif := s.hif } = u) ∧
    (fld r 1 0 = 3 → ¬off → s.vectorMasked f v = false → Does .eventDelivery s (· = { u with out := s.out ++ [msixMessage s f v] }))

/-- MSIX_UNMASK sends the message of a pending vector that is no longer masked (R414). -/
def Unmasks : Prop :=
  ∀ (f : Fn) (v : BitVec 11) (s : State), s.held = none → s.pba f.val v.toNat = true → s.vectorMasked f.val v.toNat = false →
    s.regBit (fnA f.val) 1 = true → s.flrBusy f.val = false → Does (.msixUnmask f v) s fun t =>
      t.pba f.val v.toNat = false ∧ t.out = s.out ++ [msixMessage s f.val v.toNat] ∧ t.regs = s.regs

/-- What the reset of a function leaves: its status with RESETTING alone, its flume channels not enabled, its doorbells at 0, its vectors masked and
not pending. -/
def FunctionReset (s t : State) (f : Nat) : Prop :=
  t.reg (fnA f) = 8 ∧ (1952 + f, s.reg (routeAddr (1952 + f))) ∈ t.events ∧
    (∀ q ∈ s.fnFlumes f, t.flumeEn (.host q) = false) ∧
    (∀ q : Fin 64, s.regFld (hifA (0x500 + 4 * q.val)) 4 0 = f → t.hqProd q.val = 0 ∧ t.hqCons q.val = 0) ∧
    ∀ v : Fin 2048, t.pba f v.val = false ∧ bit (t.msixW f v.val 3) 0 = true

/-- FLR resets its function, and with PF1 every VF, whose VF Enable is cleared; it is complete when the function's flumes are DISABLED; PERST resets every
function and takes the link down (R418, R422). -/
def FunctionResets : Prop :=
  ∀ s : State, s.held = none →
    (∀ f : Fn, s.flrBusy f.val = false → s.fnThere f.val = true → Does (.flr f) s fun t => FunctionReset s t f.val ∧
      (f.val = 1 → t.regBit (hifA 4) 9 = false ∧ t.hif.numVfs = 0 ∧ ∀ k < s.regFld (hifA 0x10) 3 0, FunctionReset s t (k + 2))) ∧
    (∀ f : Fn, s.flrBusy f.val = true → (∀ q ∈ s.fnFlumes f.val, s.chState (.host q) = 0) → Does (.flrComplete f) s fun t =>
      t.flrBusy f.val = false ∧ OnlyRegs s t [fnA f.val] []) ∧
    (Does .pciePerst s fun t => t.regBit (hifA 4) 0 = false ∧ FunctionReset s t 0 ∧ FunctionReset s t 1 ∧
      ∀ k < s.regFld (hifA 0x10) 3 0, FunctionReset s t (k + 2))

/-- PCIE_LINK_CHANGE shows the link's state and raises event 1969 where it changed; PCIE_CONFIG_WRITE sets a function's enables, and of PF1 VF Enable, with
NumVFs only while that is 0 (R414, R418, R420, R427). -/
def PcieSettings : Prop :=
  ∀ s : State, s.held = none →
    (∀ (up : Bool) (w : Fin 17) (g : Fin 6),
      let x := (s.reg (hifA 4) &&& 0x200) ||| (if up = true then BitVec.ofNat 32 (1 + 2 * w.val + 64 * g.val) else 0)
      Does (.pcieLinkChange up w g) s fun t => t.reg (hifA 4) = x ∧ OnlyRegs s t [hifA 4] (if s.reg (hifA 4) = x then [] else [1969])) ∧
    (∀ (f : Fn) (bme en mask vf : Bool) (n : BitVec 8), s.fnThere f.val = true → s.flrBusy f.val = false →
      Does (.pcieConfigWrite f bme en mask vf n) s fun t =>
        t.reg (fnA f.val) = BitVec.ofNat 32 (bme.toNat + 2 * en.toNat + 4 * mask.toNat) ∧ t.events = s.events ∧
        (f.val ≠ 1 → OnlyRegs s t [fnA f.val] []) ∧
        (f.val = 1 → t.regBit (hifA 4) 9 = vf ∧ t.hif.numVfs = if s.regBit (hifA 4) 9 = true then s.hif.numVfs else n.toNat))

/-- Host requests on a link that is up: one that no function claims is unsupported, and has no effect; a read through the map is answered with its data or
a completer abort, a write that fails is dropped, recorded and reported; a word of an MSI-X table takes a write (R414, R418 to R420). -/
def HostRequests : Prop :=
  ∀ (s : State) (f : Fn) (bar : Fin 6) (off : Addr), s.held = none → s.regBit (hifA 4) 0 = true →
    (∀ n : Fin 4097, s.hostClaims f.val bar.val off.toNat n.val = false →
      Does (.hostMemoryRead f bar off n) s (· = { s with out := s.out ++ [.unsupportedRequest], acc := .unsupported })) ∧
    (∀ (n : Fin 4097) (a : Nat), s.hostClaims f.val bar.val off.toNat n.val = true → s.barTarget f.val bar.val off.toNat = .map a →
      let q := s.busRead (.host f) a n.val
      (∀ d, q.2 = .ok d → Does (.hostMemoryRead f bar off n) s (· = { q.1 with out := q.1.out ++ [.completion d], acc := .ok d })) ∧
      (q.2 = .err → Does (.hostMemoryRead f bar off n) s (· = { q.1 with out := q.1.out ++ [.completerAbort], acc := .busError }))) ∧
    (∀ d : List Byte, s.hostClaims f.val bar.val off.toNat d.length = false → Does (.hostMemoryWrite f bar off d) s (· = { s with acc := .unsupported })) ∧
    (∀ (d : List Byte) (a : Nat), s.hostClaims f.val bar.val off.toNat d.length = true → s.barTarget f.val bar.val off.toNat = .map a →
      let q := s.busWrite (.host f) a (wholeBytes d)
      (∀ l, q.2 = .ok l → Does (.hostMemoryWrite f bar off d) s (· = { q.1 with acc := .ok [] })) ∧
      (q.2 = .err → Does (.hostMemoryWrite f bar off d) s fun t =>
        t.regBit (hifA 8) 0 = true ∧ t.reg (hifA 0x18) = BitVec.ofNat 32 a ∧ t.regFld (hifA 0x1C) 7 0 = a / 2 ^ 32 % 256 ∧ t.acc = .busError ∧
        t.mem = q.1.mem ∧ ∃ v, t.events = q.1.events ++ [(1970, v)])) ∧
    (∀ (d : List Byte) (o : Nat), s.hostClaims f.val bar.val off.toNat 4 = true → off.toNat % 4 = 0 → d.length = 4 →
      s.barTarget f.val bar.val off.toNat = .table o → o % 16 = 8 → o / 16 < s.vectors f.val → Does (.hostMemoryWrite f bar off d) s fun t =>
        t.msixW f.val (o / 16) 2 = BitVec.ofNat 32 (ofBytes d) ∧ t.acc = .ok [] ∧ t.regs = s.regs ∧ t.mem = s.mem)

/-- SIGNATURE_CHECK of the slot being booted: an accepted image takes the boot on, with its SEQ and key; a rejected one gives its reason, and the other
slot is booted where BOOTSEL lets it and it is valid and untried; else the ROM stops (R376 to R380). -/
def SignatureChecks : Prop :=
  ∀ (s : State) (k : Nat), s.held = none → s.boot.slot = some k → k < 2 → s.regFld (bootA 0x10) 2 0 = 4 → s.boot.wait = false →
    let l := (s.slotBytes k).take (imgLen (s.slotBytes k))
    (s.imageReject l = none → Does .signatureCheck s fun t =>
      t.regFld (bootA 0x10) 2 0 = 5 ∧ t.reg (bootA 0x28) = BitVec.ofNat 32 (imgLe l 12 4) ∧ t.boot.key = some (imgLe l 18 1)) ∧
    (∀ r, s.imageReject l = some r → s.bootSel = 0 → s.slotOk (1 - k) = true → 1 - k ∉ s.boot.tried → Does .signatureCheck s fun t =>
      t.regFld (bootA 0x10) 11 4 = r ∧ t.regFld (bootA 0x10) 2 0 = 4 ∧ t.regBit (bootA 0x10) 15 = true ∧ t.boot.slot = some (1 - k) ∧
      k ∈ t.boot.tried ∧ ∃ v, (1987, v) ∈ t.events) ∧
    (∀ r, s.imageReject l = some r → (s.bootSel ≠ 0 ∨ s.slotOk (1 - k) = false ∨ 1 - k ∈ s.boot.tried) → Does .signatureCheck s fun t =>
      t.regFld (bootA 0x10) 11 4 = r ∧ t.regFld (bootA 0x10) 2 0 = 7 ∧ t.boot.slot = none)

/-- A change of mode is under way: MODE as it was, TARGET and PENDING. -/
def Pending (s t : State) (m : Nat) : Prop := t.mode = s.mode ∧ t.modeTarget = m ∧ t.regBit (bootA 0x20) 8 = true

/-- SUMMIT_START serves the mailbox, and takes the boot to MAINTENANCE with the reason where the pair is not tested; BOOT_READY enters SYNC-ACQUIRE, or
MAINTENANCE where CONFIG or a load failed; CAP_START takes over a booting device whose CAP is open (R378, R382 to R384, R387, R423). -/
def BootSteps : Prop :=
  ∀ (s : State) (k : Nat), s.held = none → s.boot.slot = some k → s.mode = 1 → s.regFld (bootA 0x10) 2 0 = 5 →
    (∀ (listed : Bool) (b : BitVec 22) (x y : Fin 5), s.reg (bootA 0x24) = 0 →
      let l := (s.slotBytes k).take (imgLen (s.slotBytes k))
      Does (.summitStart listed b x y) s fun t =>
        t.regBit (mbxA 4) 0 = true ∧ t.mbxBase = 0x3F0000000 + 64 * b.toNat ∧
        (∀ r u, imagePair l listed = (some r, u) → t.regFld (bootA 0x10) 11 4 = r ∧ Pending s t 3) ∧
        (imagePair l listed = (none, true) → t.regBit (bootA 0x10) 13 = true ∧ ∃ v, (1986, v) ∈ t.events)) ∧
    (∀ (trim night : BitVec 4), s.reg (bootA 0x24) ≠ 0 → s.regBit (bootA 0x20) 8 = false →
      (Does (.bootReady none trim night) s fun t => t.mode = 2 ∧ t.regBit (bootA 0x20) 8 = false ∧ t.regFld (bootA 0x10) 2 0 = 6 ∧
        t.boot.trim = trim ∧ t.boot.night = night ∧ ∃ v, (1984, v) ∈ t.events) ∧
      ∀ f, Does (.bootReady (some f) trim night) s fun t => t.regFld (bootA 0x10) 11 4 = (if f = true then 11 else 10) ∧ Pending s t 3) ∧
    (s.regBit (bootA 0x8000) 0 = false → Does .capStart s fun t => t.mode = 11 ∧ t.regBit (bootA 0x10) 14 = true ∧ t.boot.wait = false ∧
      OnlyRegs s { t with boot := s.boot } [bootA 0x10, bootA 0x20] [1990, 1984])

/-- Changes of mode: FULL_ENTRY and STANDBY_WAKE begin one, MODE_REACHED ends it, with event 1984, once every domain has its FORCE's state (an error found in
the Summit region by the notice of it takes the device on to SAFE); the expiry of
Summit's watchdog takes DRIVEN channels to SAFE, where it is enabled, and the device to mode SAFE (R385, R387, R394). -/
def ModeChanges : Prop :=
  ∀ s : State, s.held = none →
    (s.mode = 2 → s.regBit (bootA 0x20) 8 = false → s.boot.final < 16 → Does .fullEntry s fun t => Pending s t s.boot.final) ∧
    (∀ m : Fin 3, s.mode = 7 → s.regBit (bootA 0x20) 8 = false → Does (.standbyWake m) s fun t =>
      Pending s t (if s.regBit (tbA 4) 2 = true then 4 + m.val else 2) ∧ (s.regBit (tbA 4) 2 = false → t.boot.final = 4 + m.val)) ∧
    (s.regBit (bootA 0x20) 8 = true → (∀ d < 62, s.forceDone d = true) → s.boot.summitErr = false → s.mode ≠ 1 → Does .modeReached s fun t =>
      t.mode = s.modeTarget ∧ (t.regBit (bootA 0x20) 8 = false ∨ t.modeTarget = 10) ∧ (s.modeTarget ≠ s.mode → ∃ v, (1984, v) ∈ t.events) ∧
      (s.modeTarget = s.mode → t.events = s.events)) ∧
    (Does .summitWatchdogExpiry s fun t =>
      (s.mode ∈ [2, 4, 5, 6, 8] → Pending s t 10 ∧ (s.regBit (bootA 0x20) 8 = false → ∀ c : Fin 8, t.dacState c ≠ 1)) ∧
      (s.regBit (hkA 4) 0 = true → ∀ c : Fin 8, s.dacState c = 1 → t.dacState c = 2 ∧ t.regFld (dacA c 4) 6 4 = 1) ∧
      (s.mode ∉ [2, 4, 5, 6, 8] → s.regBit (hkA 4) 0 = false → t = s))

/-- HOLDOVER_ENTRY sets the held codes and a rate of 0; HOLDOVER_WRITE makes a copy with the codes, which is then the newer valid one, and leaves the
other copy alone (R48, R377). -/
def Holdover : Prop :=
  ∀ s : State, s.held = none →
    (∀ v0 v1 : BitVec 16, Does (.holdoverEntry v0 v1) s fun t =>
      t.reg (dacA 0 8) = v0.setWidth 32 ∧ t.reg (dacA 1 8) = v1.setWidth 32 ∧ t.reg (tbA 0x40) = 0) ∧
    (∀ codes : Vector (BitVec 16) 8, Does (.holdoverWrite codes) s fun t => ∃ i, i < 2 ∧ t.holdBest = some i ∧ s.holdBest ≠ some i ∧
      (∀ c : Fin 8, imgLe (t.holdCopy i) (8 + 2 * c.val) 2 = codes[c].toNat) ∧ t.holdCopy (1 - i) = s.holdCopy (1 - i) ∧ t.regs = s.regs)

/-- The state in which the request at the head of the mailbox has been taken: CONS has gone on. -/
def taken (s : State) : State := s.postWrite .summitCtl (s.mbxBase + 8) (toBytes 2 (s.mbxHdr 8 + 1))

/-- The mailbox sends a message where its ring has room: the message is written at PROD, which goes on, with event 1997 (R423). -/
def MailboxSends : Prop :=
  ∀ (s : State) (op st tag : Nat) (args : List Byte), s.mbxReady = true → s.mbxRoom = true → args.length ≤ 56 →
    let p := s.regFld (mbxA 0x1C) 15 0
    let m := toBytes 2 op ++ toBytes 2 st ++ toBytes 4 tag ++ args ++ List.replicate (56 - args.length) 0
    let u := s.postWrite .summitCtl (s.mbxBase + 64 + 64 * s.mbxHdr 4 + 64 * (p % max 1 (s.mbxHdr 6))) m
    let t := s.mbxSend op st tag args
    t.mem = u.mem ∧ t.reg (mbxA 0x1C) = BitVec.ofNat 32 ((p + 1) % 65536) ∧ ∃ v, t.events = u.events ++ [(1997, v)]

/-- The requests of the mailbox, each taken and answered with its status: GET_STATUS, and BAD_OPCODE for an unknown one; SET_MODE with an unused code, the mode
it is in, or one it may not go to, which raises 1985; IMAGE_UPDATE outside UPDATE; SLOT_INVALIDATE of no slot or the running one, and of another,
whose header is erased; LINK_XFER, SENSOR_READ and LINK_TEST with their arguments out of range (R387, R388, R424, R425). The layout of the
arguments is the model's (its log says so). -/
def MailboxRequests : Prop :=
  ∀ (s : State) (m : List Byte), s.held = none → s.mbxHead = some m → s.mbxRoom = true →
    let op := imgLe m 0 2
    let tag := imgLe m 4 4
    let ans (u : State) (st : Nat) (d : List Byte) (t : State) : Prop := t = u.mbxSend op st tag d
    let arg := mbxArg m
    let at_ (o : Nat) : Nat := s.settled.leAt (s.mbxBase + 64 + 64 * (s.mbxHdr 8 % max 1 (s.mbxHdr 4)) + o) 8
    let u := taken s
    (mbxKnown op = false → Does .getStatus s (ans u 1 [])) ∧
    (op = 1 → Does .getStatus s (ans u.draw 0 (toBytes 4 (u.reg (bootA 0x20)).toNat ++ toBytes 4 (u.reg (bootA 0x10)).toNat ++
      toBytes 4 (u.reg (bootA 0x24)).toNat ++ toBytes 4 (u.free 0)))) ∧
    (op = 2 → s.regBit (bootA 0x20) 8 = false →
      (12 ≤ arg 0 → Does .setMode s (ans u 2 [])) ∧
      (arg 0 < 12 → arg 0 = u.mode → Does .setMode s (ans u 0 [])) ∧
      (arg 0 < 12 → arg 0 ≠ u.mode → modeAllowed u.mode (arg 0) = false → Does .setMode s (ans (u.raise 1985) 3 [])) ∧
      (arg 0 < 12 → arg 0 ≠ u.mode → modeAllowed u.mode (arg 0) = true → Does .setMode s (ans (u.goMode (arg 0)) 0 []))) ∧
    (op = 3 → s.regBit (bootA 0x20) 8 = false → ∀ listed readOk,
      (u.mode ≠ 8 → Does (.imageUpdate listed readOk) s (ans u 3 [])) ∧
      (u.mode = 8 →
        let p := at_ 8
        let l := u.settled.bytes p (arg 2)
        let k := 1 - u.boot.slot.getD 0
        let good := 0x3F0000000 ≤ p ∧ p + arg 2 ≤ 0x400000000 ∧ arg 2 = imgLen l ∧ headerOk l = true ∧ u.imageReject l = none ∧
          (imagePair l listed).1 = none
        let d := l.take 12 ++ toBytes 4 ((u.reg (bootA 0x28)).toNat + 1) ++ l.drop 16
        let w := (u.eraseHeader k).setBytes (spaceFlash + 0x2000000 * k) d
        (¬good → Does (.imageUpdate listed readOk) s (ans ((u.raise 1989).startMode u.boot.back) 5 [])) ∧
        (good → readOk = true → Does (.imageUpdate listed readOk) s (ans ((w.raise 1988).startMode w.boot.back) 0 [])) ∧
        (good → readOk = false → Does (.imageUpdate listed readOk) s (ans ((w.raise 1989).startMode w.boot.back) 5 [])))) ∧
    (op = 4 →
      let running := u.boot.slot = some (arg 0) ∧ ¬(u.mode = 3 ∧ u.slotOk (1 - arg 0) = true)
      (2 ≤ arg 0 → Does .slotInvalidate s (ans u 2 [])) ∧
      (arg 0 < 2 → running → Does .slotInvalidate s (ans u 3 [])) ∧
      (arg 0 < 2 → ¬running → Does .slotInvalidate s (ans (u.setBytes (spaceFlash + 0x2000000 * arg 0) (List.replicate 4096 0xFF)) 0 []))) ∧
    (op = 5 → ∀ (st : Fin 6) (d : List Byte),
      let p := at_ 24
      let inside := 0x3F0000000 ≤ p ∧ p + arg 3 ≤ 0x400000000
      (inside → Does (.linkXfer st d) s (ans (u.postWrite .summitMgmt p (d.take (arg 3))) st.val [])) ∧
      (¬inside → Does (.linkXfer st d) s (ans u 2 []))) ∧
    (op = 6 →
      (arg 0 < 2 → arg 1 < 32 → Does .sensorRead s (ans u 0 (toBytes 4 (u.reg (hkA (0x9000 + 0x100 * arg 0 + 4 * arg 1))).toNat))) ∧
      (¬(arg 0 < 2 ∧ arg 1 < 32) → Does .sensorRead s (ans u 2 []))) ∧
    (op = 7 →
      (u.mode ≠ 9 → Does .linkTest s (ans u 3 [])) ∧
      (∀ l : Fin 96, u.mode = 9 → arg 0 = l.val → u.hasLane l = true →
        Does .linkTest s (ans (u.setReg (lnA l 0x30) (BitVec.ofNat 32 (arg 1) &&& 0x73)) 0 [])) ∧
      (u.mode = 9 → (∀ l : Fin 96, arg 0 = l.val → u.hasLane l = false) → Does .linkTest s (ans u 2 [])))

end Sys2Proof.Machine

open Sys2Proof Sys2Proof.Machine

/-! Global -/

/-- A step with command c at the front of the queue is exec of c on the state with the queue's rest. -/
def Obligations.StepTakesFrontCommand : Prop :=
  ∀ (s : State) (c : Instr) (rest : List Instr), s.pending = c :: rest → step s = exec c { s with pending := rest }

/-- On an empty queue a step is one cycle of the timebase (the model's choice, log entry 2): the count changes by 1, or by 0 or 2 where the
accumulator carries, once the PLL has locked; before that nothing changes. Where the model chose a reading: log entry 13. -/
def Obligations.IdleStepIsTimebaseCycle : Prop :=
  ∀ s : State, s.pending = [] → ∃ t, step s = .next t ∧
    (s.tb.started = false → t = s) ∧
    (s.tb.started = true →
      (s.carries = false → t.tb.now = s.tb.now + 1) ∧
      (s.carries = true → 0 < s.rateAct → t.tb.now = s.tb.now + 2) ∧
      (s.carries = true → s.rateAct ≤ 0 → t.tb.now = s.tb.now) ∧
      t.mem = s.mem ∧ t.cores = s.cores ∧ t.engines = s.engines)

/-- Every command has an outcome and the device goes on: there is no fault and no refusal. Where the model chose a reading: log entries 1 and
8. -/
def Obligations.EveryCommandAnswers : Prop := ∀ (c : Instr) (s : State), ∃ t, exec c s = .next t

/-! Resets (R370, R434, R444, R445) -/

/-- While a reset is held, a command that is no reset changes nothing: no requester inside the device runs (R445). -/
def Obligations.HeldDeviceIsStill : Prop :=
  ∀ (c : Instr) (s : State), s.held ≠ none → isReset c = false → exec c s = .next s

/-- While a reset is held and no reset command waits, every step leaves all of the state but the timebase and the queue as it is: registers,
memory, cores, engines, flumes, lanes and all other units. Where the model chose a reading: log entry 2. -/
def Obligations.HeldDeviceStaysStill : Prop :=
  ∀ z s t : State, Still z s → step s = .next t → Still z t

/-- After reset no core runs, no command waits, no engine holds a command, no register write or memory byte is listed, and the memory has its
canonical form. Where the model chose a reading: log entries 3, 4 and 7. -/
def Obligations.ResetState : Prop :=
  State.reset.pending = [] ∧ State.reset.mem = [] ∧ Memory.wf State.reset.mem = true ∧ State.reset.held = none ∧
  (∀ x : Fin 192, State.reset.cores[x].run = .idle ∧ State.reset.cores[x].ctl = 2) ∧
  (∀ e : Fin 80, State.reset.engines[e].queue = []) ∧ State.reset.tb.now = 0 ∧ State.reset.tb.started = false ∧
  State.reset.reg (bootA 0x20) = 1 ∧ State.reset.reg (tbA 0x70) = 0x1000

/-! Memory and registers -/

/-! Tarn core: S slots -/

/-- ADD, SUB, AND, OR, XOR, SHL, SHR, SRA, CMPEQ, CMPLT, CMPLTU, MIN, MAX, ADDS, SUBS, MUL and MULH write their result to d[rd] with the
latency of the opcode map, set SAT where they saturate, and change nothing outside their core. Where the model chose a reading: log entry
6. -/
def Obligations.TwoSourceResults : Prop :=
  ∀ i ∈ twoSource, ∀ (b : IssueS) (rd rs1 rs2 : BitVec 5) (s : State),
    Completing s b.core (b.bundle { mn := i.mn, rd := rd, rs1 := rs1, rs2 := rs2 }) →
    ∃ t, exec (i.cmd b rd rs1 rs2) s = .next t ∧
      Writes t b.core (dReg rd) 0 32 (i.val ((s.view b.core).d rs1) ((s.view b.core).d rs2)).1.toNat i.lat ∧
      Flagged t b.core 9 ((i.val ((s.view b.core).d rs1) ((s.view b.core).d rs2)).2 = true) ∧ OnlyCore s t b.core

/-! Tarn core: program flow, exceptions, control registers -/

/-- BCC, CALL, JR and CALLR transfer control with two delay slots; CALL and CALLR write the address of the bundle after the second delay slot
to a15; an annulling branch that is not taken annuls its slots (R60, R66). Where the model chose a reading: log entries 6, 94 and 108. -/
def Obligations.ControlTransfers : Prop :=
  ∀ (b : IssueS) (cond : BitVec 4) (rs : BitVec 5) (annul : Bool) (off : BitVec 16) (far : BitVec 26) (s : State),
    let k := s.view b.core
    let pc := s.cores[b.core].fg.pc
    let met := condMet cond (k.dEarly rs)
    (Completing s b.core (b.bundle { mn := .bcc, cond := cond, rs1 := rs, flag := annul, imm := off.setWidth 26 }) →
      ∃ t, exec (.bcc b cond rs annul off) s = .next t ∧ Transferred s t b.core met (bundlesOn pc off.toInt) (annul && !met)) ∧
    (Completing s b.core (b.bundle { mn := .call, imm := far }) →
      ∃ t, exec (.call b far) s = .next t ∧ Transferred s t b.core true (bundlesOn pc far.toInt) false ∧
        Writes t b.core (aReg 15) 0 40 (bundlesOn pc 3).toNat 1) ∧
    (Completing s b.core (b.bundle { mn := .jr, rs1 := rs }) →
      ∃ t, exec (.jr b rs) s = .next t ∧ Transferred s t b.core true (bundleAddr (k.aEarly (low4 rs))) false) ∧
    (Completing s b.core (b.bundle { mn := .callr, rs1 := rs }) →
      ∃ t, exec (.callr b rs) s = .next t ∧ Transferred s t b.core true (bundleAddr (k.aEarly (low4 rs))) false ∧
        Writes t b.core (aReg 15) 0 40 (bundlesOn pc 3).toNat 1)

/-- LOOP sets its level's registers and starts the body, or skips it for a count of 0 (R69); REP repeats the next bundle count times, or skips
it (R72), here where the rep bundle ends no active block repeat; RFE goes to tc.epc after two annulled slots (R66, R85). The bundle writes
no CSR in S1. Where the model chose a reading: log entries 6, 22, 89, 94, 107 and 108. -/
def Obligations.LoopRepRfe : Prop :=
  ∀ (b : IssueS) (level : BitVec 2) (src : Bool) (count : BitVec 10) (fin : BitVec 13) (imm : BitVec 16) (s : State),
    let k := s.view b.core
    let pc := s.cores[b.core].fg.pc
    let i : Bundle := b.bundle { mn := .loop, cond := level.setWidth 4, flag := src, imm := count.setWidth 26, fin := fin }
    let r : Bundle := b.bundle { mn := .rep, flag := src, imm := imm.setWidth 26 }
    let e : Bundle := b.bundle { mn := .rfe }
    let noCsr (q : Bundle) : Prop := (s.slotEffs b.core k q).flatMap (·.csr) = []
    let n : Word := if src then k.dEarly (count.setWidth 5) else count.setWidth 32
    let m : Nat := if src then (k.dEarly (imm.setWidth 5)).toNat % 2 ^ 16 else imm.toNat
    (Completing s b.core i → noCsr i →
      ∃ t, exec (.loop b level src count fin) s = .next t ∧ OnlyCore s t b.core ∧
        t.cores[b.core].fg.ls[level.toNat % 3]'(by omega) = bundlesOn pc 1 ∧
        t.cores[b.core].fg.le[level.toNat % 3]'(by omega) = bundlesOn pc fin.toNat ∧
        t.cores[b.core].fg.lc[level.toNat % 3]'(by omega) = n ∧
        t.cores[b.core].fg.pc = bundleAddr (bundlesOn pc (if n = 0 then fin.toNat + 1 else 1))) ∧
    (Completing s b.core r → noCsr r → k.fg.ends pc = false →
      ∃ t, exec (.rep b src imm) s = .next t ∧ OnlyCore s t b.core ∧
        (m = 0 → t.cores[b.core].fg.pc = bundleAddr (bundlesOn (bundlesOn pc 1) 1) ∧ t.cores[b.core].repOn = false) ∧
        (m ≠ 0 → t.cores[b.core].fg.pc = bundleAddr (bundlesOn pc 1) ∧ t.cores[b.core].repOn = true ∧
          t.cores[b.core].fg.rc = BitVec.ofNat 16 (m - 1))) ∧
    (Completing s b.core e →
      ∃ t, exec (.rfe b) s = .next t ∧ OnlyCore s t b.core ∧
        t.cores[b.core].delay = some ⟨1, true, bundleAddr k.epc, true, some (k.estatus, k.etarget)⟩ ∧
        t.cores[b.core].fg.pc = bundleAddr (bundlesOn pc 1))

/-- A synchronous exception while EXL is 1 is a double fault: the core stops fetching, tc.estatus, tc.cause, tc.epc and tc.eaddr stand, event
c is raised, and the thread is reported as faulted (R86). Where the model chose a reading: log entries 97 and 98. -/
def Obligations.DoubleFault : Prop :=
  ∀ (s : State) (x : Fin 192) (q : Bundle) (e : Exc), Raising s x q e → bit s.cores[x].fg.status 2 = true →
    let t := s.issue x q
    t.cores[x].run = .faulted ∧ t.cores[x].estatus = s.cores[x].estatus ∧ t.cores[x].cause = s.cores[x].cause ∧
      t.cores[x].epc = s.cores[x].epc ∧ t.cores[x].eaddr = s.cores[x].eaddr ∧
      (s.cores[x].fgT = none → t.events = s.events ++ [(x.val, s.reg (routeAddr x.val))]) ∧
      (∀ h, s.cores[x].fgT = some h → t.cores[x].switchReq = true ∧ (x.val, s.reg (routeAddr x.val)) ∈ t.events)

/-- A write of a whole register in flight is seen by E1 readers from L bundles after it, and by D-stage readers from L + 1, and the old value
before (R62), where it is the only write of the register in flight. Where the model chose a reading: log entry 88. -/
def Obligations.LatencyOfWrites : Prop :=
  ∀ (k : Core) (r : TReg) (n v lat age : Nat) (p q : List Pend), (∀ w ∈ p ++ q, w.reg ≠ r) → v < 2 ^ n → k.fg.get r < 2 ^ n →
    k.pend = p ++ { wr r 0 n v lat with age := age } :: q →
    (lat ≤ age → k.seen r 0 false = v) ∧ (age < lat → k.seen r 0 false = k.fg.get r) ∧
    (lat + 1 ≤ age → k.seen r 1 false = v) ∧ (age < lat + 1 → k.seen r 1 false = k.fg.get r)

/-! Tarn core: memory access -/

/-- LD_B, LD_BU, LD_H, LD_HU, LD_W, LD_A and LD_D read their bytes as the bus gives them and write them to their registers with latency 3,
update the address register, and change nothing else (R61, R62, R73). Where the model chose a reading: log entries 6, 24 and 37. -/
def Obligations.ScalarLoads : Prop :=
  ∀ (b : IssueM) (r : BitVec 5) (p : AddrOp) (s u : State) (d : List Byte),
    let x := b.core
    let done (i : Scalar) (c : State → Prop) : Prop :=
      Accessing s x (b.bundle (i.ins r p)) → s.busRead (.core x) (operand s x (i.ins r p)).addr.toNat i.size = (u, .ok d) →
      ∃ t, exec (i.cmd b r p) s = .next t ∧ c t ∧ Updates s t x (i.ins r p) ∧ t.mem = u.mem ∧ OnlyCore u t x ∧
        CoreFrame (u.view x) t.cores[x] (b.bundle (i.ins r p))
    (∀ i ∈ wordLoads, done i.1 fun t => Writes t x (dReg r) 0 32 (BitVec.ofInt 32 (i.2 (ofBytes d))).toNat 3) ∧
    done ⟨.ldA, .lda, 8⟩ (fun t => Writes t x (aReg (low4 r)) 0 40 (ofBytes d) 3) ∧
    done ⟨.ldD, .ldd, 8⟩ (fun t => Writes t x (dReg r) 0 32 (ofBytes d % 2 ^ 32) 3 ∧ Writes t x (dReg (r + 1)) 0 32 (ofBytes d / 2 ^ 32 % 2 ^ 32) 3)

/-- ST_B, ST_H, ST_W, ST_A and ST_D write their bytes, lowest first, at the address of their operand, update the address register, and write
no other register (R61, R73). Where the model chose a reading: log entries 6 and 37. -/
def Obligations.ScalarStores : Prop :=
  ∀ (b : IssueM) (r : BitVec 5) (p : AddrOp) (s u : State), ∀ i ∈ stored (s.view b.core) r,
    let x := b.core
    let q := b.bundle (i.1.ins r p)
    Accessing s x q →
    s.busWrite (.core x) (operand s x (i.1.ins r p)).addr.toNat (wholeBytes (toBytes i.1.size i.2)) = (u, .ok []) →
    ∃ t, exec (i.1.cmd b r p) s = .next t ∧ t.mem = u.mem ∧ Updates s t x (i.1.ins r p) ∧ OnlyCore u t x ∧ CoreFrame (u.view x) t.cores[x] q

/-- A core reads and writes its own tile memory: a read gives the bytes where their check bits hold; a write changes exactly the bytes
written, makes their check bits fit, and no other byte of memory (10_memory_protection.md R234, R235), where no mask is armed. Where the
model chose a reading: log entry 37. -/
def Obligations.OwnTileMemory : Prop :=
  ∀ (s : State) (x : Fin 192) (a n : Nat) (data : List Byte), OwnTile s x a n → data.length = n →
    ((∀ j < n, s.tileSyn (a + j) = 0) → s.busRead (.core x) a n = (s, .ok (s.bytes a n))) ∧
    (s.flipSel (x.val / 8) = none → ∃ u, s.busWrite (.core x) a (wholeBytes data) = (u, .ok []) ∧ u.bytes a n = data ∧
      (∀ p, (p < a ∨ a + n ≤ p) → u.byte p = s.byte p ∧ u.tileSyn p = s.tileSyn p) ∧ (∀ j < n, u.tileSyn (a + j) = 0) ∧
      { u with mem := s.mem, prot := s.prot } = s)

/-- Failing checks of a scalar access are reported in the order ALIGN, DATA_PROT, CIRC_OUT, no access is made, and a bus error is DATA_ERR
(R84); the address, or for CIRC_OUT the pointer, is in tc.eaddr. Where the model chose a reading: log entries 91 and 96. -/
def Obligations.AccessExceptions : Prop :=
  ∀ (b : IssueM) (r : BitVec 5) (p : AddrOp) (s u : State),
    let x := b.core
    ∀ i ∈ wordLoads.map (·.1) ++ [⟨.ldA, .lda, 8⟩, ⟨.ldD, .ldd, 8⟩] ++ (stored (s.view x) r).map (·.1),
      let o := operand s x (i.ins r p)
      let a := o.addr.toNat
      let store := i.mn.store
      Issues s x (b.bundle (i.ins r p)) → excs (s.slotEffs x (s.view x) (b.bundle (i.ins r p))) = [] →
      bit s.cores[x].fg.status 2 = false →
      let enters (w : State) (e : Exc) : Prop := ∃ t, exec (i.cmd b r p) s = .next t ∧ Entered s.compat (s.view x) t x e ∧ OnlyCore w t x
      (a % i.size ≠ 0 → enters s ⟨0x06, 2, o.addr, 0⟩) ∧
      (a % i.size = 0 → (s.view x).dataOk store a i.size = false → enters s ⟨0x07, 2, o.addr, 0⟩) ∧
      (a % i.size = 0 → (s.view x).dataOk store a i.size = true → o.out = true → bit s.cores[x].ctl 0 = true →
        enters s ⟨0x09, 2, o.ptr, 0⟩) ∧
      (Accessing s x (b.bundle (i.ins r p)) → store = false → s.busRead (.core x) a i.size = (u, .err) → u.cores = s.cores →
        u.compat = s.compat → enters u ⟨0x08, 2, o.addr, 0⟩) ∧
      (∀ v, (i, v) ∈ stored (s.view x) r → Accessing s x (b.bundle (i.ins r p)) →
        s.busWrite (.core x) a (wholeBytes (toBytes i.size v)) = (u, .err) → u.cores = s.cores → u.compat = s.compat →
        enters u ⟨0x08, 2, o.addr, 0⟩)

/-- The rule of circular addressing (R73, R75): out of range before the update it is linear and flagged; else it wraps once above and, while
COMPAT is 0, once below; while COMPAT is 1 a pointer below base moves linearly unflagged. -/
def Obligations.CircularUpdates : Prop :=
  ∀ (compat : Bool) (ptr base : Addr) (len : BitVec 24) (inc : Int),
    let lim : Addr := base + len.setWidth 40
    let off : Int := (ptr.toNat : Int) - base.toNat + inc
    let lin : Addr := ptr + BitVec.ofInt 40 inc
    (lim.toNat ≤ ptr.toNat → circular compat ptr base len inc = (lin, true)) ∧
    (ptr.toNat < base.toNat → ptr.toNat < lim.toNat → circular compat ptr base len inc = (lin, !compat)) ∧
    (base.toNat ≤ ptr.toNat → ptr.toNat < lim.toNat →
      (0 ≤ off → off < len.toNat → circular compat ptr base len inc = (base + BitVec.ofInt 40 off, false)) ∧
      (len.toNat ≤ off → circular compat ptr base len inc = (base + BitVec.ofInt 40 (off - len.toNat), false)) ∧
      (off < 0 → circular compat ptr base len inc =
        (base + BitVec.ofInt 40 (if compat then off else off + len.toNat), false)))

/-- A long-vector access that fails in a later beat: the exception records VRESUME and the failing element in tc.vxi, the address register is
not updated, and the core enters the handler (R102); the accesses of the beats before have been made. Where the model chose a reading: log
entries 22, 23 and 110. -/
def Obligations.LateVectorFault : Prop :=
  ∀ (s : State) (x : Fin 192) (q : Bundle) (f : Nat × Exc × Nat), Issues s x q → q.m.mn.long = true →
    excs (s.slotEffs x (s.view x) q) = [] → (s.slotEffs x (s.view x) q).flatMap (·.csr) = [] → bit s.cores[x].fg.status 2 = false →
    let r := (vAccess x (s.view x) q.m (operand s x q.m) none).run (s.view x) (circTrap (s.view x) (operand s x q.m)) { s := s }
    r.job.waits = none → r.fault = some f → f.2.2 ≠ 0 → r.job.s.cores = s.cores →
    let t := s.issue x q
    t.mem = r.job.s.mem ∧ bit t.cores[x].estatus 4 = true ∧ t.cores[x].epc = s.cores[x].fg.pc ∧ t.cores[x].eaddr = f.2.1.eaddr ∧
      t.cores[x].fg.vxi = BitVec.ofNat 7 f.1 ∧ fld t.cores[x].cause 7 0 = f.2.1.code % 256 ∧
      t.cores[x].fg.pc = bundleAddr (s.cores[x].vbase + BitVec.ofNat 40 (f.2.1.code * 0x40)) ∧
      (aReg q.m.an ∉ ((s.slotEffs x (s.view x) q).flatMap (·.writes)).map (·.reg) →
        t.cores[x].fg.get (aReg q.m.an) = (s.view x).drain.fg.get (aReg q.m.an))

/-! Tarn core: V slot -/

/-- Multiplies and accumulates: VMULW, VMAC, VMSU, VCMAC, VCMSU and VDOT8; ACC_OVF is set where a lane's exact value lies outside 48 bits
(R106, R108, R109). Where the model chose a reading: log entry 6. -/
def Obligations.VectorAccumulates : Prop :=
  ∀ (b : IssueV) (vd va vb : BitVec 5) (h c : Bool) (s : State),
    let x := b.core
    let k := s.view x
    let e (w j : Nat) (r : BitVec 5) : Int := el w j (k.seen (lvReg r) 0 false)
    let lane (j : Nat) : Int := el 48 j (k.seen (vaccReg vd) 0 true)
    let o := 32 * h.toNat
    let pair (j : Nat) : Int := e 16 (2 * j) va * e 16 (2 * j) vb + e 16 (2 * j + 1) va * e 16 (2 * j + 1) vb
    let conj (v : Int) : Int := if c then -v else v
    let re (j : Nat) : Int := e 16 (o + 2 * j) va * e 16 (o + 2 * j) vb - e 16 (o + 2 * j + 1) va * conj (e 16 (o + 2 * j + 1) vb)
    let im (j : Nat) : Int := e 16 (o + 2 * j) va * conj (e 16 (o + 2 * j + 1) vb) + e 16 (o + 2 * j + 1) va * e 16 (o + 2 * j) vb
    let cplx (j : Nat) : Int := if j % 2 = 0 then re (j / 2) else im (j / 2)
    let acc (i : Instr) (q : VIns) (f : Nat → Int) : Prop := Completing s x (b.bundle q) →
      ∃ t, exec i s = .next t ∧ OnlyCore s t x ∧ WritesElems t x (vaccReg vd) 0 48 32 3 f 1 ∧
        Flagged t x 10 (∃ j < 32, f j < -(2 ^ 47) ∨ 2 ^ 47 ≤ f j)
    let u8 (j : Nat) : Int := if c then (element 8 j (k.seen (lvReg va) 0 false)).toNat else e 8 j va
    (Completing s x (b.bundle { mn := .vmulw, vd := vd, va := va, vb := vb, h := h }) →
      ∃ t, exec (.vmulw b vd va vb h) s = .next t ∧ OnlyCore s t x ∧
        WritesElems t x (lvReg vd) 0 32 32 2 fun j => e 16 (o + j) va * e 16 (o + j) vb) ∧
    acc (.vmac b vd va vb) { mn := .vmac, vd := vd, va := va, vb := vb } (fun j => lane j + pair j) ∧
    acc (.vmsu b vd va vb) { mn := .vmsu, vd := vd, va := va, vb := vb } (fun j => lane j - pair j) ∧
    acc (.vcmac b vd va vb h c) { mn := .vcmac, vd := vd, va := va, vb := vb, h := h, c := c } (fun j => lane j + cplx j) ∧
    acc (.vcmsu b vd va vb h c) { mn := .vcmsu, vd := vd, va := va, vb := vb, h := h, c := c } (fun j => lane j - cplx j) ∧
    (Completing s x (b.bundle { mn := .vdot8, vd := vd, va := va, vb := vb, c := c }) →
      ∃ t, exec (.vdot8 b vd va vb c) s = .next t ∧ OnlyCore s t x ∧ WritesElems t x (lvReg vd) 0 32 32 2 (fun j =>
        el 32 j (k.seen (lvReg vd) 0 true) + u8 (4 * j) * e 8 (4 * j) vb + u8 (4 * j + 1) * e 8 (4 * j + 1) vb +
          u8 (4 * j + 2) * e 8 (4 * j + 2) vb + u8 (4 * j + 3) * e 8 (4 * j + 3) vb) 1)

/-- Narrowing transfers VNARROW_H, VNARROW_W and VPACK shift right, then saturate with S or keep the low bits (R107, R110); VACCRD, VACCWR and
VCLR move lanes (R106, R111). Where the model chose a reading: log entry 6. -/
def Obligations.VectorNarrowing : Prop :=
  ∀ (b : IssueV) (vd va vb : BitVec 5) (h sat r : Bool) (imm6 : BitVec 6) (s : State),
    let x := b.core
    let k := s.view x
    let n := if r then (k.d vb).toNat % 64 else imm6.toNat
    let e (j : Nat) (q : BitVec 5) : Int := el 32 j (k.seen (lvReg q) 0 false)
    let lane (j : Nat) : Int := el 48 j (k.seen (vaccReg va) 0 false)
    let cut (w : Nat) (v : Int) : Int := if sat then satTo w v else v
    let done (i : Instr) (q : VIns) (reg : TReg) (at_ w : Nat) (f : Nat → Int) : Prop := Completing s x (b.bundle q) →
      ∃ t, exec i s = .next t ∧ OnlyCore s t x ∧ WritesElems t x reg at_ w 32 2 (fun j => cut w (f j)) ∧
        Flagged t x 9 (sat = true ∧ ∃ j < 32, outside w (f j) = true)
    done (.vnarrowH b vd va vb h sat r imm6) { mn := .vnarrowh, vd := vd, va := va, vb := vb, h := h, s := sat, r := r, imm6 := imm6 }
      (lvReg vd) (512 * h.toNat) 16 (fun j => lane j / 2 ^ min n 47) ∧
    done (.vnarrowW b vd va vb sat r imm6) { mn := .vnarroww, vd := vd, va := va, vb := vb, s := sat, r := r, imm6 := imm6 }
      (lvReg vd) 0 32 (fun j => lane j / 2 ^ min n 47) ∧
    done (.vpack b vd va vb h sat r imm6) { mn := .vpack, vd := vd, va := va, vb := vb, h := h, s := sat, r := r, imm6 := imm6 }
      (lvReg vd) (512 * h.toNat) 16 (fun j => e j va / 2 ^ min n 31) ∧
    (Completing s x (b.bundle { mn := .vaccrd, vd := vd, va := va, h := h }) →
      ∃ t, exec (.vaccrd b vd va h) s = .next t ∧ OnlyCore s t x ∧
        WritesElems t x (lvReg vd) 0 32 32 2 fun j => if h then lane j / 2 ^ 32 else lane j) ∧
    (Completing s x (b.bundle { mn := .vaccwr, vd := vd, va := va, vb := vb }) →
      ∃ t, exec (.vaccwr b vd va vb) s = .next t ∧ OnlyCore s t x ∧
        WritesElems t x (vaccReg vd) 0 48 32 1 fun j =>
          e j vb * 2 ^ 32 + (element 32 j (k.seen (lvReg va) 0 false)).toNat) ∧
    (Completing s x (b.bundle { mn := .vclr, vd := vd }) →
      ∃ t, exec (.vclr b vd) s = .next t ∧ OnlyCore s t x ∧ WritesElems t x (vaccReg vd) 0 48 32 1 fun _ => 0)

/-- Moves of elements and of whole registers: VMOVS, VINS, VBCST_S, VGETC, VPUTC, VCONJ, VSWAP, VMOV, VBCST_H and VBCST_W; VINS and VPUTC
write one element and one chunk only (R106, R113). Where the model chose a reading: log entry 6. -/
def Obligations.VectorMoves : Prop :=
  ∀ (b : IssueV) (vd va : BitVec 5) (imm6 : BitVec 6) (s : State),
    let x := b.core
    let k := s.view x
    let n := imm6.toNat % 8
    let lv := k.seen (lvReg va) 0 false
    let sv := k.seen (svReg va) 0 false
    let e (j : Nat) : Int := el 16 j lv
    let d : Int := ((k.d va).setWidth 16).toInt
    let done (i : Instr) (q : VIns) (c : State → Prop) : Prop :=
      Completing s x (b.bundle q) → ∃ t, exec i s = .next t ∧ OnlyCore s t x ∧ c t
    let i (m : VMn) : VIns := { mn := m, vd := vd, va := va }
    let n6 (m : VMn) : VIns := { i m with imm6 := imm6 }
    done (.vmovs b vd va imm6) (n6 .vmovs) (fun t => Writes t x (dReg vd) 0 32 (BitVec.ofInt 32 (el 16 n sv)).toNat 1) ∧
    done (.vins b vd va imm6) (n6 .vins) (fun t => Writes t x (svReg vd) (16 * n) 16 ((k.d va).setWidth 16).toNat 1) ∧
    done (.vgetc b vd va imm6) (n6 .vgetc) (fun t => Writes t x (svReg vd) 0 128 (element 128 n lv).toNat 1) ∧
    done (.vputc b vd va imm6) (n6 .vputc) (fun t => Writes t x (lvReg vd) (128 * n) 128 sv 1) ∧
    done (.vbcstS b vd va) (i .vbcsts) (fun t => WritesElems t x (svReg vd) 0 16 8 1 fun _ => d) ∧
    done (.vconj b vd va) (i .vconj) (fun t =>
      WritesElems t x (lvReg vd) 0 16 64 1 (fun j => if j % 2 = 1 then satTo 16 (-e j) else e j) ∧
      Flagged t x 9 (∃ j < 32, e (2 * j + 1) = -32768)) ∧
    done (.vswap b vd va) (i .vswap) (fun t => WritesElems t x (lvReg vd) 0 16 64 1 fun j => e (if j % 2 = 0 then j + 1 else j - 1)) ∧
    done (.vmov b vd va) (i .vmov) (fun t => Writes t x (lvReg vd) 0 1024 lv 1) ∧
    done (.vbcstH b vd va) (i .vbcsth) (fun t => WritesElems t x (lvReg vd) 0 16 64 1 fun _ => d) ∧
    done (.vbcstW b vd va) (i .vbcstw) (fun t => WritesElems t x (lvReg vd) 0 32 32 1 fun _ => (k.d va).toInt)

/-- The frame of the instructions: a command of an instruction issues its bundle, and a bundle without an access that completes changes only
what its instructions write (R51 to R56, R60, R106). Where the model chose a reading: log entries 6, 89 and 94. -/
def Obligations.InstructionFrames : Prop := CommandsIssue ∧ PlainFrame

/-! Tarn core: cpx and requests -/

/-- CPX: checked in the order of R116, the first failure raising its exception with nothing sent: no such class, undefined class, busy tag,
pointer outside own tile and ridge pool, misaligned pointer, block not readable; else the command is sent and the core awaits its answer
(R114 to R118). No other slot raises an exception, and EXL is 0. Where the model chose a reading: log entries 6 and 96. -/
def Obligations.CpxSent : Prop :=
  ∀ (b : IssueM) (tag : BitVec 6) (an : BitVec 4) (flag : BitVec 5) (func : BitVec 8) (s : State),
    let x := b.core
    let k := s.view x
    let q := b.bundle (cpxIns tag an flag func)
    let ptr := k.a an
    let cls := func.toNat / 32
    Issues s x q → excs (s.slotEffs x k q) = [] → bit s.cores[x].fg.status 2 = false →
    let enters (code sub : Nat) : Prop := ∃ t, exec (.cpx b tag an flag func false) s = .next t ∧
      Entered s.compat k t x ⟨code, 2, ptr, sub⟩ ∧ t.engSent = s.engSent ∧ tagBusy t x tag = tagBusy s x tag
    let refused (code : Nat) : Prop := enters 0x05 code ∧ ∃ t, exec (.cpx b tag an flag func false) s = .next t ∧
      t.reg (cqA x 0x24) = s.reg (cqA x 0x24) + 1
    let good : Prop := cls ∉ [3, 6, 7] ∧ tagBusy s x tag = false ∧ nearPtr x ptr.toNat = true
    (cls = 3 ∨ cls = 6 → refused 2) ∧ (cls = 7 → refused 3) ∧
    (cls ∉ [3, 6, 7] → tagBusy s x tag = true → refused 1) ∧
    (cls ∉ [3, 6, 7] → tagBusy s x tag = false → nearPtr x ptr.toNat = false → refused 4) ∧
    (good → ptr.toNat % 64 ≠ 0 → enters 0x06 0) ∧
    (good → ptr.toNat % 64 = 0 → k.dataOk false ptr.toNat 64 = false → enters 0x07 0) ∧
    (good → ptr.toNat % 64 = 0 → k.dataOk false ptr.toNat 64 = true →
      ∃ t e, exec (.cpx b tag an flag func false) s = .next t ∧ engOfClass x cls = some e ∧ OnlyCore { s with engSent := t.engSent } t x ∧
        t.cores[x] = { s.cores[x] with wait := some ⟨q, false, false, tag, flag, func, ptr⟩ } ∧
        ∃ c, t.engSent = s.engSent ++ [⟨e, c, false⟩] ∧ c.core = x ∧ c.tag = tag ∧ c.flag = flag ∧ c.func = func ∧ c.ptr = ptr.toNat ∧
          c.committed = false)

/-- CPX_ANSWER with ACCEPT: the tag becomes busy and its DONE bit clears, the command is counted, COMMIT is sent, and the bundle completes
(R117, R121); a bundle whose other slots raise an exception sends CANCEL, which frees the tag (R122). With REFUSE the bundle raises
CPX_REFUSED with the code as SUB (R118). The cpx is not squashed or annulled, and EXL is 0. Where the model chose a reading: log entry 96. -/
def Obligations.CpxAnswered : Prop :=
  ∀ (s : State) (x : Fin 192) (w : CpxWait) (r : CpxReply), s.held = none → s.cores[x].wait = some w → w.squashed = false →
    w.annulled = false → s.replies.find? (fun r => decide (r.core = x)) = some r → bit s.cores[x].fg.status 2 = false →
    let k := s.view x
    let o := w.tag.toNat / 32 * 4
    let i := w.tag.toNat % 32
    let es := s.slotEffs x k w.bundle
    let answered (t : State) : Prop := exec (.cpxAnswer x) s = .next t ∧ t.replies = s.replies.erase r ∧ t.cores[x].wait = none
    (∀ e, r.refuse = none → r.eng = some e → excs es = [] →
      ∃ t, answered t ∧ t.regBit (cqA x (8 + o)) i = true ∧ t.regBit (cqA x (0x10 + o)) i = false ∧
        t.reg (cqA x 0x20) = s.reg (cqA x 0x20) + 1 ∧ t.engMsgs = s.engMsgs ++ [⟨e, x, w.tag, false⟩] ∧
        t.cores[x].pend = k.pend ++ es.flatMap (·.writes)) ∧
    (∀ e f, r.refuse = none → r.eng = some e → worst (excs es) = some f →
      ∃ t, answered t ∧ t.regBit (cqA x (8 + o)) i = false ∧ t.engMsgs = s.engMsgs ++ [⟨e, x, w.tag, true⟩] ∧ Entered s.compat k t x f) ∧
    (∀ code, r.refuse = some code → excs es = [] →
      ∃ t, answered t ∧ t.reg (cqA x 0x24) = s.reg (cqA x 0x24) + 1 ∧ t.engMsgs = s.engMsgs ∧
        Entered s.compat k t x ⟨0x05, 2, w.ptr, code⟩)

/-! Registers -/

/-- R15: an access to an address, or to a register-block slot, that no row of the tables of R12 to R14 assigns completes as a bus error, reading
or writing, and changes nothing. -/
def Obligations.UnassignedAddresses : Prop :=
  ∀ (s : State) (req : Requester) (a n : Nat) (data : List WByte), a < 2 ^ 40 → assigned a = false → 0 < n → data ≠ [] →
    s.busRead req a n = (s, .err) ∧ s.busWrite req a data = (s, .err)

/-- A write that the plane of its requester does not permit changes no register but the record of the violation and the event's counter: it
is a bus error and raises event 2000 (R19). -/
def Obligations.PlaneViolations : Prop :=
  ∀ (s : State) (req : Requester) (b : Block) (o : Nat) (v : Word), s.held = none → s.gate req (b.at o) 4 = none →
    s.clearWay req (b.at o) → decodeAddr s.part (b.at o) = .block b o → s.mayWrite req b o = false →
    b.at o % 4 = 0 → b.at o < 2 ^ 40 →
    ∃ t, exec (.registerWrite req (BitVec.ofNat 40 (b.at o)) v) s = .next t ∧ t.acc = .busError ∧
      t.events = s.events ++ [(2000, s.reg (routeAddr 2000))] ∧ t.mem = s.mem ∧
      t.reg (Block.evf.at 0x20) = BitVec.ofNat 32 (b.at o) ∧
      ∀ a, a ∉ [Block.evf.at 0x20, Block.evf.at 0x24, countAddr 2000] → t.reg a = s.reg a

/-- Commands of the self port, stores of a core of the dispatcher's range: OP_WAIT, OP_WAIT_UNTIL, OP_SLEEP_UNTIL, OP_YIELD, OP_EXIT, OP_DONE,
SELF_DL_HI_WRITE, SELF_LEVEL_WRITE, LOCK_ENTER and LOCK_RELEASE (R157). Where the model chose a reading: log entries 43 and 119. -/
def Obligations.SelfPortCommands : Prop :=
  ∀ (x : Fin 192) (all : Bool) (op : Fin 5) (v : Word) (l : BitVec 8) (n : BitVec 16) (s : State),
    let d := fun (o : Nat) (w : Word) => s.selfWrite x o w
    let a : Word := if all then 0x10 else 0
    ∀ i ∈ [(Instr.opWait x all, 0x7010, 1 ||| a), (.opWaitUntil x all, 0x7010, 2 ||| a), (.opSleepUntil x, 0x7010, 3), (.opYield x, 0x7010, 4),
        (.opExit x, 0x7010, 5), (.opDone x op all, 0x7010, BitVec.ofNat 32 (op.val + 0x21) ||| a), (.selfDlHiWrite x v, 0x701C, v),
        (.selfLevelWrite x v, 0x7038, v), (.lockEnter x l, 0x7020, l.setWidth 32),
        (.lockRelease x l n, 0x7028, BitVec.ofNat 32 (n.toNat + 2 ^ 16 * l.toNat))],
      Granted s (.core x) (.dpt (coreRange x).val) i.2.1 → exec i.1 s = .next (d i.2.1 i.2.2).granted

/-! Engines (05_command_queue.md, 07_ridge_engines.md, 09_narrowband_engines.md) -/

/-- LDPC_ENC, LDPC_DEC, TURBO_ENC, TURBO_DEC, POLAR_ENC, POLAR_DEC, CRC, OFDM_DEMOD, OFDM_MOD, DFT, CHEST, EQUALISE, BURST_RX and BURST_TX:
the command at the head is executed and runs; a block whose LEN is not the function's, or whose reserved bytes 2 and 3 are not 0, ends
PARAM naming the field, with no operand written; otherwise operands are read and results written, or staged before COMMIT, at most 4,096
bytes of them in the buffer and none discarded, as the function has it, and its STATUS waits for completion (R119, R120, R163 to R165).
Where the model chose a reading: log entries 20, 61, 62, 63, 64, 65, 66 and 67. -/
def Obligations.EngineFunctions : Prop :=
  ∀ (n : Fin 24) (r : Fin 4) (s : State), ∀ i ∈ engineFunctions n r, ∀ c : EngCmd, s.held = none → s.engHead i.2.1 = some c →
    c.func.toNat = i.2.2.1 → s.engMayRun i.2.1 = true → s.engEn i.2.1 = true → s.coeffGone i.2.1 = false →
    let e := i.2.1
    let q := engWork s e c i.2.2.2.1 none
    q.1.job.waits = none →
    ∃ t, exec i.1 s = .next t ∧ (t.eng e).running = some (c.core, c.tag) ∧ t.mem = q.1.job.s.mem ∧
      (stagedBytes q.1.staged ≤ 4096 → (t.eng e).staged = q.1.staged ∧ (t.eng e).later = []) ∧
      (stagedBytes (t.eng e).staged ≤ 4096 ∧
        ((t.eng e).staged ++ (t.eng e).later).flatMap (·.data) = q.1.staged.flatMap (·.data)) ∧
      (∀ op, q.1.job.bus = some op → (t.eng e).result = some ⟨1, op⟩) ∧ (q.1.job.bus = none → (t.eng e).result = some q.2) ∧
      ∀ d, s.memRead (.engine e) c.ptr 64 = (s, .ok d) →
        (bfld d 0 2 ≠ i.2.2.2.2 → (t.eng e).result = some ⟨2, 0⟩ ∧ (t.eng e).staged = [] ∧ t.mem = s.mem) ∧
        (bfld d 0 2 = i.2.2.2.2 → bfld d 2 2 ≠ 0 → i.2.2.2.2 = 1 →
          (t.eng e).result = some ⟨2, 2⟩ ∧ (t.eng e).staged = [] ∧ t.mem = s.mem)

/-- The CRC of bits followed by the CRC itself is 0 (R176). -/
def Obligations.CrcCloses : Prop := ∀ (k : Nat) (l : List Bool), crcBits (crcType k) (l ++ msbBits (crcType k).1 (crcBits (crcType k) l)) = 0

/-! Statements of several parts -/

/-- Resets hold the device, and their releases start it (R370, R371, R434, R444). Where the model chose a reading: log entries 82, 87 and 101. -/
def Obligations.ResetsAndReleases : Prop := ResetsHoldTheDevice ∧ ResetReleases

/-- Registers and memory read as they were last written, and a write leaves every other one alone. Where the model chose a reading: log entry
4. -/
def Obligations.ReadAfterWrite : Prop := RegisterReadAfterWrite ∧ MemoryReadAfterWrite

/-- ABS, EXP, EXPA, NORM, EXT, EXT_S, LDA, MAC and MSU, and the count that EXP, EXPA and NORM use (R60, R76 to R78). Where the model chose a
reading: log entry 6. -/
def Obligations.OneSourceAndAccumulate : Prop := OneSourceResults ∧ AccumulateResults ∧ SignBitCount

/-- Where a core goes after a bundle: next, delay slots, block repeats, repeats, rfe (R66, R68, R70, R72, R85). Where the model chose a
reading: log entries 6, 22 and 94. -/
def Obligations.NextBundles : Prop := NextBundle ∧ AnnulledSlots

/-- Exceptions: which is reported, what entry does, FETCH_PROT and ILLEGAL, TRAP and BREAK (R57, R67, R72, R79, R82 to R84). Where the model
chose a reading: log entries 6, 90, 91, 96 and 109. -/
def Obligations.Exceptions : Prop := ExceptionEntry ∧ FetchAndLegality ∧ ReportedException ∧ TrapAndBreak

/-- Reads and writes of the control registers (R53 to R55). Where the model chose a reading: log entries 6, 89 and 92. -/
def Obligations.ControlRegisters : Prop := ControlReads ∧ ControlWrites

/-- The regions of a core decide its accesses: the highest-numbered enabled region that contains the address, by its permission of the kind of
access in the mode (R79); an access that no enabled region contains is permitted if PRIV and PRIV_DEFAULT are both 1, and a region whose
limit is below its base contains no address (R80). Unprivileged code reads every CSR and writes three of them in part (R54). -/
def Obligations.RegionChecks : Prop := UncoveredAccess ∧ CoveredAccess ∧ ChecksOfCore ∧ UnprivilegedWrites

/-- Vector loads and stores in the core's own tile memory (R96, R97). Where the model chose a reading: log entries 6, 37 and 111. -/
def Obligations.VectorMemory : Prop := VectorLoads ∧ VectorStores

/-- Elementwise vector instructions and vector shifts (R106, R107). Where the model chose a reading: log entry 6. -/
def Obligations.VectorElementwise : Prop := VectorPairs ∧ VectorShifts

/-- Block exponents (R106, R112). Where the model chose a reading: log entry 6. -/
def Obligations.BlockExponents : Prop := VectorExponents


/-- Requests to a core: when one is taken, that a core with one issues nothing, and what HALT, DEBUG_RESUME, KILL, SWITCH and ATTN do (R87 to
R90). Where the model chose a reading: log entries 1, 93 and 97. -/
def Obligations.Requests : Prop := RequestOrder ∧ NoIssue ∧ HaltAndResume ∧ KillAndSwitch ∧ AttnEntry

/-- Access types, LOCK and reserved offsets (R6 to R8). -/
def Obligations.RegisterAccess : Prop := AccessTypes ∧ LockStays

/-- The commands that write one register have the effect of their word there. Where the model chose a reading: log entry 46. -/
def Obligations.WriteCommands : Prop := FirstWriteCommands ∧ MoreWriteCommands ∧ BfaDisableCommand

/-- ADDI to MOVHI, the moves to and from address registers, NOP, LIT and FENCE (R60, R63, R64, R73 to R78). Where the model chose a reading:
log entry 6. -/
def Obligations.ImmediateAndAddressResults : Prop := ImmediateResults ∧ AddressResults ∧ NopLitFence

/-- Commands to engines, how they are answered, taken and completed, and the enabling and disabling of an engine. Where the model chose a
reading: log entries 61, 62, 114 and 125. -/
def Obligations.EngineCommands : Prop := CommandsToEngines ∧ EngineQueues ∧ EngineEnables

/-! Device time -/

/-- Device time: inputs, tree checks, rate and slew, steps, PPS, ticks and recovered clocks (R24, R25, R31, R38 to R46). Where the model chose
a reading: log entries 13, 26, 27, 28, 29, 104, 105 and 106. -/
def Obligations.DeviceTime : Prop := TimebaseInputs ∧ TreeChecks ∧ RateAndSlew ∧ Steps ∧ PpsEdges ∧ Ticks ∧ ClockOutputs

/-- Comparators: their control writes, their fires and what each starts (R33 to R37). Where the model chose a reading: log entries 70 and 115. -/
def Obligations.Comparators : Prop := ComparatorWrites ∧ ComparatorFires ∧ ComparatorActions

/-! Dispatchers -/

/-- The dispatcher of a range: its threads' words, posts and commands (R131 to R137, R148, R160). Where the model chose a reading: log entries
25, 43 and 116. -/
def Obligations.ThreadControl : Prop := TcbWords ∧ Posts ∧ ThreadCommands

/-- Threads on cores: the ready order, the choice of a core, dispatch, preemption and preload, and what deadlines, delays and faults do (R138
to R147). Where the model chose a reading: log entries 69, 97, 117, 120 and 122. -/
def Obligations.Dispatch : Prop := ReadyOrder ∧ CoreChoice ∧ Dispatching ∧ Timers

/-- Ordered flows: entering and releasing locks, held releases and the configuration of locks (R149 to R153). Where the model chose a reading:
log entries 118 and 119. -/
def Obligations.OrderedFlows : Prop := LockOps ∧ HeldReleases

/-! Beamforming arrays -/

/-- Beamforming arrays: operations, streams, pages and slot programs (R193 to R214, R360). Where the model chose a reading: log entries 15,
16, 17, 47, 48 and 49. -/
def Obligations.Arrays : Prop :=
  ArrayTakes ∧ HeaderChecks ∧ DownlinkExponents ∧ ArrayCompletes ∧ StatusRing ∧ ActiveSets ∧
    StreamWrites ∧ HeldPages ∧ SlotPrograms ∧ ClearsDone

/-! Memories -/

/-- The byte-symbol code corrects every error in one byte position of a codeword, and every error in two (R238, R239). -/
def Obligations.CodewordCorrection : Prop :=
  (∀ j v : Nat, j < 36 → 0 < v → v < 256 → decodeErr (byteError j v) = .corrected [(j, v)] ∧ fixErr (byteError j v) [(j, v)] = 0) ∧
  (∀ p q v w : Nat, p < q → q < 36 → 0 < v → v < 256 → 0 < w → w < 256 →
    decodeErr (byteError p v ^^^ byteError q w) = .corrected [(p, v), (q, w)] ∧
    fixErr (byteError p v ^^^ byteError q w) [(p, v), (q, w)] = 0)

/-- Memory protection: reads and writes of codewords and of tile memory, scrubbing, clearing, self-refresh and cache fills (R235 to R251,
R366). Where the model chose a reading: log entries 4, 40, 41, 117, 123 and 124. -/
def Obligations.MemoryProtection : Prop := CodewordReads ∧ CodewordCounts ∧ CodewordWrites ∧ TileReads ∧ Scrubbing ∧ Inits ∧ Stacks ∧ CacheFills

/-! The fabric -/

/-- Transactions of the fabric from their sending to their end, their paths, and links that hold them (R258 to R267, R275, R420). Where the
model chose a reading: log entries 37, 38, 39, 121 and 125. -/
def Obligations.Transactions : Prop :=
  RequestsSent ∧ RequestsResent ∧ RequestPackets ∧ ResponsePackets ∧ Timeouts ∧ Paths ∧ DownLinksHold

/-- The management of the fabric (R265, R267, R269 to R275). Where the model chose a reading: log entries 30, 31, 32, 33, 34, 35 and 125. -/
def Obligations.FabricManagement : Prop := Endpoints ∧ Grants ∧ PlansAndFlips ∧ RoutersAndLinks

/-! Flumes -/

/-- Flume channels from the fetch of a descriptor to its write-back (R279 to R297). Where the model chose a reading: log entries 14, 15, 59,
60 and 126. -/
def Obligations.FlumeTransfers : Prop := DescriptorFetches ∧ DescriptorReturns ∧ BurstLengths ∧ BurstReads ∧ BurstTurns ∧ Bursts ∧ Writebacks

/-! Lanes -/

/-- Fronthaul lanes (R302 to R318). Where the model chose a reading: log entry 127. -/
def Obligations.Lanes : Prop :=
  LaneStatusBits ∧ Adaptation ∧ LaneLosses ∧ QuadPlls ∧ SymbolAlignment ∧ LaneSending ∧ CodeGroups ∧ BlockLock ∧ LanePower

/-! Framing -/

/-- The framings of a hub (R321 to R340). Where the model chose a reading: log entries 18, 50, 51, 52, 53, 54, 55, 56, 57 and 58. -/
def Obligations.Framing : Prop :=
  FramesReceived ∧ SymbolsSent ∧ RecordWindows ∧ RecordsSent ∧ HyperframesReceived ∧ HyperframesSent ∧ LaneFrames ∧ GroupFrames ∧ CellsReceived

/-! Sluices -/

/-- The sluice controller (R346 to R367). Where the model chose a reading: log entries 71, 72, 73, 74 and 75. -/
def Obligations.Sluices : Prop := AutomaticChoice ∧ DomainEntries ∧ DozeEntries ∧ DomainExits ∧ ClocksAndRetention

/-! Housekeeping converters -/

/-- The housekeeping converters (R391 to R407). Where the model chose a reading: log entries 76, 77 and 78. -/
def Obligations.Converters : Prop := Strobes ∧ QueueSteps ∧ HoldEnds ∧ Brownouts ∧ Conversions ∧ References

/-! Events and PCIe -/

/-- Delivery of events, and the PCIe functions (R411 to R427). Where the model chose a reading: log entries 79, 80 and 81. -/
def Obligations.EventsAndPcie : Prop := Deliveries ∧ Unmasks ∧ FunctionResets ∧ PcieSettings ∧ HostRequests

/-! Boot, modes and the mailbox -/

/-- Start-up, operating modes, holdover and the mailbox (R376 to R388, R423 to R425). Where the model chose a reading: log entries 82, 83, 84,
85, 86 and 87. -/
def Obligations.BootAndModes : Prop :=
  SignatureChecks ∧ BootSteps ∧ ModeChanges ∧ Holdover ∧ MailboxSends ∧ MailboxRequests
end

