-- ==== Sys2Proof/Laws/Sparse.lean ====
section
/-! SUPPORT. The laws of the sparse store: read after write, other keys untouched, canonical form kept. -/

namespace Sys2Proof.Machine

variable {α : Type}

theorem sget_serase_ne (dflt : Nat → α) {j k : Nat} (h : j ≠ k) (l : List (Nat × α)) :
    sget dflt (serase k l) j = sget dflt l j := by
  induction l with
  | nil => rfl
  | cons p r ih =>
    obtain ⟨i, v⟩ := p
    by_cases hi : i = k
    · have : i ≠ j := fun e => h (e.symm.trans hi)
      simp [serase, sget, hi, ih, Ne.symm h]
    · simp [serase, sget, hi, ih]

theorem sget_serase_same (dflt : Nat → α) (k : Nat) (l : List (Nat × α)) :
    sget dflt (serase k l) k = dflt k := by
  induction l with
  | nil => rfl
  | cons p r ih =>
    obtain ⟨i, v⟩ := p
    by_cases hi : i = k
    · simp [serase, hi, ih]
    · simp [serase, sget, hi, ih]

theorem sget_sinsert_ne (dflt : Nat → α) {j k : Nat} (h : j ≠ k) (v : α) (l : List (Nat × α)) :
    sget dflt (sinsert k v l) j = sget dflt l j := by
  induction l with
  | nil => simp [sinsert, sget, Ne.symm h]
  | cons p r ih =>
    obtain ⟨i, u⟩ := p
    by_cases hi : k < i
    · simp [sinsert, sget, hi, Ne.symm h]
    · simp [sinsert, sget, hi, ih]

theorem sget_sinsert_same (dflt : Nat → α) (k : Nat) (v : α) (l : List (Nat × α))
    (hk : ∀ p ∈ l, p.1 ≠ k) : sget dflt (sinsert k v l) k = v := by
  induction l with
  | nil => simp [sinsert, sget]
  | cons p r ih =>
    obtain ⟨i, u⟩ := p
    have hne : i ≠ k := hk (i, u) (by simp)
    by_cases hi : k < i
    · simp [sinsert, sget, hi]
    · simp [sinsert, sget, hi, hne, ih (fun q hq => hk q (by simp [hq]))]

theorem serase_fst_ne (k : Nat) (l : List (Nat × α)) : ∀ p ∈ serase k l, p.1 ≠ k := by
  induction l with
  | nil => simp [serase]
  | cons p r ih =>
    obtain ⟨i, v⟩ := p
    by_cases hi : i = k
    · simpa [serase, hi] using ih
    · intro q hq
      simp [serase, hi] at hq
      rcases hq with rfl | hq
      · exact hi
      · exact ih q hq

/-- A read after a write of the same key gives the value written. -/
@[simp] theorem sget_sset_same [DecidableEq α] (dflt : Nat → α) (l : List (Nat × α)) (k : Nat) (v : α) :
    sget dflt (sset dflt l k v) k = v := by
  unfold sset
  split
  · next h => rw [sget_serase_same, h]
  · exact sget_sinsert_same dflt k v _ (serase_fst_ne k l)

/-- A write leaves every other key alone. -/
theorem sget_sset_ne [DecidableEq α] (dflt : Nat → α) (l : List (Nat × α)) {j k : Nat} (v : α) (h : j ≠ k) :
    sget dflt (sset dflt l k v) j = sget dflt l j := by
  unfold sset
  split
  · exact sget_serase_ne dflt h l
  · rw [sget_sinsert_ne dflt h, sget_serase_ne dflt h]

theorem swfFrom_mono [DecidableEq α] (dflt : Nat → α) {a b : Nat} (h : a ≤ b) (l : List (Nat × α))
    (hb : swfFrom dflt b l = true) : swfFrom dflt a l = true := by
  cases l with
  | nil => rfl
  | cons p r =>
    obtain ⟨i, v⟩ := p
    simp [swfFrom] at hb ⊢
    exact ⟨⟨Nat.le_trans h hb.1.1, hb.1.2⟩, hb.2⟩

theorem swfFrom_serase [DecidableEq α] (dflt : Nat → α) (k : Nat) (l : List (Nat × α)) :
    ∀ b, swfFrom dflt b l = true → swfFrom dflt b (serase k l) = true := by
  induction l with
  | nil => intro b h; exact h
  | cons p r ih =>
    obtain ⟨i, v⟩ := p
    intro b h
    have h' := h
    simp [swfFrom] at h'
    by_cases hi : i = k
    · simp only [serase, hi, if_true]
      exact swfFrom_mono dflt (by omega) _ (ih (i + 1) h'.2)
    · simp [serase, hi, swfFrom, h'.1]
      exact ih (i + 1) h'.2

theorem swfFrom_sinsert [DecidableEq α] (dflt : Nat → α) (k : Nat) (v : α) (hv : v ≠ dflt k)
    (l : List (Nat × α)) (hk : ∀ p ∈ l, p.1 ≠ k) :
    ∀ b, b ≤ k → swfFrom dflt b l = true → swfFrom dflt b (sinsert k v l) = true := by
  induction l with
  | nil => intro b hb _; simp [sinsert, swfFrom, hb, hv]
  | cons p r ih =>
    obtain ⟨i, u⟩ := p
    intro b hb h
    simp [swfFrom] at h
    have hne : i ≠ k := hk (i, u) (by simp)
    by_cases hi : k < i
    · simp [sinsert, hi, swfFrom, hb, hv, h] <;> omega
    · simp only [sinsert, hi, if_false]
      simp [swfFrom, h.1]
      exact ih (fun q hq => hk q (by simp [hq])) (i + 1) (by omega) h.2

/-- Every write keeps the canonical form. -/
theorem swf_sset [DecidableEq α] (dflt : Nat → α) (l : List (Nat × α)) (k : Nat) (v : α)
    (h : swf dflt l = true) : swf dflt (sset dflt l k v) = true := by
  unfold sset swf at *
  split
  · exact swfFrom_serase dflt k l 0 h
  · next hv =>
    exact swfFrom_sinsert dflt k v hv _ (serase_fst_ne k l) 0 (Nat.zero_le _) (swfFrom_serase dflt k l 0 h)

end Sys2Proof.Machine
end

