-- ==== Sys2Proof/Laws/State.lean ====
section
/-! SUPPORT. Each update of the state leaves every other field as it was. -/

namespace Sys2Proof.Machine

variable (s : State)

@[simp] theorem State.setReg_part (a : Nat) (v : Word) : (s.setReg a v).part = s.part := by unfold State.setReg; rfl
@[simp] theorem State.setReg_held (a : Nat) (v : Word) : (s.setReg a v).held = s.held := by unfold State.setReg; rfl
@[simp] theorem State.setReg_thermTrip (a : Nat) (v : Word) : (s.setReg a v).thermTrip = s.thermTrip := by unfold State.setReg; rfl
@[simp] theorem State.setReg_pending (a : Nat) (v : Word) : (s.setReg a v).pending = s.pending := by unfold State.setReg; rfl
@[simp] theorem State.setReg_mem (a : Nat) (v : Word) : (s.setReg a v).mem = s.mem := by unfold State.setReg; rfl
@[simp] theorem State.setReg_ctx (a : Nat) (v : Word) : (s.setReg a v).ctx = s.ctx := by unfold State.setReg; rfl
@[simp] theorem State.setReg_prot (a : Nat) (v : Word) : (s.setReg a v).prot = s.prot := by unfold State.setReg; rfl
@[simp] theorem State.setReg_posted (a : Nat) (v : Word) : (s.setReg a v).posted = s.posted := by unfold State.setReg; rfl
@[simp] theorem State.setReg_tb (a : Nat) (v : Word) : (s.setReg a v).tb = s.tb := by unfold State.setReg; rfl
@[simp] theorem State.setReg_targets (a : Nat) (v : Word) : (s.setReg a v).targets = s.targets := by unfold State.setReg; rfl
@[simp] theorem State.setReg_replicas (a : Nat) (v : Word) : (s.setReg a v).replicas = s.replicas := by unfold State.setReg; rfl
@[simp] theorem State.setReg_cores (a : Nat) (v : Word) : (s.setReg a v).cores = s.cores := by unfold State.setReg; rfl
@[simp] theorem State.setReg_engines (a : Nat) (v : Word) : (s.setReg a v).engines = s.engines := by unfold State.setReg; rfl
@[simp] theorem State.setReg_engSent (a : Nat) (v : Word) : (s.setReg a v).engSent = s.engSent := by unfold State.setReg; rfl
@[simp] theorem State.setReg_engMsgs (a : Nat) (v : Word) : (s.setReg a v).engMsgs = s.engMsgs := by unfold State.setReg; rfl
@[simp] theorem State.setReg_replies (a : Nat) (v : Word) : (s.setReg a v).replies = s.replies := by unfold State.setReg; rfl
@[simp] theorem State.setReg_dpts (a : Nat) (v : Word) : (s.setReg a v).dpts = s.dpts := by unfold State.setReg; rfl
@[simp] theorem State.setReg_chans (a : Nat) (v : Word) : (s.setReg a v).chans = s.chans := by unfold State.setReg; rfl
@[simp] theorem State.setReg_flumeTurn (a : Nat) (v : Word) : (s.setReg a v).flumeTurn = s.flumeTurn := by unfold State.setReg; rfl
@[simp] theorem State.setReg_fabric (a : Nat) (v : Word) : (s.setReg a v).fabric = s.fabric := by unfold State.setReg; rfl
@[simp] theorem State.setReg_bfas (a : Nat) (v : Word) : (s.setReg a v).bfas = s.bfas := by unfold State.setReg; rfl
@[simp] theorem State.setReg_lanes (a : Nat) (v : Word) : (s.setReg a v).lanes = s.lanes := by unfold State.setReg; rfl
@[simp] theorem State.setReg_refLost (a : Nat) (v : Word) : (s.setReg a v).refLost = s.refLost := by unfold State.setReg; rfl
@[simp] theorem State.setReg_hubs (a : Nat) (v : Word) : (s.setReg a v).hubs = s.hubs := by unfold State.setReg; rfl
@[simp] theorem State.setReg_hif (a : Nat) (v : Word) : (s.setReg a v).hif = s.hif := by unfold State.setReg; rfl
@[simp] theorem State.setReg_slc (a : Nat) (v : Word) : (s.setReg a v).slc = s.slc := by unfold State.setReg; rfl
@[simp] theorem State.setReg_hk (a : Nat) (v : Word) : (s.setReg a v).hk = s.hk := by unfold State.setReg; rfl
@[simp] theorem State.setReg_boot (a : Nat) (v : Word) : (s.setReg a v).boot = s.boot := by unfold State.setReg; rfl
@[simp] theorem State.setReg_events (a : Nat) (v : Word) : (s.setReg a v).events = s.events := by unfold State.setReg; rfl
@[simp] theorem State.setReg_wakes (a : Nat) (v : Word) : (s.setReg a v).wakes = s.wakes := by unfold State.setReg; rfl
@[simp] theorem State.setReg_out (a : Nat) (v : Word) : (s.setReg a v).out = s.out := by unfold State.setReg; rfl
@[simp] theorem State.setReg_acc (a : Nat) (v : Word) : (s.setReg a v).acc = s.acc := by unfold State.setReg; rfl
@[simp] theorem State.setReg_planGen (a : Nat) (v : Word) : (s.setReg a v).planGen = s.planGen := by unfold State.setReg; rfl
@[simp] theorem State.setReg_freeCtr (a : Nat) (v : Word) : (s.setReg a v).freeCtr = s.freeCtr := by unfold State.setReg; rfl

@[simp] theorem State.setRegBit_part (a i : Nat) (b : Bool) : (s.setRegBit a i b).part = s.part := by unfold State.setRegBit; simp
@[simp] theorem State.setRegBit_held (a i : Nat) (b : Bool) : (s.setRegBit a i b).held = s.held := by unfold State.setRegBit; simp
@[simp] theorem State.setRegBit_thermTrip (a i : Nat) (b : Bool) : (s.setRegBit a i b).thermTrip = s.thermTrip := by unfold State.setRegBit; simp
@[simp] theorem State.setRegBit_pending (a i : Nat) (b : Bool) : (s.setRegBit a i b).pending = s.pending := by unfold State.setRegBit; simp
@[simp] theorem State.setRegBit_mem (a i : Nat) (b : Bool) : (s.setRegBit a i b).mem = s.mem := by unfold State.setRegBit; simp
@[simp] theorem State.setRegBit_ctx (a i : Nat) (b : Bool) : (s.setRegBit a i b).ctx = s.ctx := by unfold State.setRegBit; simp
@[simp] theorem State.setRegBit_prot (a i : Nat) (b : Bool) : (s.setRegBit a i b).prot = s.prot := by unfold State.setRegBit; simp
@[simp] theorem State.setRegBit_posted (a i : Nat) (b : Bool) : (s.setRegBit a i b).posted = s.posted := by unfold State.setRegBit; simp
@[simp] theorem State.setRegBit_tb (a i : Nat) (b : Bool) : (s.setRegBit a i b).tb = s.tb := by unfold State.setRegBit; simp
@[simp] theorem State.setRegBit_targets (a i : Nat) (b : Bool) : (s.setRegBit a i b).targets = s.targets := by unfold State.setRegBit; simp
@[simp] theorem State.setRegBit_replicas (a i : Nat) (b : Bool) : (s.setRegBit a i b).replicas = s.replicas := by unfold State.setRegBit; simp
@[simp] theorem State.setRegBit_cores (a i : Nat) (b : Bool) : (s.setRegBit a i b).cores = s.cores := by unfold State.setRegBit; simp
@[simp] theorem State.setRegBit_engines (a i : Nat) (b : Bool) : (s.setRegBit a i b).engines = s.engines := by unfold State.setRegBit; simp
@[simp] theorem State.setRegBit_engSent (a i : Nat) (b : Bool) : (s.setRegBit a i b).engSent = s.engSent := by unfold State.setRegBit; simp
@[simp] theorem State.setRegBit_engMsgs (a i : Nat) (b : Bool) : (s.setRegBit a i b).engMsgs = s.engMsgs := by unfold State.setRegBit; simp
@[simp] theorem State.setRegBit_replies (a i : Nat) (b : Bool) : (s.setRegBit a i b).replies = s.replies := by unfold State.setRegBit; simp
@[simp] theorem State.setRegBit_dpts (a i : Nat) (b : Bool) : (s.setRegBit a i b).dpts = s.dpts := by unfold State.setRegBit; simp
@[simp] theorem State.setRegBit_chans (a i : Nat) (b : Bool) : (s.setRegBit a i b).chans = s.chans := by unfold State.setRegBit; simp
@[simp] theorem State.setRegBit_flumeTurn (a i : Nat) (b : Bool) : (s.setRegBit a i b).flumeTurn = s.flumeTurn := by unfold State.setRegBit; simp
@[simp] theorem State.setRegBit_fabric (a i : Nat) (b : Bool) : (s.setRegBit a i b).fabric = s.fabric := by unfold State.setRegBit; simp
@[simp] theorem State.setRegBit_bfas (a i : Nat) (b : Bool) : (s.setRegBit a i b).bfas = s.bfas := by unfold State.setRegBit; simp
@[simp] theorem State.setRegBit_lanes (a i : Nat) (b : Bool) : (s.setRegBit a i b).lanes = s.lanes := by unfold State.setRegBit; simp
@[simp] theorem State.setRegBit_refLost (a i : Nat) (b : Bool) : (s.setRegBit a i b).refLost = s.refLost := by unfold State.setRegBit; simp
@[simp] theorem State.setRegBit_hubs (a i : Nat) (b : Bool) : (s.setRegBit a i b).hubs = s.hubs := by unfold State.setRegBit; simp
@[simp] theorem State.setRegBit_hif (a i : Nat) (b : Bool) : (s.setRegBit a i b).hif = s.hif := by unfold State.setRegBit; simp
@[simp] theorem State.setRegBit_slc (a i : Nat) (b : Bool) : (s.setRegBit a i b).slc = s.slc := by unfold State.setRegBit; simp
@[simp] theorem State.setRegBit_hk (a i : Nat) (b : Bool) : (s.setRegBit a i b).hk = s.hk := by unfold State.setRegBit; simp
@[simp] theorem State.setRegBit_boot (a i : Nat) (b : Bool) : (s.setRegBit a i b).boot = s.boot := by unfold State.setRegBit; simp
@[simp] theorem State.setRegBit_events (a i : Nat) (b : Bool) : (s.setRegBit a i b).events = s.events := by unfold State.setRegBit; simp
@[simp] theorem State.setRegBit_wakes (a i : Nat) (b : Bool) : (s.setRegBit a i b).wakes = s.wakes := by unfold State.setRegBit; simp
@[simp] theorem State.setRegBit_out (a i : Nat) (b : Bool) : (s.setRegBit a i b).out = s.out := by unfold State.setRegBit; simp
@[simp] theorem State.setRegBit_acc (a i : Nat) (b : Bool) : (s.setRegBit a i b).acc = s.acc := by unfold State.setRegBit; simp
@[simp] theorem State.setRegBit_planGen (a i : Nat) (b : Bool) : (s.setRegBit a i b).planGen = s.planGen := by unfold State.setRegBit; simp
@[simp] theorem State.setRegBit_freeCtr (a i : Nat) (b : Bool) : (s.setRegBit a i b).freeCtr = s.freeCtr := by unfold State.setRegBit; simp

@[simp] theorem State.setRegFld_part (a hi lo x : Nat) : (s.setRegFld a hi lo x).part = s.part := by unfold State.setRegFld; simp
@[simp] theorem State.setRegFld_held (a hi lo x : Nat) : (s.setRegFld a hi lo x).held = s.held := by unfold State.setRegFld; simp
@[simp] theorem State.setRegFld_thermTrip (a hi lo x : Nat) : (s.setRegFld a hi lo x).thermTrip = s.thermTrip := by unfold State.setRegFld; simp
@[simp] theorem State.setRegFld_pending (a hi lo x : Nat) : (s.setRegFld a hi lo x).pending = s.pending := by unfold State.setRegFld; simp
@[simp] theorem State.setRegFld_mem (a hi lo x : Nat) : (s.setRegFld a hi lo x).mem = s.mem := by unfold State.setRegFld; simp
@[simp] theorem State.setRegFld_ctx (a hi lo x : Nat) : (s.setRegFld a hi lo x).ctx = s.ctx := by unfold State.setRegFld; simp
@[simp] theorem State.setRegFld_prot (a hi lo x : Nat) : (s.setRegFld a hi lo x).prot = s.prot := by unfold State.setRegFld; simp
@[simp] theorem State.setRegFld_posted (a hi lo x : Nat) : (s.setRegFld a hi lo x).posted = s.posted := by unfold State.setRegFld; simp
@[simp] theorem State.setRegFld_tb (a hi lo x : Nat) : (s.setRegFld a hi lo x).tb = s.tb := by unfold State.setRegFld; simp
@[simp] theorem State.setRegFld_targets (a hi lo x : Nat) : (s.setRegFld a hi lo x).targets = s.targets := by unfold State.setRegFld; simp
@[simp] theorem State.setRegFld_replicas (a hi lo x : Nat) : (s.setRegFld a hi lo x).replicas = s.replicas := by unfold State.setRegFld; simp
@[simp] theorem State.setRegFld_cores (a hi lo x : Nat) : (s.setRegFld a hi lo x).cores = s.cores := by unfold State.setRegFld; simp
@[simp] theorem State.setRegFld_engines (a hi lo x : Nat) : (s.setRegFld a hi lo x).engines = s.engines := by unfold State.setRegFld; simp
@[simp] theorem State.setRegFld_engSent (a hi lo x : Nat) : (s.setRegFld a hi lo x).engSent = s.engSent := by unfold State.setRegFld; simp
@[simp] theorem State.setRegFld_engMsgs (a hi lo x : Nat) : (s.setRegFld a hi lo x).engMsgs = s.engMsgs := by unfold State.setRegFld; simp
@[simp] theorem State.setRegFld_replies (a hi lo x : Nat) : (s.setRegFld a hi lo x).replies = s.replies := by unfold State.setRegFld; simp
@[simp] theorem State.setRegFld_dpts (a hi lo x : Nat) : (s.setRegFld a hi lo x).dpts = s.dpts := by unfold State.setRegFld; simp
@[simp] theorem State.setRegFld_chans (a hi lo x : Nat) : (s.setRegFld a hi lo x).chans = s.chans := by unfold State.setRegFld; simp
@[simp] theorem State.setRegFld_flumeTurn (a hi lo x : Nat) : (s.setRegFld a hi lo x).flumeTurn = s.flumeTurn := by unfold State.setRegFld; simp
@[simp] theorem State.setRegFld_fabric (a hi lo x : Nat) : (s.setRegFld a hi lo x).fabric = s.fabric := by unfold State.setRegFld; simp
@[simp] theorem State.setRegFld_bfas (a hi lo x : Nat) : (s.setRegFld a hi lo x).bfas = s.bfas := by unfold State.setRegFld; simp
@[simp] theorem State.setRegFld_lanes (a hi lo x : Nat) : (s.setRegFld a hi lo x).lanes = s.lanes := by unfold State.setRegFld; simp
@[simp] theorem State.setRegFld_refLost (a hi lo x : Nat) : (s.setRegFld a hi lo x).refLost = s.refLost := by unfold State.setRegFld; simp
@[simp] theorem State.setRegFld_hubs (a hi lo x : Nat) : (s.setRegFld a hi lo x).hubs = s.hubs := by unfold State.setRegFld; simp
@[simp] theorem State.setRegFld_hif (a hi lo x : Nat) : (s.setRegFld a hi lo x).hif = s.hif := by unfold State.setRegFld; simp
@[simp] theorem State.setRegFld_slc (a hi lo x : Nat) : (s.setRegFld a hi lo x).slc = s.slc := by unfold State.setRegFld; simp
@[simp] theorem State.setRegFld_hk (a hi lo x : Nat) : (s.setRegFld a hi lo x).hk = s.hk := by unfold State.setRegFld; simp
@[simp] theorem State.setRegFld_boot (a hi lo x : Nat) : (s.setRegFld a hi lo x).boot = s.boot := by unfold State.setRegFld; simp
@[simp] theorem State.setRegFld_events (a hi lo x : Nat) : (s.setRegFld a hi lo x).events = s.events := by unfold State.setRegFld; simp
@[simp] theorem State.setRegFld_wakes (a hi lo x : Nat) : (s.setRegFld a hi lo x).wakes = s.wakes := by unfold State.setRegFld; simp
@[simp] theorem State.setRegFld_out (a hi lo x : Nat) : (s.setRegFld a hi lo x).out = s.out := by unfold State.setRegFld; simp
@[simp] theorem State.setRegFld_acc (a hi lo x : Nat) : (s.setRegFld a hi lo x).acc = s.acc := by unfold State.setRegFld; simp
@[simp] theorem State.setRegFld_planGen (a hi lo x : Nat) : (s.setRegFld a hi lo x).planGen = s.planGen := by unfold State.setRegFld; simp
@[simp] theorem State.setRegFld_freeCtr (a hi lo x : Nat) : (s.setRegFld a hi lo x).freeCtr = s.freeCtr := by unfold State.setRegFld; simp

@[simp] theorem State.setReg64_part (a v : Nat) : (s.setReg64 a v).part = s.part := by unfold State.setReg64; simp
@[simp] theorem State.setReg64_held (a v : Nat) : (s.setReg64 a v).held = s.held := by unfold State.setReg64; simp
@[simp] theorem State.setReg64_thermTrip (a v : Nat) : (s.setReg64 a v).thermTrip = s.thermTrip := by unfold State.setReg64; simp
@[simp] theorem State.setReg64_pending (a v : Nat) : (s.setReg64 a v).pending = s.pending := by unfold State.setReg64; simp
@[simp] theorem State.setReg64_mem (a v : Nat) : (s.setReg64 a v).mem = s.mem := by unfold State.setReg64; simp
@[simp] theorem State.setReg64_ctx (a v : Nat) : (s.setReg64 a v).ctx = s.ctx := by unfold State.setReg64; simp
@[simp] theorem State.setReg64_prot (a v : Nat) : (s.setReg64 a v).prot = s.prot := by unfold State.setReg64; simp
@[simp] theorem State.setReg64_posted (a v : Nat) : (s.setReg64 a v).posted = s.posted := by unfold State.setReg64; simp
@[simp] theorem State.setReg64_tb (a v : Nat) : (s.setReg64 a v).tb = s.tb := by unfold State.setReg64; simp
@[simp] theorem State.setReg64_targets (a v : Nat) : (s.setReg64 a v).targets = s.targets := by unfold State.setReg64; simp
@[simp] theorem State.setReg64_replicas (a v : Nat) : (s.setReg64 a v).replicas = s.replicas := by unfold State.setReg64; simp
@[simp] theorem State.setReg64_cores (a v : Nat) : (s.setReg64 a v).cores = s.cores := by unfold State.setReg64; simp
@[simp] theorem State.setReg64_engines (a v : Nat) : (s.setReg64 a v).engines = s.engines := by unfold State.setReg64; simp
@[simp] theorem State.setReg64_engSent (a v : Nat) : (s.setReg64 a v).engSent = s.engSent := by unfold State.setReg64; simp
@[simp] theorem State.setReg64_engMsgs (a v : Nat) : (s.setReg64 a v).engMsgs = s.engMsgs := by unfold State.setReg64; simp
@[simp] theorem State.setReg64_replies (a v : Nat) : (s.setReg64 a v).replies = s.replies := by unfold State.setReg64; simp
@[simp] theorem State.setReg64_dpts (a v : Nat) : (s.setReg64 a v).dpts = s.dpts := by unfold State.setReg64; simp
@[simp] theorem State.setReg64_chans (a v : Nat) : (s.setReg64 a v).chans = s.chans := by unfold State.setReg64; simp
@[simp] theorem State.setReg64_flumeTurn (a v : Nat) : (s.setReg64 a v).flumeTurn = s.flumeTurn := by unfold State.setReg64; simp
@[simp] theorem State.setReg64_fabric (a v : Nat) : (s.setReg64 a v).fabric = s.fabric := by unfold State.setReg64; simp
@[simp] theorem State.setReg64_bfas (a v : Nat) : (s.setReg64 a v).bfas = s.bfas := by unfold State.setReg64; simp
@[simp] theorem State.setReg64_lanes (a v : Nat) : (s.setReg64 a v).lanes = s.lanes := by unfold State.setReg64; simp
@[simp] theorem State.setReg64_refLost (a v : Nat) : (s.setReg64 a v).refLost = s.refLost := by unfold State.setReg64; simp
@[simp] theorem State.setReg64_hubs (a v : Nat) : (s.setReg64 a v).hubs = s.hubs := by unfold State.setReg64; simp
@[simp] theorem State.setReg64_hif (a v : Nat) : (s.setReg64 a v).hif = s.hif := by unfold State.setReg64; simp
@[simp] theorem State.setReg64_slc (a v : Nat) : (s.setReg64 a v).slc = s.slc := by unfold State.setReg64; simp
@[simp] theorem State.setReg64_hk (a v : Nat) : (s.setReg64 a v).hk = s.hk := by unfold State.setReg64; simp
@[simp] theorem State.setReg64_boot (a v : Nat) : (s.setReg64 a v).boot = s.boot := by unfold State.setReg64; simp
@[simp] theorem State.setReg64_events (a v : Nat) : (s.setReg64 a v).events = s.events := by unfold State.setReg64; simp
@[simp] theorem State.setReg64_wakes (a v : Nat) : (s.setReg64 a v).wakes = s.wakes := by unfold State.setReg64; simp
@[simp] theorem State.setReg64_out (a v : Nat) : (s.setReg64 a v).out = s.out := by unfold State.setReg64; simp
@[simp] theorem State.setReg64_acc (a v : Nat) : (s.setReg64 a v).acc = s.acc := by unfold State.setReg64; simp
@[simp] theorem State.setReg64_planGen (a v : Nat) : (s.setReg64 a v).planGen = s.planGen := by unfold State.setReg64; simp
@[simp] theorem State.setReg64_freeCtr (a v : Nat) : (s.setReg64 a v).freeCtr = s.freeCtr := by unfold State.setReg64; simp

@[simp] theorem State.countUp_part (a n : Nat) : (s.countUp a n).part = s.part := by unfold State.countUp; simp
@[simp] theorem State.countUp_held (a n : Nat) : (s.countUp a n).held = s.held := by unfold State.countUp; simp
@[simp] theorem State.countUp_thermTrip (a n : Nat) : (s.countUp a n).thermTrip = s.thermTrip := by unfold State.countUp; simp
@[simp] theorem State.countUp_pending (a n : Nat) : (s.countUp a n).pending = s.pending := by unfold State.countUp; simp
@[simp] theorem State.countUp_mem (a n : Nat) : (s.countUp a n).mem = s.mem := by unfold State.countUp; simp
@[simp] theorem State.countUp_ctx (a n : Nat) : (s.countUp a n).ctx = s.ctx := by unfold State.countUp; simp
@[simp] theorem State.countUp_prot (a n : Nat) : (s.countUp a n).prot = s.prot := by unfold State.countUp; simp
@[simp] theorem State.countUp_posted (a n : Nat) : (s.countUp a n).posted = s.posted := by unfold State.countUp; simp
@[simp] theorem State.countUp_tb (a n : Nat) : (s.countUp a n).tb = s.tb := by unfold State.countUp; simp
@[simp] theorem State.countUp_targets (a n : Nat) : (s.countUp a n).targets = s.targets := by unfold State.countUp; simp
@[simp] theorem State.countUp_replicas (a n : Nat) : (s.countUp a n).replicas = s.replicas := by unfold State.countUp; simp
@[simp] theorem State.countUp_cores (a n : Nat) : (s.countUp a n).cores = s.cores := by unfold State.countUp; simp
@[simp] theorem State.countUp_engines (a n : Nat) : (s.countUp a n).engines = s.engines := by unfold State.countUp; simp
@[simp] theorem State.countUp_engSent (a n : Nat) : (s.countUp a n).engSent = s.engSent := by unfold State.countUp; simp
@[simp] theorem State.countUp_engMsgs (a n : Nat) : (s.countUp a n).engMsgs = s.engMsgs := by unfold State.countUp; simp
@[simp] theorem State.countUp_replies (a n : Nat) : (s.countUp a n).replies = s.replies := by unfold State.countUp; simp
@[simp] theorem State.countUp_dpts (a n : Nat) : (s.countUp a n).dpts = s.dpts := by unfold State.countUp; simp
@[simp] theorem State.countUp_chans (a n : Nat) : (s.countUp a n).chans = s.chans := by unfold State.countUp; simp
@[simp] theorem State.countUp_flumeTurn (a n : Nat) : (s.countUp a n).flumeTurn = s.flumeTurn := by unfold State.countUp; simp
@[simp] theorem State.countUp_fabric (a n : Nat) : (s.countUp a n).fabric = s.fabric := by unfold State.countUp; simp
@[simp] theorem State.countUp_bfas (a n : Nat) : (s.countUp a n).bfas = s.bfas := by unfold State.countUp; simp
@[simp] theorem State.countUp_lanes (a n : Nat) : (s.countUp a n).lanes = s.lanes := by unfold State.countUp; simp
@[simp] theorem State.countUp_refLost (a n : Nat) : (s.countUp a n).refLost = s.refLost := by unfold State.countUp; simp
@[simp] theorem State.countUp_hubs (a n : Nat) : (s.countUp a n).hubs = s.hubs := by unfold State.countUp; simp
@[simp] theorem State.countUp_hif (a n : Nat) : (s.countUp a n).hif = s.hif := by unfold State.countUp; simp
@[simp] theorem State.countUp_slc (a n : Nat) : (s.countUp a n).slc = s.slc := by unfold State.countUp; simp
@[simp] theorem State.countUp_hk (a n : Nat) : (s.countUp a n).hk = s.hk := by unfold State.countUp; simp
@[simp] theorem State.countUp_boot (a n : Nat) : (s.countUp a n).boot = s.boot := by unfold State.countUp; simp
@[simp] theorem State.countUp_events (a n : Nat) : (s.countUp a n).events = s.events := by unfold State.countUp; simp
@[simp] theorem State.countUp_wakes (a n : Nat) : (s.countUp a n).wakes = s.wakes := by unfold State.countUp; simp
@[simp] theorem State.countUp_out (a n : Nat) : (s.countUp a n).out = s.out := by unfold State.countUp; simp
@[simp] theorem State.countUp_acc (a n : Nat) : (s.countUp a n).acc = s.acc := by unfold State.countUp; simp
@[simp] theorem State.countUp_planGen (a n : Nat) : (s.countUp a n).planGen = s.planGen := by unfold State.countUp; simp
@[simp] theorem State.countUp_freeCtr (a n : Nat) : (s.countUp a n).freeCtr = s.freeCtr := by unfold State.countUp; simp

@[simp] theorem State.countSat_part (a n : Nat) : (s.countSat a n).part = s.part := by unfold State.countSat; simp
@[simp] theorem State.countSat_held (a n : Nat) : (s.countSat a n).held = s.held := by unfold State.countSat; simp
@[simp] theorem State.countSat_thermTrip (a n : Nat) : (s.countSat a n).thermTrip = s.thermTrip := by unfold State.countSat; simp
@[simp] theorem State.countSat_pending (a n : Nat) : (s.countSat a n).pending = s.pending := by unfold State.countSat; simp
@[simp] theorem State.countSat_mem (a n : Nat) : (s.countSat a n).mem = s.mem := by unfold State.countSat; simp
@[simp] theorem State.countSat_ctx (a n : Nat) : (s.countSat a n).ctx = s.ctx := by unfold State.countSat; simp
@[simp] theorem State.countSat_prot (a n : Nat) : (s.countSat a n).prot = s.prot := by unfold State.countSat; simp
@[simp] theorem State.countSat_posted (a n : Nat) : (s.countSat a n).posted = s.posted := by unfold State.countSat; simp
@[simp] theorem State.countSat_tb (a n : Nat) : (s.countSat a n).tb = s.tb := by unfold State.countSat; simp
@[simp] theorem State.countSat_targets (a n : Nat) : (s.countSat a n).targets = s.targets := by unfold State.countSat; simp
@[simp] theorem State.countSat_replicas (a n : Nat) : (s.countSat a n).replicas = s.replicas := by unfold State.countSat; simp
@[simp] theorem State.countSat_cores (a n : Nat) : (s.countSat a n).cores = s.cores := by unfold State.countSat; simp
@[simp] theorem State.countSat_engines (a n : Nat) : (s.countSat a n).engines = s.engines := by unfold State.countSat; simp
@[simp] theorem State.countSat_engSent (a n : Nat) : (s.countSat a n).engSent = s.engSent := by unfold State.countSat; simp
@[simp] theorem State.countSat_engMsgs (a n : Nat) : (s.countSat a n).engMsgs = s.engMsgs := by unfold State.countSat; simp
@[simp] theorem State.countSat_replies (a n : Nat) : (s.countSat a n).replies = s.replies := by unfold State.countSat; simp
@[simp] theorem State.countSat_dpts (a n : Nat) : (s.countSat a n).dpts = s.dpts := by unfold State.countSat; simp
@[simp] theorem State.countSat_chans (a n : Nat) : (s.countSat a n).chans = s.chans := by unfold State.countSat; simp
@[simp] theorem State.countSat_flumeTurn (a n : Nat) : (s.countSat a n).flumeTurn = s.flumeTurn := by unfold State.countSat; simp
@[simp] theorem State.countSat_fabric (a n : Nat) : (s.countSat a n).fabric = s.fabric := by unfold State.countSat; simp
@[simp] theorem State.countSat_bfas (a n : Nat) : (s.countSat a n).bfas = s.bfas := by unfold State.countSat; simp
@[simp] theorem State.countSat_lanes (a n : Nat) : (s.countSat a n).lanes = s.lanes := by unfold State.countSat; simp
@[simp] theorem State.countSat_refLost (a n : Nat) : (s.countSat a n).refLost = s.refLost := by unfold State.countSat; simp
@[simp] theorem State.countSat_hubs (a n : Nat) : (s.countSat a n).hubs = s.hubs := by unfold State.countSat; simp
@[simp] theorem State.countSat_hif (a n : Nat) : (s.countSat a n).hif = s.hif := by unfold State.countSat; simp
@[simp] theorem State.countSat_slc (a n : Nat) : (s.countSat a n).slc = s.slc := by unfold State.countSat; simp
@[simp] theorem State.countSat_hk (a n : Nat) : (s.countSat a n).hk = s.hk := by unfold State.countSat; simp
@[simp] theorem State.countSat_boot (a n : Nat) : (s.countSat a n).boot = s.boot := by unfold State.countSat; simp
@[simp] theorem State.countSat_events (a n : Nat) : (s.countSat a n).events = s.events := by unfold State.countSat; simp
@[simp] theorem State.countSat_wakes (a n : Nat) : (s.countSat a n).wakes = s.wakes := by unfold State.countSat; simp
@[simp] theorem State.countSat_out (a n : Nat) : (s.countSat a n).out = s.out := by unfold State.countSat; simp
@[simp] theorem State.countSat_acc (a n : Nat) : (s.countSat a n).acc = s.acc := by unfold State.countSat; simp
@[simp] theorem State.countSat_planGen (a n : Nat) : (s.countSat a n).planGen = s.planGen := by unfold State.countSat; simp
@[simp] theorem State.countSat_freeCtr (a n : Nat) : (s.countSat a n).freeCtr = s.freeCtr := by unfold State.countSat; simp

@[simp] theorem State.raise_part (i : Nat) : (s.raise i).part = s.part := by unfold State.raise; simp
@[simp] theorem State.raise_held (i : Nat) : (s.raise i).held = s.held := by unfold State.raise; simp
@[simp] theorem State.raise_thermTrip (i : Nat) : (s.raise i).thermTrip = s.thermTrip := by unfold State.raise; simp
@[simp] theorem State.raise_pending (i : Nat) : (s.raise i).pending = s.pending := by unfold State.raise; simp
@[simp] theorem State.raise_mem (i : Nat) : (s.raise i).mem = s.mem := by unfold State.raise; simp
@[simp] theorem State.raise_ctx (i : Nat) : (s.raise i).ctx = s.ctx := by unfold State.raise; simp
@[simp] theorem State.raise_prot (i : Nat) : (s.raise i).prot = s.prot := by unfold State.raise; simp
@[simp] theorem State.raise_posted (i : Nat) : (s.raise i).posted = s.posted := by unfold State.raise; simp
@[simp] theorem State.raise_tb (i : Nat) : (s.raise i).tb = s.tb := by unfold State.raise; simp
@[simp] theorem State.raise_targets (i : Nat) : (s.raise i).targets = s.targets := by unfold State.raise; simp
@[simp] theorem State.raise_replicas (i : Nat) : (s.raise i).replicas = s.replicas := by unfold State.raise; simp
@[simp] theorem State.raise_cores (i : Nat) : (s.raise i).cores = s.cores := by unfold State.raise; simp
@[simp] theorem State.raise_engines (i : Nat) : (s.raise i).engines = s.engines := by unfold State.raise; simp
@[simp] theorem State.raise_engSent (i : Nat) : (s.raise i).engSent = s.engSent := by unfold State.raise; simp
@[simp] theorem State.raise_engMsgs (i : Nat) : (s.raise i).engMsgs = s.engMsgs := by unfold State.raise; simp
@[simp] theorem State.raise_replies (i : Nat) : (s.raise i).replies = s.replies := by unfold State.raise; simp
@[simp] theorem State.raise_dpts (i : Nat) : (s.raise i).dpts = s.dpts := by unfold State.raise; simp
@[simp] theorem State.raise_chans (i : Nat) : (s.raise i).chans = s.chans := by unfold State.raise; simp
@[simp] theorem State.raise_flumeTurn (i : Nat) : (s.raise i).flumeTurn = s.flumeTurn := by unfold State.raise; simp
@[simp] theorem State.raise_fabric (i : Nat) : (s.raise i).fabric = s.fabric := by unfold State.raise; simp
@[simp] theorem State.raise_bfas (i : Nat) : (s.raise i).bfas = s.bfas := by unfold State.raise; simp
@[simp] theorem State.raise_lanes (i : Nat) : (s.raise i).lanes = s.lanes := by unfold State.raise; simp
@[simp] theorem State.raise_refLost (i : Nat) : (s.raise i).refLost = s.refLost := by unfold State.raise; simp
@[simp] theorem State.raise_hubs (i : Nat) : (s.raise i).hubs = s.hubs := by unfold State.raise; simp
@[simp] theorem State.raise_hif (i : Nat) : (s.raise i).hif = s.hif := by unfold State.raise; simp
@[simp] theorem State.raise_slc (i : Nat) : (s.raise i).slc = s.slc := by unfold State.raise; simp
@[simp] theorem State.raise_hk (i : Nat) : (s.raise i).hk = s.hk := by unfold State.raise; simp
@[simp] theorem State.raise_boot (i : Nat) : (s.raise i).boot = s.boot := by unfold State.raise; simp
@[simp] theorem State.raise_wakes (i : Nat) : (s.raise i).wakes = s.wakes := by unfold State.raise; simp
@[simp] theorem State.raise_out (i : Nat) : (s.raise i).out = s.out := by unfold State.raise; simp
@[simp] theorem State.raise_acc (i : Nat) : (s.raise i).acc = s.acc := by unfold State.raise; simp
@[simp] theorem State.raise_planGen (i : Nat) : (s.raise i).planGen = s.planGen := by unfold State.raise; simp
@[simp] theorem State.raise_freeCtr (i : Nat) : (s.raise i).freeCtr = s.freeCtr := by unfold State.raise; simp

@[simp] theorem State.raiseIf_part (c : Bool) (i : Nat) : (s.raiseIf c i).part = s.part := by unfold State.raiseIf; split <;> simp
@[simp] theorem State.raiseIf_held (c : Bool) (i : Nat) : (s.raiseIf c i).held = s.held := by unfold State.raiseIf; split <;> simp
@[simp] theorem State.raiseIf_thermTrip (c : Bool) (i : Nat) : (s.raiseIf c i).thermTrip = s.thermTrip := by unfold State.raiseIf; split <;> simp
@[simp] theorem State.raiseIf_pending (c : Bool) (i : Nat) : (s.raiseIf c i).pending = s.pending := by unfold State.raiseIf; split <;> simp
@[simp] theorem State.raiseIf_mem (c : Bool) (i : Nat) : (s.raiseIf c i).mem = s.mem := by unfold State.raiseIf; split <;> simp
@[simp] theorem State.raiseIf_ctx (c : Bool) (i : Nat) : (s.raiseIf c i).ctx = s.ctx := by unfold State.raiseIf; split <;> simp
@[simp] theorem State.raiseIf_prot (c : Bool) (i : Nat) : (s.raiseIf c i).prot = s.prot := by unfold State.raiseIf; split <;> simp
@[simp] theorem State.raiseIf_posted (c : Bool) (i : Nat) : (s.raiseIf c i).posted = s.posted := by unfold State.raiseIf; split <;> simp
@[simp] theorem State.raiseIf_tb (c : Bool) (i : Nat) : (s.raiseIf c i).tb = s.tb := by unfold State.raiseIf; split <;> simp
@[simp] theorem State.raiseIf_targets (c : Bool) (i : Nat) : (s.raiseIf c i).targets = s.targets := by unfold State.raiseIf; split <;> simp
@[simp] theorem State.raiseIf_replicas (c : Bool) (i : Nat) : (s.raiseIf c i).replicas = s.replicas := by unfold State.raiseIf; split <;> simp
@[simp] theorem State.raiseIf_cores (c : Bool) (i : Nat) : (s.raiseIf c i).cores = s.cores := by unfold State.raiseIf; split <;> simp
@[simp] theorem State.raiseIf_engines (c : Bool) (i : Nat) : (s.raiseIf c i).engines = s.engines := by unfold State.raiseIf; split <;> simp
@[simp] theorem State.raiseIf_engSent (c : Bool) (i : Nat) : (s.raiseIf c i).engSent = s.engSent := by unfold State.raiseIf; split <;> simp
@[simp] theorem State.raiseIf_engMsgs (c : Bool) (i : Nat) : (s.raiseIf c i).engMsgs = s.engMsgs := by unfold State.raiseIf; split <;> simp
@[simp] theorem State.raiseIf_replies (c : Bool) (i : Nat) : (s.raiseIf c i).replies = s.replies := by unfold State.raiseIf; split <;> simp
@[simp] theorem State.raiseIf_dpts (c : Bool) (i : Nat) : (s.raiseIf c i).dpts = s.dpts := by unfold State.raiseIf; split <;> simp
@[simp] theorem State.raiseIf_chans (c : Bool) (i : Nat) : (s.raiseIf c i).chans = s.chans := by unfold State.raiseIf; split <;> simp
@[simp] theorem State.raiseIf_flumeTurn (c : Bool) (i : Nat) : (s.raiseIf c i).flumeTurn = s.flumeTurn := by unfold State.raiseIf; split <;> simp
@[simp] theorem State.raiseIf_fabric (c : Bool) (i : Nat) : (s.raiseIf c i).fabric = s.fabric := by unfold State.raiseIf; split <;> simp
@[simp] theorem State.raiseIf_bfas (c : Bool) (i : Nat) : (s.raiseIf c i).bfas = s.bfas := by unfold State.raiseIf; split <;> simp
@[simp] theorem State.raiseIf_lanes (c : Bool) (i : Nat) : (s.raiseIf c i).lanes = s.lanes := by unfold State.raiseIf; split <;> simp
@[simp] theorem State.raiseIf_refLost (c : Bool) (i : Nat) : (s.raiseIf c i).refLost = s.refLost := by unfold State.raiseIf; split <;> simp
@[simp] theorem State.raiseIf_hubs (c : Bool) (i : Nat) : (s.raiseIf c i).hubs = s.hubs := by unfold State.raiseIf; split <;> simp
@[simp] theorem State.raiseIf_hif (c : Bool) (i : Nat) : (s.raiseIf c i).hif = s.hif := by unfold State.raiseIf; split <;> simp
@[simp] theorem State.raiseIf_slc (c : Bool) (i : Nat) : (s.raiseIf c i).slc = s.slc := by unfold State.raiseIf; split <;> simp
@[simp] theorem State.raiseIf_hk (c : Bool) (i : Nat) : (s.raiseIf c i).hk = s.hk := by unfold State.raiseIf; split <;> simp
@[simp] theorem State.raiseIf_boot (c : Bool) (i : Nat) : (s.raiseIf c i).boot = s.boot := by unfold State.raiseIf; split <;> simp
@[simp] theorem State.raiseIf_wakes (c : Bool) (i : Nat) : (s.raiseIf c i).wakes = s.wakes := by unfold State.raiseIf; split <;> simp
@[simp] theorem State.raiseIf_out (c : Bool) (i : Nat) : (s.raiseIf c i).out = s.out := by unfold State.raiseIf; split <;> simp
@[simp] theorem State.raiseIf_acc (c : Bool) (i : Nat) : (s.raiseIf c i).acc = s.acc := by unfold State.raiseIf; split <;> simp
@[simp] theorem State.raiseIf_planGen (c : Bool) (i : Nat) : (s.raiseIf c i).planGen = s.planGen := by unfold State.raiseIf; split <;> simp
@[simp] theorem State.raiseIf_freeCtr (c : Bool) (i : Nat) : (s.raiseIf c i).freeCtr = s.freeCtr := by unfold State.raiseIf; split <;> simp

@[simp] theorem State.draw_part  : (s.draw).part = s.part := by unfold State.draw; rfl
@[simp] theorem State.draw_held  : (s.draw).held = s.held := by unfold State.draw; rfl
@[simp] theorem State.draw_thermTrip  : (s.draw).thermTrip = s.thermTrip := by unfold State.draw; rfl
@[simp] theorem State.draw_pending  : (s.draw).pending = s.pending := by unfold State.draw; rfl
@[simp] theorem State.draw_regs  : (s.draw).regs = s.regs := by unfold State.draw; rfl
@[simp] theorem State.draw_mem  : (s.draw).mem = s.mem := by unfold State.draw; rfl
@[simp] theorem State.draw_ctx  : (s.draw).ctx = s.ctx := by unfold State.draw; rfl
@[simp] theorem State.draw_prot  : (s.draw).prot = s.prot := by unfold State.draw; rfl
@[simp] theorem State.draw_posted  : (s.draw).posted = s.posted := by unfold State.draw; rfl
@[simp] theorem State.draw_tb  : (s.draw).tb = s.tb := by unfold State.draw; rfl
@[simp] theorem State.draw_targets  : (s.draw).targets = s.targets := by unfold State.draw; rfl
@[simp] theorem State.draw_replicas  : (s.draw).replicas = s.replicas := by unfold State.draw; rfl
@[simp] theorem State.draw_cores  : (s.draw).cores = s.cores := by unfold State.draw; rfl
@[simp] theorem State.draw_engines  : (s.draw).engines = s.engines := by unfold State.draw; rfl
@[simp] theorem State.draw_engSent  : (s.draw).engSent = s.engSent := by unfold State.draw; rfl
@[simp] theorem State.draw_engMsgs  : (s.draw).engMsgs = s.engMsgs := by unfold State.draw; rfl
@[simp] theorem State.draw_replies  : (s.draw).replies = s.replies := by unfold State.draw; rfl
@[simp] theorem State.draw_dpts  : (s.draw).dpts = s.dpts := by unfold State.draw; rfl
@[simp] theorem State.draw_chans  : (s.draw).chans = s.chans := by unfold State.draw; rfl
@[simp] theorem State.draw_flumeTurn  : (s.draw).flumeTurn = s.flumeTurn := by unfold State.draw; rfl
@[simp] theorem State.draw_fabric  : (s.draw).fabric = s.fabric := by unfold State.draw; rfl
@[simp] theorem State.draw_bfas  : (s.draw).bfas = s.bfas := by unfold State.draw; rfl
@[simp] theorem State.draw_lanes  : (s.draw).lanes = s.lanes := by unfold State.draw; rfl
@[simp] theorem State.draw_refLost  : (s.draw).refLost = s.refLost := by unfold State.draw; rfl
@[simp] theorem State.draw_hubs  : (s.draw).hubs = s.hubs := by unfold State.draw; rfl
@[simp] theorem State.draw_hif  : (s.draw).hif = s.hif := by unfold State.draw; rfl
@[simp] theorem State.draw_slc  : (s.draw).slc = s.slc := by unfold State.draw; rfl
@[simp] theorem State.draw_hk  : (s.draw).hk = s.hk := by unfold State.draw; rfl
@[simp] theorem State.draw_boot  : (s.draw).boot = s.boot := by unfold State.draw; rfl
@[simp] theorem State.draw_events  : (s.draw).events = s.events := by unfold State.draw; rfl
@[simp] theorem State.draw_wakes  : (s.draw).wakes = s.wakes := by unfold State.draw; rfl
@[simp] theorem State.draw_out  : (s.draw).out = s.out := by unfold State.draw; rfl
@[simp] theorem State.draw_acc  : (s.draw).acc = s.acc := by unfold State.draw; rfl
@[simp] theorem State.draw_planGen  : (s.draw).planGen = s.planGen := by unfold State.draw; rfl

@[simp] theorem State.emit_part (m : OutMsg) : (s.emit m).part = s.part := by unfold State.emit; rfl
@[simp] theorem State.emit_held (m : OutMsg) : (s.emit m).held = s.held := by unfold State.emit; rfl
@[simp] theorem State.emit_thermTrip (m : OutMsg) : (s.emit m).thermTrip = s.thermTrip := by unfold State.emit; rfl
@[simp] theorem State.emit_pending (m : OutMsg) : (s.emit m).pending = s.pending := by unfold State.emit; rfl
@[simp] theorem State.emit_regs (m : OutMsg) : (s.emit m).regs = s.regs := by unfold State.emit; rfl
@[simp] theorem State.emit_mem (m : OutMsg) : (s.emit m).mem = s.mem := by unfold State.emit; rfl
@[simp] theorem State.emit_ctx (m : OutMsg) : (s.emit m).ctx = s.ctx := by unfold State.emit; rfl
@[simp] theorem State.emit_prot (m : OutMsg) : (s.emit m).prot = s.prot := by unfold State.emit; rfl
@[simp] theorem State.emit_posted (m : OutMsg) : (s.emit m).posted = s.posted := by unfold State.emit; rfl
@[simp] theorem State.emit_tb (m : OutMsg) : (s.emit m).tb = s.tb := by unfold State.emit; rfl
@[simp] theorem State.emit_targets (m : OutMsg) : (s.emit m).targets = s.targets := by unfold State.emit; rfl
@[simp] theorem State.emit_replicas (m : OutMsg) : (s.emit m).replicas = s.replicas := by unfold State.emit; rfl
@[simp] theorem State.emit_cores (m : OutMsg) : (s.emit m).cores = s.cores := by unfold State.emit; rfl
@[simp] theorem State.emit_engines (m : OutMsg) : (s.emit m).engines = s.engines := by unfold State.emit; rfl
@[simp] theorem State.emit_engSent (m : OutMsg) : (s.emit m).engSent = s.engSent := by unfold State.emit; rfl
@[simp] theorem State.emit_engMsgs (m : OutMsg) : (s.emit m).engMsgs = s.engMsgs := by unfold State.emit; rfl
@[simp] theorem State.emit_replies (m : OutMsg) : (s.emit m).replies = s.replies := by unfold State.emit; rfl
@[simp] theorem State.emit_dpts (m : OutMsg) : (s.emit m).dpts = s.dpts := by unfold State.emit; rfl
@[simp] theorem State.emit_chans (m : OutMsg) : (s.emit m).chans = s.chans := by unfold State.emit; rfl
@[simp] theorem State.emit_flumeTurn (m : OutMsg) : (s.emit m).flumeTurn = s.flumeTurn := by unfold State.emit; rfl
@[simp] theorem State.emit_fabric (m : OutMsg) : (s.emit m).fabric = s.fabric := by unfold State.emit; rfl
@[simp] theorem State.emit_bfas (m : OutMsg) : (s.emit m).bfas = s.bfas := by unfold State.emit; rfl
@[simp] theorem State.emit_lanes (m : OutMsg) : (s.emit m).lanes = s.lanes := by unfold State.emit; rfl
@[simp] theorem State.emit_refLost (m : OutMsg) : (s.emit m).refLost = s.refLost := by unfold State.emit; rfl
@[simp] theorem State.emit_hubs (m : OutMsg) : (s.emit m).hubs = s.hubs := by unfold State.emit; rfl
@[simp] theorem State.emit_hif (m : OutMsg) : (s.emit m).hif = s.hif := by unfold State.emit; rfl
@[simp] theorem State.emit_slc (m : OutMsg) : (s.emit m).slc = s.slc := by unfold State.emit; rfl
@[simp] theorem State.emit_hk (m : OutMsg) : (s.emit m).hk = s.hk := by unfold State.emit; rfl
@[simp] theorem State.emit_boot (m : OutMsg) : (s.emit m).boot = s.boot := by unfold State.emit; rfl
@[simp] theorem State.emit_events (m : OutMsg) : (s.emit m).events = s.events := by unfold State.emit; rfl
@[simp] theorem State.emit_wakes (m : OutMsg) : (s.emit m).wakes = s.wakes := by unfold State.emit; rfl
@[simp] theorem State.emit_acc (m : OutMsg) : (s.emit m).acc = s.acc := by unfold State.emit; rfl
@[simp] theorem State.emit_planGen (m : OutMsg) : (s.emit m).planGen = s.planGen := by unfold State.emit; rfl
@[simp] theorem State.emit_freeCtr (m : OutMsg) : (s.emit m).freeCtr = s.freeCtr := by unfold State.emit; rfl

@[simp] theorem State.setReplica_part (r : ReplicaId) (d : Int) : (s.setReplica r d).part = s.part := by unfold State.setReplica; rfl
@[simp] theorem State.setReplica_held (r : ReplicaId) (d : Int) : (s.setReplica r d).held = s.held := by unfold State.setReplica; rfl
@[simp] theorem State.setReplica_thermTrip (r : ReplicaId) (d : Int) : (s.setReplica r d).thermTrip = s.thermTrip := by unfold State.setReplica; rfl
@[simp] theorem State.setReplica_pending (r : ReplicaId) (d : Int) : (s.setReplica r d).pending = s.pending := by unfold State.setReplica; rfl
@[simp] theorem State.setReplica_regs (r : ReplicaId) (d : Int) : (s.setReplica r d).regs = s.regs := by unfold State.setReplica; rfl
@[simp] theorem State.setReplica_mem (r : ReplicaId) (d : Int) : (s.setReplica r d).mem = s.mem := by unfold State.setReplica; rfl
@[simp] theorem State.setReplica_ctx (r : ReplicaId) (d : Int) : (s.setReplica r d).ctx = s.ctx := by unfold State.setReplica; rfl
@[simp] theorem State.setReplica_prot (r : ReplicaId) (d : Int) : (s.setReplica r d).prot = s.prot := by unfold State.setReplica; rfl
@[simp] theorem State.setReplica_posted (r : ReplicaId) (d : Int) : (s.setReplica r d).posted = s.posted := by unfold State.setReplica; rfl
@[simp] theorem State.setReplica_tb (r : ReplicaId) (d : Int) : (s.setReplica r d).tb = s.tb := by unfold State.setReplica; rfl
@[simp] theorem State.setReplica_targets (r : ReplicaId) (d : Int) : (s.setReplica r d).targets = s.targets := by unfold State.setReplica; rfl
@[simp] theorem State.setReplica_cores (r : ReplicaId) (d : Int) : (s.setReplica r d).cores = s.cores := by unfold State.setReplica; rfl
@[simp] theorem State.setReplica_engines (r : ReplicaId) (d : Int) : (s.setReplica r d).engines = s.engines := by unfold State.setReplica; rfl
@[simp] theorem State.setReplica_engSent (r : ReplicaId) (d : Int) : (s.setReplica r d).engSent = s.engSent := by unfold State.setReplica; rfl
@[simp] theorem State.setReplica_engMsgs (r : ReplicaId) (d : Int) : (s.setReplica r d).engMsgs = s.engMsgs := by unfold State.setReplica; rfl
@[simp] theorem State.setReplica_replies (r : ReplicaId) (d : Int) : (s.setReplica r d).replies = s.replies := by unfold State.setReplica; rfl
@[simp] theorem State.setReplica_dpts (r : ReplicaId) (d : Int) : (s.setReplica r d).dpts = s.dpts := by unfold State.setReplica; rfl
@[simp] theorem State.setReplica_chans (r : ReplicaId) (d : Int) : (s.setReplica r d).chans = s.chans := by unfold State.setReplica; rfl
@[simp] theorem State.setReplica_flumeTurn (r : ReplicaId) (d : Int) : (s.setReplica r d).flumeTurn = s.flumeTurn := by unfold State.setReplica; rfl
@[simp] theorem State.setReplica_fabric (r : ReplicaId) (d : Int) : (s.setReplica r d).fabric = s.fabric := by unfold State.setReplica; rfl
@[simp] theorem State.setReplica_bfas (r : ReplicaId) (d : Int) : (s.setReplica r d).bfas = s.bfas := by unfold State.setReplica; rfl
@[simp] theorem State.setReplica_lanes (r : ReplicaId) (d : Int) : (s.setReplica r d).lanes = s.lanes := by unfold State.setReplica; rfl
@[simp] theorem State.setReplica_refLost (r : ReplicaId) (d : Int) : (s.setReplica r d).refLost = s.refLost := by unfold State.setReplica; rfl
@[simp] theorem State.setReplica_hubs (r : ReplicaId) (d : Int) : (s.setReplica r d).hubs = s.hubs := by unfold State.setReplica; rfl
@[simp] theorem State.setReplica_hif (r : ReplicaId) (d : Int) : (s.setReplica r d).hif = s.hif := by unfold State.setReplica; rfl
@[simp] theorem State.setReplica_slc (r : ReplicaId) (d : Int) : (s.setReplica r d).slc = s.slc := by unfold State.setReplica; rfl
@[simp] theorem State.setReplica_hk (r : ReplicaId) (d : Int) : (s.setReplica r d).hk = s.hk := by unfold State.setReplica; rfl
@[simp] theorem State.setReplica_boot (r : ReplicaId) (d : Int) : (s.setReplica r d).boot = s.boot := by unfold State.setReplica; rfl
@[simp] theorem State.setReplica_events (r : ReplicaId) (d : Int) : (s.setReplica r d).events = s.events := by unfold State.setReplica; rfl
@[simp] theorem State.setReplica_wakes (r : ReplicaId) (d : Int) : (s.setReplica r d).wakes = s.wakes := by unfold State.setReplica; rfl
@[simp] theorem State.setReplica_out (r : ReplicaId) (d : Int) : (s.setReplica r d).out = s.out := by unfold State.setReplica; rfl
@[simp] theorem State.setReplica_acc (r : ReplicaId) (d : Int) : (s.setReplica r d).acc = s.acc := by unfold State.setReplica; rfl
@[simp] theorem State.setReplica_planGen (r : ReplicaId) (d : Int) : (s.setReplica r d).planGen = s.planGen := by unfold State.setReplica; rfl
@[simp] theorem State.setReplica_freeCtr (r : ReplicaId) (d : Int) : (s.setReplica r d).freeCtr = s.freeCtr := by unfold State.setReplica; rfl

@[simp] theorem State.modCore_part (x : Fin 192) (f : Core → Core) : (s.modCore x f).part = s.part := by unfold State.modCore; rfl
@[simp] theorem State.modCore_held (x : Fin 192) (f : Core → Core) : (s.modCore x f).held = s.held := by unfold State.modCore; rfl
@[simp] theorem State.modCore_thermTrip (x : Fin 192) (f : Core → Core) : (s.modCore x f).thermTrip = s.thermTrip := by unfold State.modCore; rfl
@[simp] theorem State.modCore_pending (x : Fin 192) (f : Core → Core) : (s.modCore x f).pending = s.pending := by unfold State.modCore; rfl
@[simp] theorem State.modCore_regs (x : Fin 192) (f : Core → Core) : (s.modCore x f).regs = s.regs := by unfold State.modCore; rfl
@[simp] theorem State.modCore_mem (x : Fin 192) (f : Core → Core) : (s.modCore x f).mem = s.mem := by unfold State.modCore; rfl
@[simp] theorem State.modCore_ctx (x : Fin 192) (f : Core → Core) : (s.modCore x f).ctx = s.ctx := by unfold State.modCore; rfl
@[simp] theorem State.modCore_prot (x : Fin 192) (f : Core → Core) : (s.modCore x f).prot = s.prot := by unfold State.modCore; rfl
@[simp] theorem State.modCore_posted (x : Fin 192) (f : Core → Core) : (s.modCore x f).posted = s.posted := by unfold State.modCore; rfl
@[simp] theorem State.modCore_tb (x : Fin 192) (f : Core → Core) : (s.modCore x f).tb = s.tb := by unfold State.modCore; rfl
@[simp] theorem State.modCore_targets (x : Fin 192) (f : Core → Core) : (s.modCore x f).targets = s.targets := by unfold State.modCore; rfl
@[simp] theorem State.modCore_replicas (x : Fin 192) (f : Core → Core) : (s.modCore x f).replicas = s.replicas := by unfold State.modCore; rfl
@[simp] theorem State.modCore_engines (x : Fin 192) (f : Core → Core) : (s.modCore x f).engines = s.engines := by unfold State.modCore; rfl
@[simp] theorem State.modCore_engSent (x : Fin 192) (f : Core → Core) : (s.modCore x f).engSent = s.engSent := by unfold State.modCore; rfl
@[simp] theorem State.modCore_engMsgs (x : Fin 192) (f : Core → Core) : (s.modCore x f).engMsgs = s.engMsgs := by unfold State.modCore; rfl
@[simp] theorem State.modCore_replies (x : Fin 192) (f : Core → Core) : (s.modCore x f).replies = s.replies := by unfold State.modCore; rfl
@[simp] theorem State.modCore_dpts (x : Fin 192) (f : Core → Core) : (s.modCore x f).dpts = s.dpts := by unfold State.modCore; rfl
@[simp] theorem State.modCore_chans (x : Fin 192) (f : Core → Core) : (s.modCore x f).chans = s.chans := by unfold State.modCore; rfl
@[simp] theorem State.modCore_flumeTurn (x : Fin 192) (f : Core → Core) : (s.modCore x f).flumeTurn = s.flumeTurn := by unfold State.modCore; rfl
@[simp] theorem State.modCore_fabric (x : Fin 192) (f : Core → Core) : (s.modCore x f).fabric = s.fabric := by unfold State.modCore; rfl
@[simp] theorem State.modCore_bfas (x : Fin 192) (f : Core → Core) : (s.modCore x f).bfas = s.bfas := by unfold State.modCore; rfl
@[simp] theorem State.modCore_lanes (x : Fin 192) (f : Core → Core) : (s.modCore x f).lanes = s.lanes := by unfold State.modCore; rfl
@[simp] theorem State.modCore_refLost (x : Fin 192) (f : Core → Core) : (s.modCore x f).refLost = s.refLost := by unfold State.modCore; rfl
@[simp] theorem State.modCore_hubs (x : Fin 192) (f : Core → Core) : (s.modCore x f).hubs = s.hubs := by unfold State.modCore; rfl
@[simp] theorem State.modCore_hif (x : Fin 192) (f : Core → Core) : (s.modCore x f).hif = s.hif := by unfold State.modCore; rfl
@[simp] theorem State.modCore_slc (x : Fin 192) (f : Core → Core) : (s.modCore x f).slc = s.slc := by unfold State.modCore; rfl
@[simp] theorem State.modCore_hk (x : Fin 192) (f : Core → Core) : (s.modCore x f).hk = s.hk := by unfold State.modCore; rfl
@[simp] theorem State.modCore_boot (x : Fin 192) (f : Core → Core) : (s.modCore x f).boot = s.boot := by unfold State.modCore; rfl
@[simp] theorem State.modCore_events (x : Fin 192) (f : Core → Core) : (s.modCore x f).events = s.events := by unfold State.modCore; rfl
@[simp] theorem State.modCore_wakes (x : Fin 192) (f : Core → Core) : (s.modCore x f).wakes = s.wakes := by unfold State.modCore; rfl
@[simp] theorem State.modCore_out (x : Fin 192) (f : Core → Core) : (s.modCore x f).out = s.out := by unfold State.modCore; rfl
@[simp] theorem State.modCore_acc (x : Fin 192) (f : Core → Core) : (s.modCore x f).acc = s.acc := by unfold State.modCore; rfl
@[simp] theorem State.modCore_planGen (x : Fin 192) (f : Core → Core) : (s.modCore x f).planGen = s.planGen := by unfold State.modCore; rfl
@[simp] theorem State.modCore_freeCtr (x : Fin 192) (f : Core → Core) : (s.modCore x f).freeCtr = s.freeCtr := by unfold State.modCore; rfl

@[simp] theorem State.modEng_part (e : EngId) (f : Engine → Engine) : (s.modEng e f).part = s.part := by unfold State.modEng; rfl
@[simp] theorem State.modEng_held (e : EngId) (f : Engine → Engine) : (s.modEng e f).held = s.held := by unfold State.modEng; rfl
@[simp] theorem State.modEng_thermTrip (e : EngId) (f : Engine → Engine) : (s.modEng e f).thermTrip = s.thermTrip := by unfold State.modEng; rfl
@[simp] theorem State.modEng_pending (e : EngId) (f : Engine → Engine) : (s.modEng e f).pending = s.pending := by unfold State.modEng; rfl
@[simp] theorem State.modEng_regs (e : EngId) (f : Engine → Engine) : (s.modEng e f).regs = s.regs := by unfold State.modEng; rfl
@[simp] theorem State.modEng_mem (e : EngId) (f : Engine → Engine) : (s.modEng e f).mem = s.mem := by unfold State.modEng; rfl
@[simp] theorem State.modEng_ctx (e : EngId) (f : Engine → Engine) : (s.modEng e f).ctx = s.ctx := by unfold State.modEng; rfl
@[simp] theorem State.modEng_prot (e : EngId) (f : Engine → Engine) : (s.modEng e f).prot = s.prot := by unfold State.modEng; rfl
@[simp] theorem State.modEng_posted (e : EngId) (f : Engine → Engine) : (s.modEng e f).posted = s.posted := by unfold State.modEng; rfl
@[simp] theorem State.modEng_tb (e : EngId) (f : Engine → Engine) : (s.modEng e f).tb = s.tb := by unfold State.modEng; rfl
@[simp] theorem State.modEng_targets (e : EngId) (f : Engine → Engine) : (s.modEng e f).targets = s.targets := by unfold State.modEng; rfl
@[simp] theorem State.modEng_replicas (e : EngId) (f : Engine → Engine) : (s.modEng e f).replicas = s.replicas := by unfold State.modEng; rfl
@[simp] theorem State.modEng_cores (e : EngId) (f : Engine → Engine) : (s.modEng e f).cores = s.cores := by unfold State.modEng; rfl
@[simp] theorem State.modEng_engSent (e : EngId) (f : Engine → Engine) : (s.modEng e f).engSent = s.engSent := by unfold State.modEng; rfl
@[simp] theorem State.modEng_engMsgs (e : EngId) (f : Engine → Engine) : (s.modEng e f).engMsgs = s.engMsgs := by unfold State.modEng; rfl
@[simp] theorem State.modEng_replies (e : EngId) (f : Engine → Engine) : (s.modEng e f).replies = s.replies := by unfold State.modEng; rfl
@[simp] theorem State.modEng_dpts (e : EngId) (f : Engine → Engine) : (s.modEng e f).dpts = s.dpts := by unfold State.modEng; rfl
@[simp] theorem State.modEng_chans (e : EngId) (f : Engine → Engine) : (s.modEng e f).chans = s.chans := by unfold State.modEng; rfl
@[simp] theorem State.modEng_flumeTurn (e : EngId) (f : Engine → Engine) : (s.modEng e f).flumeTurn = s.flumeTurn := by unfold State.modEng; rfl
@[simp] theorem State.modEng_fabric (e : EngId) (f : Engine → Engine) : (s.modEng e f).fabric = s.fabric := by unfold State.modEng; rfl
@[simp] theorem State.modEng_bfas (e : EngId) (f : Engine → Engine) : (s.modEng e f).bfas = s.bfas := by unfold State.modEng; rfl
@[simp] theorem State.modEng_lanes (e : EngId) (f : Engine → Engine) : (s.modEng e f).lanes = s.lanes := by unfold State.modEng; rfl
@[simp] theorem State.modEng_refLost (e : EngId) (f : Engine → Engine) : (s.modEng e f).refLost = s.refLost := by unfold State.modEng; rfl
@[simp] theorem State.modEng_hubs (e : EngId) (f : Engine → Engine) : (s.modEng e f).hubs = s.hubs := by unfold State.modEng; rfl
@[simp] theorem State.modEng_hif (e : EngId) (f : Engine → Engine) : (s.modEng e f).hif = s.hif := by unfold State.modEng; rfl
@[simp] theorem State.modEng_slc (e : EngId) (f : Engine → Engine) : (s.modEng e f).slc = s.slc := by unfold State.modEng; rfl
@[simp] theorem State.modEng_hk (e : EngId) (f : Engine → Engine) : (s.modEng e f).hk = s.hk := by unfold State.modEng; rfl
@[simp] theorem State.modEng_boot (e : EngId) (f : Engine → Engine) : (s.modEng e f).boot = s.boot := by unfold State.modEng; rfl
@[simp] theorem State.modEng_events (e : EngId) (f : Engine → Engine) : (s.modEng e f).events = s.events := by unfold State.modEng; rfl
@[simp] theorem State.modEng_wakes (e : EngId) (f : Engine → Engine) : (s.modEng e f).wakes = s.wakes := by unfold State.modEng; rfl
@[simp] theorem State.modEng_out (e : EngId) (f : Engine → Engine) : (s.modEng e f).out = s.out := by unfold State.modEng; rfl
@[simp] theorem State.modEng_acc (e : EngId) (f : Engine → Engine) : (s.modEng e f).acc = s.acc := by unfold State.modEng; rfl
@[simp] theorem State.modEng_planGen (e : EngId) (f : Engine → Engine) : (s.modEng e f).planGen = s.planGen := by unfold State.modEng; rfl
@[simp] theorem State.modEng_freeCtr (e : EngId) (f : Engine → Engine) : (s.modEng e f).freeCtr = s.freeCtr := by unfold State.modEng; rfl

@[simp] theorem State.modBfa_part (r : Fin 4) (f : Bfa → Bfa) : (s.modBfa r f).part = s.part := by unfold State.modBfa; rfl
@[simp] theorem State.modBfa_held (r : Fin 4) (f : Bfa → Bfa) : (s.modBfa r f).held = s.held := by unfold State.modBfa; rfl
@[simp] theorem State.modBfa_thermTrip (r : Fin 4) (f : Bfa → Bfa) : (s.modBfa r f).thermTrip = s.thermTrip := by unfold State.modBfa; rfl
@[simp] theorem State.modBfa_pending (r : Fin 4) (f : Bfa → Bfa) : (s.modBfa r f).pending = s.pending := by unfold State.modBfa; rfl
@[simp] theorem State.modBfa_regs (r : Fin 4) (f : Bfa → Bfa) : (s.modBfa r f).regs = s.regs := by unfold State.modBfa; rfl
@[simp] theorem State.modBfa_mem (r : Fin 4) (f : Bfa → Bfa) : (s.modBfa r f).mem = s.mem := by unfold State.modBfa; rfl
@[simp] theorem State.modBfa_ctx (r : Fin 4) (f : Bfa → Bfa) : (s.modBfa r f).ctx = s.ctx := by unfold State.modBfa; rfl
@[simp] theorem State.modBfa_prot (r : Fin 4) (f : Bfa → Bfa) : (s.modBfa r f).prot = s.prot := by unfold State.modBfa; rfl
@[simp] theorem State.modBfa_posted (r : Fin 4) (f : Bfa → Bfa) : (s.modBfa r f).posted = s.posted := by unfold State.modBfa; rfl
@[simp] theorem State.modBfa_tb (r : Fin 4) (f : Bfa → Bfa) : (s.modBfa r f).tb = s.tb := by unfold State.modBfa; rfl
@[simp] theorem State.modBfa_targets (r : Fin 4) (f : Bfa → Bfa) : (s.modBfa r f).targets = s.targets := by unfold State.modBfa; rfl
@[simp] theorem State.modBfa_replicas (r : Fin 4) (f : Bfa → Bfa) : (s.modBfa r f).replicas = s.replicas := by unfold State.modBfa; rfl
@[simp] theorem State.modBfa_cores (r : Fin 4) (f : Bfa → Bfa) : (s.modBfa r f).cores = s.cores := by unfold State.modBfa; rfl
@[simp] theorem State.modBfa_engines (r : Fin 4) (f : Bfa → Bfa) : (s.modBfa r f).engines = s.engines := by unfold State.modBfa; rfl
@[simp] theorem State.modBfa_engSent (r : Fin 4) (f : Bfa → Bfa) : (s.modBfa r f).engSent = s.engSent := by unfold State.modBfa; rfl
@[simp] theorem State.modBfa_engMsgs (r : Fin 4) (f : Bfa → Bfa) : (s.modBfa r f).engMsgs = s.engMsgs := by unfold State.modBfa; rfl
@[simp] theorem State.modBfa_replies (r : Fin 4) (f : Bfa → Bfa) : (s.modBfa r f).replies = s.replies := by unfold State.modBfa; rfl
@[simp] theorem State.modBfa_dpts (r : Fin 4) (f : Bfa → Bfa) : (s.modBfa r f).dpts = s.dpts := by unfold State.modBfa; rfl
@[simp] theorem State.modBfa_chans (r : Fin 4) (f : Bfa → Bfa) : (s.modBfa r f).chans = s.chans := by unfold State.modBfa; rfl
@[simp] theorem State.modBfa_flumeTurn (r : Fin 4) (f : Bfa → Bfa) : (s.modBfa r f).flumeTurn = s.flumeTurn := by unfold State.modBfa; rfl
@[simp] theorem State.modBfa_fabric (r : Fin 4) (f : Bfa → Bfa) : (s.modBfa r f).fabric = s.fabric := by unfold State.modBfa; rfl
@[simp] theorem State.modBfa_lanes (r : Fin 4) (f : Bfa → Bfa) : (s.modBfa r f).lanes = s.lanes := by unfold State.modBfa; rfl
@[simp] theorem State.modBfa_refLost (r : Fin 4) (f : Bfa → Bfa) : (s.modBfa r f).refLost = s.refLost := by unfold State.modBfa; rfl
@[simp] theorem State.modBfa_hubs (r : Fin 4) (f : Bfa → Bfa) : (s.modBfa r f).hubs = s.hubs := by unfold State.modBfa; rfl
@[simp] theorem State.modBfa_hif (r : Fin 4) (f : Bfa → Bfa) : (s.modBfa r f).hif = s.hif := by unfold State.modBfa; rfl
@[simp] theorem State.modBfa_slc (r : Fin 4) (f : Bfa → Bfa) : (s.modBfa r f).slc = s.slc := by unfold State.modBfa; rfl
@[simp] theorem State.modBfa_hk (r : Fin 4) (f : Bfa → Bfa) : (s.modBfa r f).hk = s.hk := by unfold State.modBfa; rfl
@[simp] theorem State.modBfa_boot (r : Fin 4) (f : Bfa → Bfa) : (s.modBfa r f).boot = s.boot := by unfold State.modBfa; rfl
@[simp] theorem State.modBfa_events (r : Fin 4) (f : Bfa → Bfa) : (s.modBfa r f).events = s.events := by unfold State.modBfa; rfl
@[simp] theorem State.modBfa_wakes (r : Fin 4) (f : Bfa → Bfa) : (s.modBfa r f).wakes = s.wakes := by unfold State.modBfa; rfl
@[simp] theorem State.modBfa_out (r : Fin 4) (f : Bfa → Bfa) : (s.modBfa r f).out = s.out := by unfold State.modBfa; rfl
@[simp] theorem State.modBfa_acc (r : Fin 4) (f : Bfa → Bfa) : (s.modBfa r f).acc = s.acc := by unfold State.modBfa; rfl
@[simp] theorem State.modBfa_planGen (r : Fin 4) (f : Bfa → Bfa) : (s.modBfa r f).planGen = s.planGen := by unfold State.modBfa; rfl
@[simp] theorem State.modBfa_freeCtr (r : Fin 4) (f : Bfa → Bfa) : (s.modBfa r f).freeCtr = s.freeCtr := by unfold State.modBfa; rfl

@[simp] theorem State.modLane_part (l : Fin 96) (f : Lane → Lane) : (s.modLane l f).part = s.part := by unfold State.modLane; rfl
@[simp] theorem State.modLane_held (l : Fin 96) (f : Lane → Lane) : (s.modLane l f).held = s.held := by unfold State.modLane; rfl
@[simp] theorem State.modLane_thermTrip (l : Fin 96) (f : Lane → Lane) : (s.modLane l f).thermTrip = s.thermTrip := by unfold State.modLane; rfl
@[simp] theorem State.modLane_pending (l : Fin 96) (f : Lane → Lane) : (s.modLane l f).pending = s.pending := by unfold State.modLane; rfl
@[simp] theorem State.modLane_regs (l : Fin 96) (f : Lane → Lane) : (s.modLane l f).regs = s.regs := by unfold State.modLane; rfl
@[simp] theorem State.modLane_mem (l : Fin 96) (f : Lane → Lane) : (s.modLane l f).mem = s.mem := by unfold State.modLane; rfl
@[simp] theorem State.modLane_ctx (l : Fin 96) (f : Lane → Lane) : (s.modLane l f).ctx = s.ctx := by unfold State.modLane; rfl
@[simp] theorem State.modLane_prot (l : Fin 96) (f : Lane → Lane) : (s.modLane l f).prot = s.prot := by unfold State.modLane; rfl
@[simp] theorem State.modLane_posted (l : Fin 96) (f : Lane → Lane) : (s.modLane l f).posted = s.posted := by unfold State.modLane; rfl
@[simp] theorem State.modLane_tb (l : Fin 96) (f : Lane → Lane) : (s.modLane l f).tb = s.tb := by unfold State.modLane; rfl
@[simp] theorem State.modLane_targets (l : Fin 96) (f : Lane → Lane) : (s.modLane l f).targets = s.targets := by unfold State.modLane; rfl
@[simp] theorem State.modLane_replicas (l : Fin 96) (f : Lane → Lane) : (s.modLane l f).replicas = s.replicas := by unfold State.modLane; rfl
@[simp] theorem State.modLane_cores (l : Fin 96) (f : Lane → Lane) : (s.modLane l f).cores = s.cores := by unfold State.modLane; rfl
@[simp] theorem State.modLane_engines (l : Fin 96) (f : Lane → Lane) : (s.modLane l f).engines = s.engines := by unfold State.modLane; rfl
@[simp] theorem State.modLane_engSent (l : Fin 96) (f : Lane → Lane) : (s.modLane l f).engSent = s.engSent := by unfold State.modLane; rfl
@[simp] theorem State.modLane_engMsgs (l : Fin 96) (f : Lane → Lane) : (s.modLane l f).engMsgs = s.engMsgs := by unfold State.modLane; rfl
@[simp] theorem State.modLane_replies (l : Fin 96) (f : Lane → Lane) : (s.modLane l f).replies = s.replies := by unfold State.modLane; rfl
@[simp] theorem State.modLane_dpts (l : Fin 96) (f : Lane → Lane) : (s.modLane l f).dpts = s.dpts := by unfold State.modLane; rfl
@[simp] theorem State.modLane_chans (l : Fin 96) (f : Lane → Lane) : (s.modLane l f).chans = s.chans := by unfold State.modLane; rfl
@[simp] theorem State.modLane_flumeTurn (l : Fin 96) (f : Lane → Lane) : (s.modLane l f).flumeTurn = s.flumeTurn := by unfold State.modLane; rfl
@[simp] theorem State.modLane_fabric (l : Fin 96) (f : Lane → Lane) : (s.modLane l f).fabric = s.fabric := by unfold State.modLane; rfl
@[simp] theorem State.modLane_bfas (l : Fin 96) (f : Lane → Lane) : (s.modLane l f).bfas = s.bfas := by unfold State.modLane; rfl
@[simp] theorem State.modLane_refLost (l : Fin 96) (f : Lane → Lane) : (s.modLane l f).refLost = s.refLost := by unfold State.modLane; rfl
@[simp] theorem State.modLane_hubs (l : Fin 96) (f : Lane → Lane) : (s.modLane l f).hubs = s.hubs := by unfold State.modLane; rfl
@[simp] theorem State.modLane_hif (l : Fin 96) (f : Lane → Lane) : (s.modLane l f).hif = s.hif := by unfold State.modLane; rfl
@[simp] theorem State.modLane_slc (l : Fin 96) (f : Lane → Lane) : (s.modLane l f).slc = s.slc := by unfold State.modLane; rfl
@[simp] theorem State.modLane_hk (l : Fin 96) (f : Lane → Lane) : (s.modLane l f).hk = s.hk := by unfold State.modLane; rfl
@[simp] theorem State.modLane_boot (l : Fin 96) (f : Lane → Lane) : (s.modLane l f).boot = s.boot := by unfold State.modLane; rfl
@[simp] theorem State.modLane_events (l : Fin 96) (f : Lane → Lane) : (s.modLane l f).events = s.events := by unfold State.modLane; rfl
@[simp] theorem State.modLane_wakes (l : Fin 96) (f : Lane → Lane) : (s.modLane l f).wakes = s.wakes := by unfold State.modLane; rfl
@[simp] theorem State.modLane_out (l : Fin 96) (f : Lane → Lane) : (s.modLane l f).out = s.out := by unfold State.modLane; rfl
@[simp] theorem State.modLane_acc (l : Fin 96) (f : Lane → Lane) : (s.modLane l f).acc = s.acc := by unfold State.modLane; rfl
@[simp] theorem State.modLane_planGen (l : Fin 96) (f : Lane → Lane) : (s.modLane l f).planGen = s.planGen := by unfold State.modLane; rfl
@[simp] theorem State.modLane_freeCtr (l : Fin 96) (f : Lane → Lane) : (s.modLane l f).freeCtr = s.freeCtr := by unfold State.modLane; rfl

@[simp] theorem State.modDac_part (c : Fin 8) (f : Dac → Dac) : (s.modDac c f).part = s.part := by unfold State.modDac; rfl
@[simp] theorem State.modDac_held (c : Fin 8) (f : Dac → Dac) : (s.modDac c f).held = s.held := by unfold State.modDac; rfl
@[simp] theorem State.modDac_thermTrip (c : Fin 8) (f : Dac → Dac) : (s.modDac c f).thermTrip = s.thermTrip := by unfold State.modDac; rfl
@[simp] theorem State.modDac_pending (c : Fin 8) (f : Dac → Dac) : (s.modDac c f).pending = s.pending := by unfold State.modDac; rfl
@[simp] theorem State.modDac_regs (c : Fin 8) (f : Dac → Dac) : (s.modDac c f).regs = s.regs := by unfold State.modDac; rfl
@[simp] theorem State.modDac_mem (c : Fin 8) (f : Dac → Dac) : (s.modDac c f).mem = s.mem := by unfold State.modDac; rfl
@[simp] theorem State.modDac_ctx (c : Fin 8) (f : Dac → Dac) : (s.modDac c f).ctx = s.ctx := by unfold State.modDac; rfl
@[simp] theorem State.modDac_prot (c : Fin 8) (f : Dac → Dac) : (s.modDac c f).prot = s.prot := by unfold State.modDac; rfl
@[simp] theorem State.modDac_posted (c : Fin 8) (f : Dac → Dac) : (s.modDac c f).posted = s.posted := by unfold State.modDac; rfl
@[simp] theorem State.modDac_tb (c : Fin 8) (f : Dac → Dac) : (s.modDac c f).tb = s.tb := by unfold State.modDac; rfl
@[simp] theorem State.modDac_targets (c : Fin 8) (f : Dac → Dac) : (s.modDac c f).targets = s.targets := by unfold State.modDac; rfl
@[simp] theorem State.modDac_replicas (c : Fin 8) (f : Dac → Dac) : (s.modDac c f).replicas = s.replicas := by unfold State.modDac; rfl
@[simp] theorem State.modDac_cores (c : Fin 8) (f : Dac → Dac) : (s.modDac c f).cores = s.cores := by unfold State.modDac; rfl
@[simp] theorem State.modDac_engines (c : Fin 8) (f : Dac → Dac) : (s.modDac c f).engines = s.engines := by unfold State.modDac; rfl
@[simp] theorem State.modDac_engSent (c : Fin 8) (f : Dac → Dac) : (s.modDac c f).engSent = s.engSent := by unfold State.modDac; rfl
@[simp] theorem State.modDac_engMsgs (c : Fin 8) (f : Dac → Dac) : (s.modDac c f).engMsgs = s.engMsgs := by unfold State.modDac; rfl
@[simp] theorem State.modDac_replies (c : Fin 8) (f : Dac → Dac) : (s.modDac c f).replies = s.replies := by unfold State.modDac; rfl
@[simp] theorem State.modDac_dpts (c : Fin 8) (f : Dac → Dac) : (s.modDac c f).dpts = s.dpts := by unfold State.modDac; rfl
@[simp] theorem State.modDac_chans (c : Fin 8) (f : Dac → Dac) : (s.modDac c f).chans = s.chans := by unfold State.modDac; rfl
@[simp] theorem State.modDac_flumeTurn (c : Fin 8) (f : Dac → Dac) : (s.modDac c f).flumeTurn = s.flumeTurn := by unfold State.modDac; rfl
@[simp] theorem State.modDac_fabric (c : Fin 8) (f : Dac → Dac) : (s.modDac c f).fabric = s.fabric := by unfold State.modDac; rfl
@[simp] theorem State.modDac_bfas (c : Fin 8) (f : Dac → Dac) : (s.modDac c f).bfas = s.bfas := by unfold State.modDac; rfl
@[simp] theorem State.modDac_lanes (c : Fin 8) (f : Dac → Dac) : (s.modDac c f).lanes = s.lanes := by unfold State.modDac; rfl
@[simp] theorem State.modDac_refLost (c : Fin 8) (f : Dac → Dac) : (s.modDac c f).refLost = s.refLost := by unfold State.modDac; rfl
@[simp] theorem State.modDac_hubs (c : Fin 8) (f : Dac → Dac) : (s.modDac c f).hubs = s.hubs := by unfold State.modDac; rfl
@[simp] theorem State.modDac_hif (c : Fin 8) (f : Dac → Dac) : (s.modDac c f).hif = s.hif := by unfold State.modDac; rfl
@[simp] theorem State.modDac_slc (c : Fin 8) (f : Dac → Dac) : (s.modDac c f).slc = s.slc := by unfold State.modDac; rfl
@[simp] theorem State.modDac_boot (c : Fin 8) (f : Dac → Dac) : (s.modDac c f).boot = s.boot := by unfold State.modDac; rfl
@[simp] theorem State.modDac_events (c : Fin 8) (f : Dac → Dac) : (s.modDac c f).events = s.events := by unfold State.modDac; rfl
@[simp] theorem State.modDac_wakes (c : Fin 8) (f : Dac → Dac) : (s.modDac c f).wakes = s.wakes := by unfold State.modDac; rfl
@[simp] theorem State.modDac_out (c : Fin 8) (f : Dac → Dac) : (s.modDac c f).out = s.out := by unfold State.modDac; rfl
@[simp] theorem State.modDac_acc (c : Fin 8) (f : Dac → Dac) : (s.modDac c f).acc = s.acc := by unfold State.modDac; rfl
@[simp] theorem State.modDac_planGen (c : Fin 8) (f : Dac → Dac) : (s.modDac c f).planGen = s.planGen := by unfold State.modDac; rfl
@[simp] theorem State.modDac_freeCtr (c : Fin 8) (f : Dac → Dac) : (s.modDac c f).freeCtr = s.freeCtr := by unfold State.modDac; rfl

@[simp] theorem State.modSlc_part (f : Slc → Slc) : (s.modSlc f).part = s.part := by unfold State.modSlc; rfl
@[simp] theorem State.modSlc_held (f : Slc → Slc) : (s.modSlc f).held = s.held := by unfold State.modSlc; rfl
@[simp] theorem State.modSlc_thermTrip (f : Slc → Slc) : (s.modSlc f).thermTrip = s.thermTrip := by unfold State.modSlc; rfl
@[simp] theorem State.modSlc_pending (f : Slc → Slc) : (s.modSlc f).pending = s.pending := by unfold State.modSlc; rfl
@[simp] theorem State.modSlc_regs (f : Slc → Slc) : (s.modSlc f).regs = s.regs := by unfold State.modSlc; rfl
@[simp] theorem State.modSlc_mem (f : Slc → Slc) : (s.modSlc f).mem = s.mem := by unfold State.modSlc; rfl
@[simp] theorem State.modSlc_ctx (f : Slc → Slc) : (s.modSlc f).ctx = s.ctx := by unfold State.modSlc; rfl
@[simp] theorem State.modSlc_prot (f : Slc → Slc) : (s.modSlc f).prot = s.prot := by unfold State.modSlc; rfl
@[simp] theorem State.modSlc_posted (f : Slc → Slc) : (s.modSlc f).posted = s.posted := by unfold State.modSlc; rfl
@[simp] theorem State.modSlc_tb (f : Slc → Slc) : (s.modSlc f).tb = s.tb := by unfold State.modSlc; rfl
@[simp] theorem State.modSlc_targets (f : Slc → Slc) : (s.modSlc f).targets = s.targets := by unfold State.modSlc; rfl
@[simp] theorem State.modSlc_replicas (f : Slc → Slc) : (s.modSlc f).replicas = s.replicas := by unfold State.modSlc; rfl
@[simp] theorem State.modSlc_cores (f : Slc → Slc) : (s.modSlc f).cores = s.cores := by unfold State.modSlc; rfl
@[simp] theorem State.modSlc_engines (f : Slc → Slc) : (s.modSlc f).engines = s.engines := by unfold State.modSlc; rfl
@[simp] theorem State.modSlc_engSent (f : Slc → Slc) : (s.modSlc f).engSent = s.engSent := by unfold State.modSlc; rfl
@[simp] theorem State.modSlc_engMsgs (f : Slc → Slc) : (s.modSlc f).engMsgs = s.engMsgs := by unfold State.modSlc; rfl
@[simp] theorem State.modSlc_replies (f : Slc → Slc) : (s.modSlc f).replies = s.replies := by unfold State.modSlc; rfl
@[simp] theorem State.modSlc_dpts (f : Slc → Slc) : (s.modSlc f).dpts = s.dpts := by unfold State.modSlc; rfl
@[simp] theorem State.modSlc_chans (f : Slc → Slc) : (s.modSlc f).chans = s.chans := by unfold State.modSlc; rfl
@[simp] theorem State.modSlc_flumeTurn (f : Slc → Slc) : (s.modSlc f).flumeTurn = s.flumeTurn := by unfold State.modSlc; rfl
@[simp] theorem State.modSlc_fabric (f : Slc → Slc) : (s.modSlc f).fabric = s.fabric := by unfold State.modSlc; rfl
@[simp] theorem State.modSlc_bfas (f : Slc → Slc) : (s.modSlc f).bfas = s.bfas := by unfold State.modSlc; rfl
@[simp] theorem State.modSlc_lanes (f : Slc → Slc) : (s.modSlc f).lanes = s.lanes := by unfold State.modSlc; rfl
@[simp] theorem State.modSlc_refLost (f : Slc → Slc) : (s.modSlc f).refLost = s.refLost := by unfold State.modSlc; rfl
@[simp] theorem State.modSlc_hubs (f : Slc → Slc) : (s.modSlc f).hubs = s.hubs := by unfold State.modSlc; rfl
@[simp] theorem State.modSlc_hif (f : Slc → Slc) : (s.modSlc f).hif = s.hif := by unfold State.modSlc; rfl
@[simp] theorem State.modSlc_hk (f : Slc → Slc) : (s.modSlc f).hk = s.hk := by unfold State.modSlc; rfl
@[simp] theorem State.modSlc_boot (f : Slc → Slc) : (s.modSlc f).boot = s.boot := by unfold State.modSlc; rfl
@[simp] theorem State.modSlc_events (f : Slc → Slc) : (s.modSlc f).events = s.events := by unfold State.modSlc; rfl
@[simp] theorem State.modSlc_wakes (f : Slc → Slc) : (s.modSlc f).wakes = s.wakes := by unfold State.modSlc; rfl
@[simp] theorem State.modSlc_out (f : Slc → Slc) : (s.modSlc f).out = s.out := by unfold State.modSlc; rfl
@[simp] theorem State.modSlc_acc (f : Slc → Slc) : (s.modSlc f).acc = s.acc := by unfold State.modSlc; rfl
@[simp] theorem State.modSlc_planGen (f : Slc → Slc) : (s.modSlc f).planGen = s.planGen := by unfold State.modSlc; rfl
@[simp] theorem State.modSlc_freeCtr (f : Slc → Slc) : (s.modSlc f).freeCtr = s.freeCtr := by unfold State.modSlc; rfl

@[simp] theorem State.modBoot_part (f : Boot → Boot) : (s.modBoot f).part = s.part := by unfold State.modBoot; rfl
@[simp] theorem State.modBoot_held (f : Boot → Boot) : (s.modBoot f).held = s.held := by unfold State.modBoot; rfl
@[simp] theorem State.modBoot_thermTrip (f : Boot → Boot) : (s.modBoot f).thermTrip = s.thermTrip := by unfold State.modBoot; rfl
@[simp] theorem State.modBoot_pending (f : Boot → Boot) : (s.modBoot f).pending = s.pending := by unfold State.modBoot; rfl
@[simp] theorem State.modBoot_regs (f : Boot → Boot) : (s.modBoot f).regs = s.regs := by unfold State.modBoot; rfl
@[simp] theorem State.modBoot_mem (f : Boot → Boot) : (s.modBoot f).mem = s.mem := by unfold State.modBoot; rfl
@[simp] theorem State.modBoot_ctx (f : Boot → Boot) : (s.modBoot f).ctx = s.ctx := by unfold State.modBoot; rfl
@[simp] theorem State.modBoot_prot (f : Boot → Boot) : (s.modBoot f).prot = s.prot := by unfold State.modBoot; rfl
@[simp] theorem State.modBoot_posted (f : Boot → Boot) : (s.modBoot f).posted = s.posted := by unfold State.modBoot; rfl
@[simp] theorem State.modBoot_tb (f : Boot → Boot) : (s.modBoot f).tb = s.tb := by unfold State.modBoot; rfl
@[simp] theorem State.modBoot_targets (f : Boot → Boot) : (s.modBoot f).targets = s.targets := by unfold State.modBoot; rfl
@[simp] theorem State.modBoot_replicas (f : Boot → Boot) : (s.modBoot f).replicas = s.replicas := by unfold State.modBoot; rfl
@[simp] theorem State.modBoot_cores (f : Boot → Boot) : (s.modBoot f).cores = s.cores := by unfold State.modBoot; rfl
@[simp] theorem State.modBoot_engines (f : Boot → Boot) : (s.modBoot f).engines = s.engines := by unfold State.modBoot; rfl
@[simp] theorem State.modBoot_engSent (f : Boot → Boot) : (s.modBoot f).engSent = s.engSent := by unfold State.modBoot; rfl
@[simp] theorem State.modBoot_engMsgs (f : Boot → Boot) : (s.modBoot f).engMsgs = s.engMsgs := by unfold State.modBoot; rfl
@[simp] theorem State.modBoot_replies (f : Boot → Boot) : (s.modBoot f).replies = s.replies := by unfold State.modBoot; rfl
@[simp] theorem State.modBoot_dpts (f : Boot → Boot) : (s.modBoot f).dpts = s.dpts := by unfold State.modBoot; rfl
@[simp] theorem State.modBoot_chans (f : Boot → Boot) : (s.modBoot f).chans = s.chans := by unfold State.modBoot; rfl
@[simp] theorem State.modBoot_flumeTurn (f : Boot → Boot) : (s.modBoot f).flumeTurn = s.flumeTurn := by unfold State.modBoot; rfl
@[simp] theorem State.modBoot_fabric (f : Boot → Boot) : (s.modBoot f).fabric = s.fabric := by unfold State.modBoot; rfl
@[simp] theorem State.modBoot_bfas (f : Boot → Boot) : (s.modBoot f).bfas = s.bfas := by unfold State.modBoot; rfl
@[simp] theorem State.modBoot_lanes (f : Boot → Boot) : (s.modBoot f).lanes = s.lanes := by unfold State.modBoot; rfl
@[simp] theorem State.modBoot_refLost (f : Boot → Boot) : (s.modBoot f).refLost = s.refLost := by unfold State.modBoot; rfl
@[simp] theorem State.modBoot_hubs (f : Boot → Boot) : (s.modBoot f).hubs = s.hubs := by unfold State.modBoot; rfl
@[simp] theorem State.modBoot_hif (f : Boot → Boot) : (s.modBoot f).hif = s.hif := by unfold State.modBoot; rfl
@[simp] theorem State.modBoot_slc (f : Boot → Boot) : (s.modBoot f).slc = s.slc := by unfold State.modBoot; rfl
@[simp] theorem State.modBoot_hk (f : Boot → Boot) : (s.modBoot f).hk = s.hk := by unfold State.modBoot; rfl
@[simp] theorem State.modBoot_events (f : Boot → Boot) : (s.modBoot f).events = s.events := by unfold State.modBoot; rfl
@[simp] theorem State.modBoot_wakes (f : Boot → Boot) : (s.modBoot f).wakes = s.wakes := by unfold State.modBoot; rfl
@[simp] theorem State.modBoot_out (f : Boot → Boot) : (s.modBoot f).out = s.out := by unfold State.modBoot; rfl
@[simp] theorem State.modBoot_acc (f : Boot → Boot) : (s.modBoot f).acc = s.acc := by unfold State.modBoot; rfl
@[simp] theorem State.modBoot_planGen (f : Boot → Boot) : (s.modBoot f).planGen = s.planGen := by unfold State.modBoot; rfl
@[simp] theorem State.modBoot_freeCtr (f : Boot → Boot) : (s.modBoot f).freeCtr = s.freeCtr := by unfold State.modBoot; rfl

@[simp] theorem State.modChan_part (c : FlumeId) (f : Chan → Chan) : (s.modChan c f).part = s.part := by unfold State.modChan; rfl
@[simp] theorem State.modChan_held (c : FlumeId) (f : Chan → Chan) : (s.modChan c f).held = s.held := by unfold State.modChan; rfl
@[simp] theorem State.modChan_thermTrip (c : FlumeId) (f : Chan → Chan) : (s.modChan c f).thermTrip = s.thermTrip := by unfold State.modChan; rfl
@[simp] theorem State.modChan_pending (c : FlumeId) (f : Chan → Chan) : (s.modChan c f).pending = s.pending := by unfold State.modChan; rfl
@[simp] theorem State.modChan_regs (c : FlumeId) (f : Chan → Chan) : (s.modChan c f).regs = s.regs := by unfold State.modChan; rfl
@[simp] theorem State.modChan_mem (c : FlumeId) (f : Chan → Chan) : (s.modChan c f).mem = s.mem := by unfold State.modChan; rfl
@[simp] theorem State.modChan_ctx (c : FlumeId) (f : Chan → Chan) : (s.modChan c f).ctx = s.ctx := by unfold State.modChan; rfl
@[simp] theorem State.modChan_prot (c : FlumeId) (f : Chan → Chan) : (s.modChan c f).prot = s.prot := by unfold State.modChan; rfl
@[simp] theorem State.modChan_posted (c : FlumeId) (f : Chan → Chan) : (s.modChan c f).posted = s.posted := by unfold State.modChan; rfl
@[simp] theorem State.modChan_tb (c : FlumeId) (f : Chan → Chan) : (s.modChan c f).tb = s.tb := by unfold State.modChan; rfl
@[simp] theorem State.modChan_targets (c : FlumeId) (f : Chan → Chan) : (s.modChan c f).targets = s.targets := by unfold State.modChan; rfl
@[simp] theorem State.modChan_replicas (c : FlumeId) (f : Chan → Chan) : (s.modChan c f).replicas = s.replicas := by unfold State.modChan; rfl
@[simp] theorem State.modChan_cores (c : FlumeId) (f : Chan → Chan) : (s.modChan c f).cores = s.cores := by unfold State.modChan; rfl
@[simp] theorem State.modChan_engines (c : FlumeId) (f : Chan → Chan) : (s.modChan c f).engines = s.engines := by unfold State.modChan; rfl
@[simp] theorem State.modChan_engSent (c : FlumeId) (f : Chan → Chan) : (s.modChan c f).engSent = s.engSent := by unfold State.modChan; rfl
@[simp] theorem State.modChan_engMsgs (c : FlumeId) (f : Chan → Chan) : (s.modChan c f).engMsgs = s.engMsgs := by unfold State.modChan; rfl
@[simp] theorem State.modChan_replies (c : FlumeId) (f : Chan → Chan) : (s.modChan c f).replies = s.replies := by unfold State.modChan; rfl
@[simp] theorem State.modChan_dpts (c : FlumeId) (f : Chan → Chan) : (s.modChan c f).dpts = s.dpts := by unfold State.modChan; rfl
@[simp] theorem State.modChan_flumeTurn (c : FlumeId) (f : Chan → Chan) : (s.modChan c f).flumeTurn = s.flumeTurn := by unfold State.modChan; rfl
@[simp] theorem State.modChan_fabric (c : FlumeId) (f : Chan → Chan) : (s.modChan c f).fabric = s.fabric := by unfold State.modChan; rfl
@[simp] theorem State.modChan_bfas (c : FlumeId) (f : Chan → Chan) : (s.modChan c f).bfas = s.bfas := by unfold State.modChan; rfl
@[simp] theorem State.modChan_lanes (c : FlumeId) (f : Chan → Chan) : (s.modChan c f).lanes = s.lanes := by unfold State.modChan; rfl
@[simp] theorem State.modChan_refLost (c : FlumeId) (f : Chan → Chan) : (s.modChan c f).refLost = s.refLost := by unfold State.modChan; rfl
@[simp] theorem State.modChan_hubs (c : FlumeId) (f : Chan → Chan) : (s.modChan c f).hubs = s.hubs := by unfold State.modChan; rfl
@[simp] theorem State.modChan_hif (c : FlumeId) (f : Chan → Chan) : (s.modChan c f).hif = s.hif := by unfold State.modChan; rfl
@[simp] theorem State.modChan_slc (c : FlumeId) (f : Chan → Chan) : (s.modChan c f).slc = s.slc := by unfold State.modChan; rfl
@[simp] theorem State.modChan_hk (c : FlumeId) (f : Chan → Chan) : (s.modChan c f).hk = s.hk := by unfold State.modChan; rfl
@[simp] theorem State.modChan_boot (c : FlumeId) (f : Chan → Chan) : (s.modChan c f).boot = s.boot := by unfold State.modChan; rfl
@[simp] theorem State.modChan_events (c : FlumeId) (f : Chan → Chan) : (s.modChan c f).events = s.events := by unfold State.modChan; rfl
@[simp] theorem State.modChan_wakes (c : FlumeId) (f : Chan → Chan) : (s.modChan c f).wakes = s.wakes := by unfold State.modChan; rfl
@[simp] theorem State.modChan_out (c : FlumeId) (f : Chan → Chan) : (s.modChan c f).out = s.out := by unfold State.modChan; rfl
@[simp] theorem State.modChan_acc (c : FlumeId) (f : Chan → Chan) : (s.modChan c f).acc = s.acc := by unfold State.modChan; rfl
@[simp] theorem State.modChan_planGen (c : FlumeId) (f : Chan → Chan) : (s.modChan c f).planGen = s.planGen := by unfold State.modChan; rfl
@[simp] theorem State.modChan_freeCtr (c : FlumeId) (f : Chan → Chan) : (s.modChan c f).freeCtr = s.freeCtr := by unfold State.modChan; rfl

@[simp] theorem State.modHub_part (h : Fin 4) (f : Hub → Hub) : (s.modHub h f).part = s.part := by unfold State.modHub; rfl
@[simp] theorem State.modHub_held (h : Fin 4) (f : Hub → Hub) : (s.modHub h f).held = s.held := by unfold State.modHub; rfl
@[simp] theorem State.modHub_thermTrip (h : Fin 4) (f : Hub → Hub) : (s.modHub h f).thermTrip = s.thermTrip := by unfold State.modHub; rfl
@[simp] theorem State.modHub_pending (h : Fin 4) (f : Hub → Hub) : (s.modHub h f).pending = s.pending := by unfold State.modHub; rfl
@[simp] theorem State.modHub_regs (h : Fin 4) (f : Hub → Hub) : (s.modHub h f).regs = s.regs := by unfold State.modHub; rfl
@[simp] theorem State.modHub_mem (h : Fin 4) (f : Hub → Hub) : (s.modHub h f).mem = s.mem := by unfold State.modHub; rfl
@[simp] theorem State.modHub_ctx (h : Fin 4) (f : Hub → Hub) : (s.modHub h f).ctx = s.ctx := by unfold State.modHub; rfl
@[simp] theorem State.modHub_prot (h : Fin 4) (f : Hub → Hub) : (s.modHub h f).prot = s.prot := by unfold State.modHub; rfl
@[simp] theorem State.modHub_posted (h : Fin 4) (f : Hub → Hub) : (s.modHub h f).posted = s.posted := by unfold State.modHub; rfl
@[simp] theorem State.modHub_tb (h : Fin 4) (f : Hub → Hub) : (s.modHub h f).tb = s.tb := by unfold State.modHub; rfl
@[simp] theorem State.modHub_targets (h : Fin 4) (f : Hub → Hub) : (s.modHub h f).targets = s.targets := by unfold State.modHub; rfl
@[simp] theorem State.modHub_replicas (h : Fin 4) (f : Hub → Hub) : (s.modHub h f).replicas = s.replicas := by unfold State.modHub; rfl
@[simp] theorem State.modHub_cores (h : Fin 4) (f : Hub → Hub) : (s.modHub h f).cores = s.cores := by unfold State.modHub; rfl
@[simp] theorem State.modHub_engines (h : Fin 4) (f : Hub → Hub) : (s.modHub h f).engines = s.engines := by unfold State.modHub; rfl
@[simp] theorem State.modHub_engSent (h : Fin 4) (f : Hub → Hub) : (s.modHub h f).engSent = s.engSent := by unfold State.modHub; rfl
@[simp] theorem State.modHub_engMsgs (h : Fin 4) (f : Hub → Hub) : (s.modHub h f).engMsgs = s.engMsgs := by unfold State.modHub; rfl
@[simp] theorem State.modHub_replies (h : Fin 4) (f : Hub → Hub) : (s.modHub h f).replies = s.replies := by unfold State.modHub; rfl
@[simp] theorem State.modHub_dpts (h : Fin 4) (f : Hub → Hub) : (s.modHub h f).dpts = s.dpts := by unfold State.modHub; rfl
@[simp] theorem State.modHub_chans (h : Fin 4) (f : Hub → Hub) : (s.modHub h f).chans = s.chans := by unfold State.modHub; rfl
@[simp] theorem State.modHub_flumeTurn (h : Fin 4) (f : Hub → Hub) : (s.modHub h f).flumeTurn = s.flumeTurn := by unfold State.modHub; rfl
@[simp] theorem State.modHub_fabric (h : Fin 4) (f : Hub → Hub) : (s.modHub h f).fabric = s.fabric := by unfold State.modHub; rfl
@[simp] theorem State.modHub_bfas (h : Fin 4) (f : Hub → Hub) : (s.modHub h f).bfas = s.bfas := by unfold State.modHub; rfl
@[simp] theorem State.modHub_lanes (h : Fin 4) (f : Hub → Hub) : (s.modHub h f).lanes = s.lanes := by unfold State.modHub; rfl
@[simp] theorem State.modHub_refLost (h : Fin 4) (f : Hub → Hub) : (s.modHub h f).refLost = s.refLost := by unfold State.modHub; rfl
@[simp] theorem State.modHub_hif (h : Fin 4) (f : Hub → Hub) : (s.modHub h f).hif = s.hif := by unfold State.modHub; rfl
@[simp] theorem State.modHub_slc (h : Fin 4) (f : Hub → Hub) : (s.modHub h f).slc = s.slc := by unfold State.modHub; rfl
@[simp] theorem State.modHub_hk (h : Fin 4) (f : Hub → Hub) : (s.modHub h f).hk = s.hk := by unfold State.modHub; rfl
@[simp] theorem State.modHub_boot (h : Fin 4) (f : Hub → Hub) : (s.modHub h f).boot = s.boot := by unfold State.modHub; rfl
@[simp] theorem State.modHub_events (h : Fin 4) (f : Hub → Hub) : (s.modHub h f).events = s.events := by unfold State.modHub; rfl
@[simp] theorem State.modHub_wakes (h : Fin 4) (f : Hub → Hub) : (s.modHub h f).wakes = s.wakes := by unfold State.modHub; rfl
@[simp] theorem State.modHub_out (h : Fin 4) (f : Hub → Hub) : (s.modHub h f).out = s.out := by unfold State.modHub; rfl
@[simp] theorem State.modHub_acc (h : Fin 4) (f : Hub → Hub) : (s.modHub h f).acc = s.acc := by unfold State.modHub; rfl
@[simp] theorem State.modHub_planGen (h : Fin 4) (f : Hub → Hub) : (s.modHub h f).planGen = s.planGen := by unfold State.modHub; rfl
@[simp] theorem State.modHub_freeCtr (h : Fin 4) (f : Hub → Hub) : (s.modHub h f).freeCtr = s.freeCtr := by unfold State.modHub; rfl

@[simp] theorem State.setByte_part (a : Nat) (b : Byte) : (s.setByte a b).part = s.part := by unfold State.setByte; rfl
@[simp] theorem State.setByte_held (a : Nat) (b : Byte) : (s.setByte a b).held = s.held := by unfold State.setByte; rfl
@[simp] theorem State.setByte_thermTrip (a : Nat) (b : Byte) : (s.setByte a b).thermTrip = s.thermTrip := by unfold State.setByte; rfl
@[simp] theorem State.setByte_pending (a : Nat) (b : Byte) : (s.setByte a b).pending = s.pending := by unfold State.setByte; rfl
@[simp] theorem State.setByte_regs (a : Nat) (b : Byte) : (s.setByte a b).regs = s.regs := by unfold State.setByte; rfl
@[simp] theorem State.setByte_ctx (a : Nat) (b : Byte) : (s.setByte a b).ctx = s.ctx := by unfold State.setByte; rfl
@[simp] theorem State.setByte_prot (a : Nat) (b : Byte) : (s.setByte a b).prot = s.prot := by unfold State.setByte; rfl
@[simp] theorem State.setByte_posted (a : Nat) (b : Byte) : (s.setByte a b).posted = s.posted := by unfold State.setByte; rfl
@[simp] theorem State.setByte_tb (a : Nat) (b : Byte) : (s.setByte a b).tb = s.tb := by unfold State.setByte; rfl
@[simp] theorem State.setByte_targets (a : Nat) (b : Byte) : (s.setByte a b).targets = s.targets := by unfold State.setByte; rfl
@[simp] theorem State.setByte_replicas (a : Nat) (b : Byte) : (s.setByte a b).replicas = s.replicas := by unfold State.setByte; rfl
@[simp] theorem State.setByte_cores (a : Nat) (b : Byte) : (s.setByte a b).cores = s.cores := by unfold State.setByte; rfl
@[simp] theorem State.setByte_engines (a : Nat) (b : Byte) : (s.setByte a b).engines = s.engines := by unfold State.setByte; rfl
@[simp] theorem State.setByte_engSent (a : Nat) (b : Byte) : (s.setByte a b).engSent = s.engSent := by unfold State.setByte; rfl
@[simp] theorem State.setByte_engMsgs (a : Nat) (b : Byte) : (s.setByte a b).engMsgs = s.engMsgs := by unfold State.setByte; rfl
@[simp] theorem State.setByte_replies (a : Nat) (b : Byte) : (s.setByte a b).replies = s.replies := by unfold State.setByte; rfl
@[simp] theorem State.setByte_dpts (a : Nat) (b : Byte) : (s.setByte a b).dpts = s.dpts := by unfold State.setByte; rfl
@[simp] theorem State.setByte_chans (a : Nat) (b : Byte) : (s.setByte a b).chans = s.chans := by unfold State.setByte; rfl
@[simp] theorem State.setByte_flumeTurn (a : Nat) (b : Byte) : (s.setByte a b).flumeTurn = s.flumeTurn := by unfold State.setByte; rfl
@[simp] theorem State.setByte_fabric (a : Nat) (b : Byte) : (s.setByte a b).fabric = s.fabric := by unfold State.setByte; rfl
@[simp] theorem State.setByte_bfas (a : Nat) (b : Byte) : (s.setByte a b).bfas = s.bfas := by unfold State.setByte; rfl
@[simp] theorem State.setByte_lanes (a : Nat) (b : Byte) : (s.setByte a b).lanes = s.lanes := by unfold State.setByte; rfl
@[simp] theorem State.setByte_refLost (a : Nat) (b : Byte) : (s.setByte a b).refLost = s.refLost := by unfold State.setByte; rfl
@[simp] theorem State.setByte_hubs (a : Nat) (b : Byte) : (s.setByte a b).hubs = s.hubs := by unfold State.setByte; rfl
@[simp] theorem State.setByte_hif (a : Nat) (b : Byte) : (s.setByte a b).hif = s.hif := by unfold State.setByte; rfl
@[simp] theorem State.setByte_slc (a : Nat) (b : Byte) : (s.setByte a b).slc = s.slc := by unfold State.setByte; rfl
@[simp] theorem State.setByte_hk (a : Nat) (b : Byte) : (s.setByte a b).hk = s.hk := by unfold State.setByte; rfl
@[simp] theorem State.setByte_boot (a : Nat) (b : Byte) : (s.setByte a b).boot = s.boot := by unfold State.setByte; rfl
@[simp] theorem State.setByte_events (a : Nat) (b : Byte) : (s.setByte a b).events = s.events := by unfold State.setByte; rfl
@[simp] theorem State.setByte_wakes (a : Nat) (b : Byte) : (s.setByte a b).wakes = s.wakes := by unfold State.setByte; rfl
@[simp] theorem State.setByte_out (a : Nat) (b : Byte) : (s.setByte a b).out = s.out := by unfold State.setByte; rfl
@[simp] theorem State.setByte_acc (a : Nat) (b : Byte) : (s.setByte a b).acc = s.acc := by unfold State.setByte; rfl
@[simp] theorem State.setByte_planGen (a : Nat) (b : Byte) : (s.setByte a b).planGen = s.planGen := by unfold State.setByte; rfl
@[simp] theorem State.setByte_freeCtr (a : Nat) (b : Byte) : (s.setByte a b).freeCtr = s.freeCtr := by unfold State.setByte; rfl

end Sys2Proof.Machine
end

