-- ==== Sys2Proof/Laws/Memory.lean ====
section
/-! SUPPORT. Memory and the register file: read after write, bytes and registers left alone, and the canonical form of memory, which
every operation on it keeps. -/

namespace Sys2Proof.Machine

/-! Registers -/

theorem State.regDflt_setReg (s : State) (a : Nat) (v : Word) : (s.setReg a v).regDflt = s.regDflt := by
  funext b
  simp [State.regDflt]

/-- A register reads as the value set. -/
@[simp] theorem State.reg_setReg_same (s : State) (a : Nat) (v : Word) : (s.setReg a v).reg a = v := by
  unfold State.reg
  rw [State.regDflt_setReg]
  exact sget_sset_same _ _ _ _

/-- Setting a register leaves every other one alone. -/
theorem State.reg_setReg_ne (s : State) {a b : Nat} (v : Word) (h : b ≠ a) : (s.setReg a v).reg b = s.reg b := by
  unfold State.reg
  rw [State.regDflt_setReg]
  exact sget_sset_ne _ _ _ h

/-! Bytes -/

@[simp] theorem State.byte_setByte_same (s : State) (a : Nat) (b : Byte) : (s.setByte a b).byte a = b :=
  sget_sset_same memDefault s.mem a b

theorem State.byte_setByte_ne (s : State) {a k : Nat} (b : Byte) (h : k ≠ a) : (s.setByte a b).byte k = s.byte k :=
  sget_sset_ne memDefault s.mem b h

/-- Writing bytes leaves those outside alone. -/
theorem State.byte_setBytes_out (l : List Byte) : ∀ (s : State) (a k : Nat), (k < a ∨ a + l.length ≤ k) →
    (s.setBytes a l).byte k = s.byte k := by
  induction l with
  | nil => intro s a k _; rfl
  | cons b bs ih =>
    intro s a k h
    have hl : (b :: bs).length = bs.length + 1 := rfl
    rw [State.setBytes, ih (s.setByte a b) (a + 1) k (by omega)]
    exact s.byte_setByte_ne b (by omega)

/-- Bytes written read back. -/
theorem State.byte_setBytes_in (l : List Byte) : ∀ (s : State) (a i : Nat) (h : i < l.length),
    (s.setBytes a l).byte (a + i) = l[i] := by
  induction l with
  | nil => intro s a i h; exact absurd h (Nat.not_lt_zero i)
  | cons b bs ih =>
    intro s a i h
    cases i with
    | zero =>
      rw [State.setBytes, State.byte_setBytes_out bs _ _ _ (Or.inl (by omega))]
      simp
    | succ j =>
      have hj : j < bs.length := by simpa using h
      have e := ih (s.setByte a b) (a + 1) j hj
      rw [State.setBytes, show a + (j + 1) = a + 1 + j by omega]
      simpa using e

/-! Canonical form -/

theorem swfFrom_filter {α : Type} [DecidableEq α] (dflt : Nat → α) (p : Nat × α → Bool) (l : List (Nat × α)) :
    ∀ b, swfFrom dflt b l = true → swfFrom dflt b (l.filter p) = true := by
  induction l with
  | nil => intro b h; exact h
  | cons e r ih =>
    obtain ⟨i, v⟩ := e
    intro b h
    simp only [swfFrom, Bool.and_eq_true] at h
    by_cases hp : p (i, v) = true
    · rw [List.filter_cons_of_pos hp]
      simp only [swfFrom, Bool.and_eq_true]
      exact ⟨h.1, ih (i + 1) h.2⟩
    · rw [List.filter_cons_of_neg hp]
      exact swfFrom_mono dflt (by have := h.1.1; simp at this; omega) _ (ih (i + 1) h.2)

theorem swfFrom_append {α : Type} [DecidableEq α] (dflt : Nat → α) (k : Nat) (r : List (Nat × α))
    (hr : swfFrom dflt k r = true) (l : List (Nat × α)) (hl : ∀ e ∈ l, e.1 < k) :
    ∀ b, b ≤ k → swfFrom dflt b l = true → swfFrom dflt b (l ++ r) = true := by
  induction l with
  | nil => intro b hb _; exact swfFrom_mono dflt hb r hr
  | cons e q ih =>
    obtain ⟨i, v⟩ := e
    intro b _ h
    simp only [swfFrom, Bool.and_eq_true] at h
    rw [List.cons_append]
    simp only [swfFrom, Bool.and_eq_true]
    have hi : i < k := hl (i, v) (by simp)
    exact ⟨h.1, ih (fun e he => hl e (by simp [he])) (i + 1) hi h.2⟩

theorem swfFrom_low {α : Type} [DecidableEq α] (dflt : Nat → α) (k : Nat) (l : List (Nat × α)) :
    ∀ b, (∀ e ∈ l, k ≤ e.1) → swfFrom dflt b l = true → swfFrom dflt k l = true := by
  cases l with
  | nil => intro b _ h; rfl
  | cons e r =>
    obtain ⟨i, v⟩ := e
    intro b hk h
    simp only [swfFrom, Bool.and_eq_true] at h ⊢
    have : k ≤ i := hk (i, v) (by simp)
    exact ⟨⟨by simpa using this, h.1.2⟩, h.2⟩

theorem State.setByte_wf (s : State) (a : Nat) (b : Byte) (h : Memory.wf s.mem = true) : Memory.wf (s.setByte a b).mem = true :=
  swf_sset memDefault s.mem a b h

theorem State.setBytes_wf (l : List Byte) : ∀ (s : State) (a : Nat), Memory.wf s.mem = true → Memory.wf (s.setBytes a l).mem = true := by
  induction l with
  | nil => intro s a h; exact h
  | cons b bs ih => intro s a h; exact ih _ _ (s.setByte_wf a b h)

theorem keepIn_wf (l : List Host.Cell) (a b : Nat) (h : Memory.wf l = true) : Memory.wf (keepIn l a b) = true :=
  swfFrom_filter memDefault _ l 0 h

theorem State.clearRegion_wf (s : State) (b n : Nat) (h : Memory.wf s.mem = true) : Memory.wf (s.clearRegion b n).mem = true :=
  swfFrom_filter memDefault _ s.mem 0 h

theorem State.porst_wf (s : State) (c : ResetCause) (h : Memory.wf s.mem = true) : Memory.wf (s.porst c).mem = true :=
  keepIn_wf s.mem spaceFlash (spaceFlash + 2 ^ 40) h

theorem State.reset_wf : Memory.wf State.reset.mem = true := rfl

end Sys2Proof.Machine
end

