-- ==== Sys2Proof/Tests/Slice0.lean ====
section
/-! SUPPORT. Tests: commands that cannot be spelled, states that meet the hypotheses of the statements, and small tests of commands. -/

set_option maxRecDepth 100000

open Sys2Proof.Machine

namespace Sys2Proof.Tests

/-! Helpers -/

/-- The state after reset with these registers set. -/
def st (l : List (Nat × Word)) : State := { State.reset with regs := l }

/-- A core that runs privileged code at 0x1000, with the default permission for what no region covers. -/
def running : Core := { fg := { pc := 0x1000, status := 3 }, run := .running }

/-- The state after reset, with core 0 as given. -/
def on (c : Core) : State := { State.reset with cores := State.reset.cores.set 0 c }

/-- The conditions of Issues as one decision. -/
def issuesB (s : State) (x : Fin 192) (q : Bundle) : Bool :=
  decide (s.held = none) && s.mayIssue x q && !s.cores[x].delay.any (·.annul) && s.cores[x].fetchOk &&
    !s.lineGone (.core x) (s.cores[x].fg.pc.toNat / 64) && !bit s.cores[x].fg.status 4 && decide (q.badSlot = none) && !s.misplaced x (s.view x) q

theorem issues_of {s : State} {x : Fin 192} {q : Bundle} (h : issuesB s x q = true) : Issues s x q := by
  simp only [issuesB, Bool.and_eq_true, Bool.not_eq_true', decide_eq_true_eq] at h
  obtain ⟨⟨⟨⟨⟨⟨⟨a, b⟩, c⟩, d⟩, e⟩, f⟩, g⟩, i⟩ := h
  exact ⟨a, b, c, d, e, f, g, i⟩

/-- The conditions of Completing as one decision. -/
def completesB (s : State) (x : Fin 192) (q : Bundle) : Bool :=
  issuesB s x q && (decide (q.m.mn = .nop) || decide (q.m.mn = .fence)) && decide (excs (s.slotEffs x (s.view x) q) = [])

theorem completing_of {s : State} {x : Fin 192} {q : Bundle} (h : completesB s x q = true) : Completing s x q := by
  simp only [completesB, Bool.and_eq_true, Bool.or_eq_true, decide_eq_true_eq] at h
  exact ⟨issues_of h.1.1, h.1.2, h.2⟩

/-- The conditions of Raising as one decision. -/
def raisesB (s : State) (x : Fin 192) (q : Bundle) (e : Exc) : Bool :=
  issuesB s x q && (decide (q.m.mn = .nop) || decide (q.m.mn = .fence)) && decide (worst (excs (s.slotEffs x (s.view x) q)) = some e)

theorem raising_of {s : State} {x : Fin 192} {q : Bundle} {e : Exc} (h : raisesB s x q e = true) : Raising s x q e := by
  simp only [raisesB, Bool.and_eq_true, Bool.or_eq_true, decide_eq_true_eq] at h
  exact ⟨issues_of h.1.1, h.1.2, h.2⟩

/-- An instruction in S0 of core 0, in S1, and in the M and V slots, beside nops; in S1 beside a lit of 5. -/
def b0 : IssueS := ⟨0, .s0, 0, 0, 0⟩
def b1 : IssueS := ⟨0, .s1, 0, 0, 0⟩
def bm : IssueM := ⟨0, 0, 0, 0⟩
def bv : IssueV := ⟨0, 0, 0, 0⟩

/-! Commands that cannot be spelled -/

theorem test_wf_core : (Instr.nop (.s ⟨144, .s0, 0, 0, 0⟩)).wf .gh9672 = false ∧ (Instr.nop (.s ⟨143, .s0, 0, 0, 0⟩)).wf .gh9672 = true := by decide
theorem test_wf_range : (Instr.tcbStart .cap 3 0).wf .gh9672 = false ∧ (Instr.tcbStart .cap 2 0).wf .gh9672 = true := by decide
theorem test_wf_requester : (Instr.registerWrite (.core 144) 0 0).wf .gh9672 = false ∧ (Instr.registerWrite (.core 144) 0 0).wf .gh9600 = true := by decide
theorem test_wf_flume : (Instr.flumeDisable .cap (.ridge 18 0) 0).wf .gh9672 = false := by decide
theorem test_wf_engine : (Instr.engineDisable .cap (.codec 18) none).wf .gh9672 = false := by decide
theorem test_wf_comparator : (Instr.comparatorFire (.sch 3 0)).wf .gh9672 = false := by decide
theorem test_wf_replica : (Instr.treeCheck (.hub 3)).wf .gh9672 = false := by decide
theorem test_wf_scrub : (Instr.scrubRead (.pool 18)).wf .gh9672 = false := by decide
theorem test_wf_cache : (Instr.cacheFill (.core 144) 0).wf .gh9672 = false := by decide
theorem test_wf_request_length : (Instr.requestSend .cap true 0 0 0 [] 0 0).wf .gh9600 = false ∧
    (Instr.requestSend .cap false 0 0 256 [] 0 0).wf .gh9600 = true := by decide
theorem test_wf_hyperframe_length : (Instr.cpriHyperframeRx 0 0 true [1] 0).wf .gh9600 = false := by decide
theorem test_wf_overhead_length : (Instr.trunkLaneFrameRx 0 0 0 [1]).wf .gh9600 = false := by decide
theorem test_wf_cell_length : (Instr.trunkCellRx 0 0 [1]).wf .gh9600 = false := by decide
theorem test_wf_host_lengths : (Instr.hostMemoryRead 0 0 0 0).wf .gh9600 = false ∧ (Instr.hostMemoryWrite 0 0 0 []).wf .gh9600 = false ∧
    (Instr.hostMemoryRead 0 0 0 4096).wf .gh9600 = true := by decide
theorem test_wf_link : (Instr.pcieLinkChange true 3 1).wf .gh9600 = false ∧ (Instr.pcieLinkChange true 16 0).wf .gh9600 = false ∧
    (Instr.pcieLinkChange true 16 5).wf .gh9600 = true := by decide

/-! Queue and resets -/

theorem witness_StepTakesFrontCommand : ({ st [] with pending := [.tick, .slewCarry] } : State).pending = .tick :: [.slewCarry] := rfl

/-- The timebase counts, with a rate and a fraction. -/
def carrying (rate : Word) (frac : BitVec 40) : State := { st [(tbA 0x40, rate)] with tb := { (st []).tb with started := true, frac := frac } }

theorem witness_IdleStepIsTimebaseCycle : (st []).pending = [] ∧ (st []).tb.started = false ∧ (carrying 0 0).tb.started = true ∧
    (carrying 0 0).carries = false ∧ ((carrying 109951 1099511627775).carries = true ∧ 0 < (carrying 109951 1099511627775).rateAct) ∧
    (carrying 0xFFFE5281 1099511627775).carries = true ∧ (carrying 0xFFFE5281 1099511627775).rateAct ≤ 0 := by decide

theorem witness_HeldDeviceIsStill : ({ st [] with held := some .porst } : State).held ≠ none ∧ isReset .tick = false := by decide

theorem witness_HeldDeviceStaysStill :
    let s : State := { st [] with held := some .porst, pending := [.tick] }
    Still { s with pending := [], tb := {} } s ∧ step s = .next { s with pending := [] } :=
  ⟨⟨by decide, by decide, by decide, rfl⟩, rfl⟩

theorem witness_ResetsHoldTheDevice : (∀ c ∈ (st []).pending, isReset c = false) ∧ (st []).held = none := by decide

theorem witness_ResetReleases : ∀ h : ResetCause, ({ st [] with held := some h, thermTrip := true } : State).held = some h ∧
    ({ st [] with held := some h } : State).thermTrip = false := fun _ => ⟨rfl, rfl⟩

theorem witness_MemoryReadAfterWrite : Memory.wf ({ st [] with mem := [(5, 1)] } : State).mem = true ∧ (0 : Nat) < [(1 : Byte)].length := by decide

/-! Tarn core -/

theorem witness_TwoSourceResults : ∀ i ∈ twoSource, Completing (on running) 0 (b1.bundle { mn := i.mn, rd := 31, rs1 := 0, rs2 := 31 }) := by
  have h : twoSource.all (fun i => completesB (on running) 0 (b1.bundle { mn := i.mn, rd := 31, rs1 := 0, rs2 := 31 })) = true := by decide
  exact fun i hi => completing_of (List.all_eq_true.mp h i hi)

theorem witness_OneSourceResults : ∀ m ∈ [SMn.abs, .exp, .ext, .exts], Completing (on running) 0 (b0.bundle { mn := m, rd := 31, rs1 := 3, sh := 31 }) := by
  have h : [SMn.abs, .exp, .ext, .exts].all (fun m => completesB (on running) 0 (b0.bundle { mn := m, rd := 31, rs1 := 3, sh := 31 })) = true := by decide
  exact fun m hm => completing_of (List.all_eq_true.mp h m hm)

theorem witness_OneSourceResults_accumulator : Completing (on running) 0 (b0.bundle { mn := .expa, rd := 31, rs1 := 3 }) ∧
    Completing (on running) 0 (b0.bundle { mn := .norm, rd := 30, rs1 := 31 }) ∧
    Completing (on running) 0 (b0.bundle { mn := .lda, rd := 3, rs1 := 31 }) :=
  ⟨completing_of (by decide), completing_of (by decide), completing_of (by decide)⟩

theorem witness_AccumulateResults : Completing (on running) 0 (b0.bundle { mn := .mac, rd := 3, rs1 := 31, rs2 := 0 }) ∧
    Completing (on running) 0 (b1.bundle { mn := .msu, rd := 0, rs1 := 31, rs2 := 0 }) := ⟨completing_of (by decide), completing_of (by decide)⟩

theorem witness_ImmediateResults : ∀ e : Bool, ∀ r ∈ immediates e, Completing (on running) 0 (b0.bundle { mn := r.mn, rd := 31, rs1 := 1, imm := 0xFFFF }) := by
  have h : ∀ e : Bool, (immediates e).all (fun r => completesB (on running) 0 (b0.bundle { mn := r.mn, rd := 31, rs1 := 1, imm := 0xFFFF })) = true := by
    decide
  exact fun e r hr => completing_of (List.all_eq_true.mp (h e) r hr)

theorem witness_ImmediateResults_moves : Completing (on running) 0 (b0.bundle { mn := .movi, rd := 31, imm := 0x8000 }) ∧
    Completing (on running) 0 (b0.bundle { mn := .movhi, rd := 31, imm := 0x8000 }) := ⟨completing_of (by decide), completing_of (by decide)⟩

/-- A core whose a3 is at the last byte of a circular range of 16 bytes at 0x2000. -/
def ring : Core := { running with fg := { running.fg with amode := 8, a := running.fg.a.set 3 0x200F, cb := running.fg.cb.set 3 0x2000, cl := running.fg.cl.set 3 16 } }

theorem witness_AddressResults : ∀ m ∈ [SMn.movda, .setcb, .setcl, .rdcb, .rdcl, .addar, .movad],
    Completing (on running) 0 (b0.bundle { mn := m, rd := 7, rs1 := 3, rs2 := 31 }) := by
  have h : [SMn.movda, .setcb, .setcl, .rdcb, .rdcl, .addar, .movad].all
      (fun m => completesB (on running) 0 (b0.bundle { mn := m, rd := 7, rs1 := 3, rs2 := 31 })) = true := by decide
  exact fun m hm => completing_of (List.all_eq_true.mp h m hm)

theorem witness_AddressResults_addc : Completing (on ring) 0 (b0.bundle { mn := .addc, rd := 3, rs1 := 3, imm := 1 }) ∧
    ((on ring).view 0).circOn 3 = true ∧ ((on running).view 0).circOn 3 = false := ⟨completing_of (by decide), by decide⟩

theorem witness_NopLitFence : Completing (on running) 0 (b0.bundle {}) ∧ Completing (on running) 0 (bm.bundle {}) ∧ Completing (on running) 0 (bv.bundle {}) ∧
    Completing (on running) 0 (IssueS.bundle ⟨0, .s1, 0x80000000, 0, 0⟩ { mn := .lit, imm := 0x3FFFFFF }) ∧ Completing (on running) 0 (bm.bundle { mn := .fence }) :=
  ⟨completing_of (by decide), completing_of (by decide), completing_of (by decide), completing_of (by decide), completing_of (by decide)⟩

theorem witness_ControlTransfers : Completing (on running) 0 (b0.bundle { mn := .bcc, cond := 6, rs1 := 1, flag := true, imm := 0xFFFF }) ∧
    Completing (on running) 0 (b0.bundle { mn := .call, imm := 0x3FFFFFF }) ∧ Completing (on running) 0 (b0.bundle { mn := .jr, rs1 := 15 }) ∧
    Completing (on running) 0 (b0.bundle { mn := .callr, rs1 := 14 }) :=
  ⟨completing_of (by decide), completing_of (by decide), completing_of (by decide), completing_of (by decide)⟩

/-- The running core in a delay slot. -/
def inSlot (n : Nat) (taken annul : Bool) (rfe : Option (Word × Addr)) : Core := { running with delay := some ⟨n, taken, 0x4000, annul, rfe⟩ }

/-- The running core at the end bundle of level 1, with a count. -/
def atEnd (n : Word) : Core :=
  { running with fg := { running.fg with ls := running.fg.ls.set 1 0x800, le := running.fg.le.set 1 0x1000, lc := running.fg.lc.set 1 n } }

/-- The running core under rep, with repetitions to come. -/
def repeating (n : BitVec 16) : Core := { running with repOn := true, fg := { running.fg with rc := n } }

theorem witness_NextBundle : ∀ c ∈ [running, inSlot 1 true false none, inSlot 2 true false none, inSlot 2 false false none, repeating 0, repeating 7, atEnd 1, atEnd 2],
    Completing (on c) 0 (b0.bundle {}) ∧ ({} : SIns).mn.noDelay = false := by
  have h : [running, inSlot 1 true false none, inSlot 2 true false none, inSlot 2 false false none, repeating 0, repeating 7, atEnd 1, atEnd 2].all
      (fun c => completesB (on c) 0 (b0.bundle {})) = true := by decide
  exact fun c hc => ⟨completing_of (List.all_eq_true.mp h c hc), by decide⟩

theorem witness_NextBundle_csr : ((on running).slotEffs 0 ((on running).view 0) (b0.bundle {})).flatMap (·.csr) = [] ∧
    ((on running).view 0).fg.ends 0x1000 = false ∧ (1 < ((on (atEnd 2)).view 0).fg.lc[(1 : Fin 3)].toNat ∧ ((on (atEnd 2)).view 0).fg.le[(1 : Fin 3)] = 0x1000) ∧
    (((on (atEnd 1)).view 0).fg.lc[(1 : Fin 3)] = 1 ∧ ∀ m : Fin 3, m ≠ 1 → ((on (atEnd 1)).view 0).fg.lc[m] = 0) := by decide

theorem witness_AnnulledSlots : ∀ c ∈ [inSlot 1 false true none, inSlot 2 true true (some (3, 0)), inSlot 2 true true (some (0xA3, 0x80))],
    (on c).held = none ∧ (on c).mayIssue 0 {} = true ∧ (on c).cores[(0 : Fin 192)].delay.any (·.annul) = true ∧ ({} : MIns).mn ≠ .cpx := by decide

theorem witness_LoopRepRfe : Completing (on running) 0 (b0.bundle { mn := .loop, cond := 2, flag := false, imm := 0, fin := 8 }) ∧
    Completing (on running) 0 (b0.bundle { mn := .rep, flag := false, imm := 0xFFFF }) ∧ ((on running).view 0).fg.ends 0x1000 = false ∧
    Completing (on { running with fg := { running.fg with status := 5 } }) 0 (b0.bundle { mn := .rfe }) :=
  ⟨completing_of (by decide), completing_of (by decide), by decide, completing_of (by decide)⟩

/-- The core with EXL set. -/
def handler : Core := { running with fg := { running.fg with status := 5 } }

theorem witness_ExceptionEntry : Raising (on running) 0 (b0.bundle { mn := .trap, imm := 0x1FF }) ⟨0x0A, 0, 0x1000, 0xFF⟩ ∧
    bit (on running).cores[(0 : Fin 192)].fg.status 2 = false := ⟨raising_of (by decide), by decide⟩

theorem witness_ExceptionEntry_slot : Raising (on (inSlot 2 true false none)) 0 (b0.bundle { mn := .brk }) ⟨0x0B, 0, 0x1000, 0⟩ ∧
    (on (inSlot 2 true false none)).cores[(0 : Fin 192)].delay = some ⟨2, true, 0x4000, false, none⟩ := ⟨raising_of (by decide), rfl⟩

theorem witness_DoubleFault : Raising (on handler) 0 (b0.bundle { mn := .brk }) ⟨0x0B, 0, 0x1000, 0⟩ ∧
    bit (on handler).cores[(0 : Fin 192)].fg.status 2 = true ∧ (on handler).cores[(0 : Fin 192)].fgT = none ∧
    Raising (on { handler with fgT := some 7 }) 0 (b0.bundle { mn := .brk }) ⟨0x0B, 0, 0x1000, 0⟩ :=
  ⟨raising_of (by decide), by decide, rfl, raising_of (by decide)⟩

theorem witness_TrapAndBreak : Issues (on running) 0 (b0.bundle { mn := .trap, imm := 0xFFFF }) ∧ Issues (on running) 0 (b0.bundle { mn := .brk }) ∧
    ((b0.bundle { mn := .brk }).m.mn = .nop ∧ excs ((on running).slotEffs 0 ((on running).view 0) (b0.bundle {})) = [] ∧
      excs ((on running).slotEffs 0 ((on running).view 0) (b1.bundle {})) = [] ∧ bit (on running).cores[(0 : Fin 192)].fg.status 2 = false) :=
  ⟨issues_of (by decide), issues_of (by decide), by decide⟩

theorem witness_ControlReads : Completing (on running) 0 (b0.bundle { mn := .csrr, rd := 31, imm := 0x20 }) ∧
    Completing (on running) 0 (b0.bundle { mn := .csrr, rd := 0, imm := 0x22 }) ∧ Completing (on running) 0 (b0.bundle { mn := .csrra, rd := 15, imm := 5 }) :=
  ⟨completing_of (by decide), completing_of (by decide), completing_of (by decide)⟩

theorem witness_ControlWrites : ∀ n ∈ [0x001, 0x002, 0x003, 0x009, 0x120, 0x12F], Completing (on running) 0 (b0.bundle { mn := .csrw, rd := 1, imm := n }) := by
  have h : [0x001, 0x002, 0x003, 0x009, 0x120, 0x12F].all (fun n => completesB (on running) 0 (b0.bundle { mn := .csrw, rd := 1, imm := n })) = true := by decide
  exact fun n hn => completing_of (List.all_eq_true.mp h n hn)

theorem witness_ControlWrites_addresses : ∀ n ∈ [0x005, 0x007, 0x008, 0x100, 0x10F, 0x110, 0x11F],
    Completing (on running) 0 (b0.bundle { mn := .csrwa, rd := 1, imm := n }) := by
  have h : [0x005, 0x007, 0x008, 0x100, 0x10F, 0x110, 0x11F].all (fun n => completesB (on running) 0 (b0.bundle { mn := .csrwa, rd := 1, imm := n })) = true := by
    decide
  exact fun n hn => completing_of (List.all_eq_true.mp h n hn)

/-- A core that runs unprivileged code in a region it may execute. -/
def user : Core :=
  { running with fg := { running.fg with status := 2 }, mpuF := running.mpuF.set 0 { base := 0x1000, lim := 0x1FFF, attr := 0x09 } }

theorem witness_UnprivilegedWrites_raises : Raising (on user) 0 (b0.bundle { mn := .csrw, rd := 1, imm := 0x001 }) ⟨0x04, 0, 0x1000, 0⟩ ∧
    ((on user).view 0).priv = false ∧ excs ((on user).slotEffs 0 ((on user).view 0) (b0.bundle {})) = [] := ⟨raising_of (by decide), by decide⟩

/-- Two regions, the second above the first and within it. -/
def twoRegions : Vector Region 16 := ((Vector.replicate 16 {}).set 0 { base := 0x1000, lim := 0x1FFF, attr := 0x7F }).set 1 { base := 0x1800, lim := 0x18FF, attr := 1 }

theorem witness_RegionChecks : (∀ i : Fin 16, bit twoRegions[i].attr 0 = true → ¬(twoRegions[i].base.toNat ≤ 0x2000 ∧ 0x2000 ≤ twoRegions[i].lim.toNat)) ∧
    (bit twoRegions[(1 : Fin 16)].attr 0 = true ∧ twoRegions[(1 : Fin 16)].base.toNat ≤ 0x18FF ∧ 0x18FF ≤ twoRegions[(1 : Fin 16)].lim.toNat) ∧
    (∀ j : Fin 16, 1 < j → bit twoRegions[j].attr 0 = false) := by decide

theorem witness_RegionChecks_empty : (twoRegions.set 3 { base := 0x40, lim := 0x3F, attr := 0x7F })[(3 : Fin 16)].lim.toNat < 0x40 := by decide

theorem witness_LatencyOfWrites : ∀ age ∈ [0, 2, 3, 4], let k : Core := { running with pend := [] ++ { wr (dReg 5) 0 32 9 3 with age := age } :: [] }
    (∀ w ∈ ([] : List Pend) ++ [], w.reg ≠ dReg 5) ∧ 9 < 2 ^ 32 ∧ k.fg.get (dReg 5) < 2 ^ 32 ∧ k.pend = [] ++ { wr (dReg 5) 0 32 9 3 with age := age } :: [] := by
  decide

/-! Tarn core: memory and vectors -/

/-- The running core with a1 in its own tile memory, at an offset. -/
def pointing (o : Addr) : Core := { running with fg := { running.fg with a := running.fg.a.set 1 (0x1000000000 + o) } }

/-- The conditions of Accessing as one decision. -/
def accessesB (s : State) (x : Fin 192) (q : Bundle) : Bool :=
  issuesB s x q && decide (excs (s.slotEffs x (s.view x) q) = []) && decide (scalarChecks (s.view x) q.m (operand s x q.m) = [])

theorem accessing_of {s : State} {x : Fin 192} {q : Bundle} (h : accessesB s x q = true) : Accessing s x q := by
  simp only [accessesB, Bool.and_eq_true, decide_eq_true_eq] at h
  exact ⟨issues_of h.1.1, h.1.2, h.2⟩

/-- Post-modified addressing by 8 from a1. -/
def post : AddrOp := ⟨1, 1, 8⟩

/-- The scalar loads. -/
def loads : List Scalar := wordLoads.map (·.1) ++ [⟨.ldA, .lda, 8⟩, ⟨.ldD, .ldd, 8⟩]

theorem witness_ScalarLoads : ∀ i ∈ loads,
    Accessing (on (pointing 0x7FFF8)) 0 (bm.bundle (i.ins 14 post)) ∧
    ((on (pointing 0x7FFF8)).busRead (.core 0) (operand (on (pointing 0x7FFF8)) 0 (i.ins 14 post)).addr.toNat i.size).2 = .ok (List.replicate i.size 0) := by
  have h : loads.all (fun i =>
      accessesB (on (pointing 0x7FFF8)) 0 (bm.bundle (i.ins 14 post)) &&
      decide (((on (pointing 0x7FFF8)).busRead (.core 0) (operand (on (pointing 0x7FFF8)) 0 (i.ins 14 post)).addr.toNat i.size).2 = .ok (List.replicate i.size 0))) = true := by
    decide
  intro i hi
  have g := List.all_eq_true.mp h i hi
  simp only [Bool.and_eq_true, decide_eq_true_eq] at g
  exact ⟨accessing_of g.1, g.2⟩

theorem witness_ScalarStores : ∀ i ∈ stored ((on (pointing 0)).view 0) 14, Accessing (on (pointing 0)) 0 (bm.bundle (i.1.ins 14 post)) ∧
    ((on (pointing 0)).busWrite (.core 0) (operand (on (pointing 0)) 0 (i.1.ins 14 post)).addr.toNat (wholeBytes (toBytes i.1.size i.2))).2 = .ok [] := by
  have h : (stored ((on (pointing 0)).view 0) 14).all (fun i => accessesB (on (pointing 0)) 0 (bm.bundle (i.1.ins 14 post)) &&
      decide (((on (pointing 0)).busWrite (.core 0) (operand (on (pointing 0)) 0 (i.1.ins 14 post)).addr.toNat (wholeBytes (toBytes i.1.size i.2))).2 = .ok [])) = true := by
    decide
  intro i hi
  have g := List.all_eq_true.mp h i hi
  simp only [Bool.and_eq_true, decide_eq_true_eq] at g
  exact ⟨accessing_of g.1, g.2⟩

theorem witness_OwnTileMemory : OwnTile (on running) 0 0x1000000000 8 ∧ OwnTile (on running) 191 0x10173FFFF8 8 ∧
    (∀ j < 8, (on running).tileSyn (0x1000000000 + j) = 0) ∧ (on running).flipSel 0 = none :=
  ⟨⟨by decide, by decide, by decide, by decide, by decide⟩, ⟨by decide, by decide, by decide, by decide, by decide⟩, by decide, by decide⟩

/-- A core with a1 beyond the end of a circular range, that traps on it. -/
def wrapping : Core :=
  { pointing 0x10 with ctl := 3, fg := { (pointing 0x10).fg with amode := 2, cb := running.fg.cb.set 1 0x1000000000, cl := running.fg.cl.set 1 16 } }

/-- A core whose regions let it read nothing. -/
def barred : Core := { pointing 0 with mpuP2 := running.mpu.set 0 { base := 0x1000000000, lim := 0x100007FFFF, attr := 1 } }

theorem witness_AccessExceptions : ∀ c ∈ ([(pointing 1, 1, true, false), (barred, 0, false, false), (wrapping, 0, true, true)] : List (Core × Nat × Bool × Bool)),
    let s := on c.1
    let i : Scalar := ⟨.ldW, .ldw, 4⟩
    let o := operand s 0 (i.ins 3 post)
    (bm.bundle (i.ins 3 post)).m.mn = .ldw ∧ issuesB s 0 (bm.bundle (i.ins 3 post)) = true ∧ excs (s.slotEffs 0 (s.view 0) (bm.bundle (i.ins 3 post))) = [] ∧
      bit s.cores[(0 : Fin 192)].fg.status 2 = false ∧ o.addr.toNat % 4 = c.2.1 ∧ (s.view 0).dataOk false o.addr.toNat 4 = c.2.2.1 ∧
      o.out = c.2.2.2 ∧ (o.out = true → bit s.cores[(0 : Fin 192)].ctl 0 = true) := by decide

/-- A core with a1 at an address of no row of the map. -/
def lost : Core := { running with fg := { running.fg with a := running.fg.a.set 1 0x3000000000 } }

theorem witness_AccessExceptions_bus : accessesB (on lost) 0 (bm.bundle (Scalar.ins ⟨.ldW, .ldw, 4⟩ 3 post)) = true ∧
    ((on lost).busRead (.core 0) 0x3000000000 4).2 = .err ∧ ((on lost).busRead (.core 0) 0x3000000000 4).1.compat = (on lost).compat := by decide

theorem witness_CircularUpdates : (0x2010 : Addr).toNat ≤ (0x2010 : Addr).toNat ∧ ((0x1FFF : Addr).toNat < (0x2000 : Addr).toNat) ∧
    ((0x2000 : Addr).toNat ≤ (0x200F : Addr).toNat ∧ (0x200F : Addr).toNat < 0x2010) ∧ ((15 : Int) + 1 ≥ 16 ∧ (0 : Int) + 15 < 16 ∧ (0 : Int) + -1 < 0) := by decide

/-- The conditions of VecOwn as one decision. -/
def vecB (s : State) (x : Fin 192) (q : Bundle) (i : VecAccess) : Bool :=
  let a := (operand s x q.m).addr.toNat
  issuesB s x q && decide (excs (s.slotEffs x (s.view x) q) = []) &&
    (List.range (i.count / i.bb)).all (fun j => decide (tileA x ≤ a + i.bb * j) && decide (a + i.bb * j + i.bb ≤ tileA x + 0x80000) && decide (0 < i.bb) &&
      s.hasRange (x.val / 48) && decide (s.gate (.core x) (a + i.bb * j) i.bb = none)) &&
    (s.view x).dataOk q.m.mn.store a i.count && !(operand s x q.m).out

theorem vecOwn_of {s : State} {x : Fin 192} {q : Bundle} {i : VecAccess} (h : vecB s x q i = true) : VecOwn s x q i := by
  simp only [vecB, Bool.and_eq_true, Bool.not_eq_true', decide_eq_true_eq, List.all_eq_true, List.mem_range] at h
  obtain ⟨⟨⟨⟨a, b⟩, c⟩, d⟩, e⟩ := h
  refine ⟨issues_of a, b, fun j hj => ?_, d, e⟩
  obtain ⟨⟨⟨⟨p, q⟩, r⟩, t⟩, u⟩ := c j hj
  exact ⟨p, q, r, t, u⟩

theorem witness_VectorLoads : ∀ i ∈ vecLoads .h, VecOwn (on (pointing 0x7FF80)) 0 (bm.bundle (i.ins 7 post)) i ∧
    ∀ j < i.count, (on (pointing 0x7FF80)).tileSyn ((operand (on (pointing 0x7FF80)) 0 (i.ins 7 post)).addr.toNat + j) = 0 := by
  have h : (vecLoads .h).all (fun i => vecB (on (pointing 0x7FF80)) 0 (bm.bundle (i.ins 7 post)) i) = true := by decide
  have g : ∀ j < 128, (on (pointing 0x7FF80)).tileSyn (0x100007FF80 + j) = 0 := by decide
  intro i hi
  refine ⟨vecOwn_of (List.all_eq_true.mp h i hi), fun j _ => rfl⟩

theorem witness_VectorStores : ∀ i ∈ vecStores .w, VecOwn (on (pointing 0)) 0 (bm.bundle (i.ins 7 post)) i ∧ (on (pointing 0)).flipSel 0 = none := by
  have h : (vecStores .w).all (fun i => vecB (on (pointing 0)) 0 (bm.bundle (i.ins 7 post)) i) = true := by decide
  exact fun i hi => ⟨vecOwn_of (List.all_eq_true.mp h i hi), by decide⟩

/-- A core whose a1 lies 32 bytes before a region it may not read. -/
def shortRegion : Core := { pointing 0x20 with mpuP2 := running.mpu.set 0 { base := 0x1000000040, lim := 0x100000007F, attr := 1 } }

theorem witness_LateVectorFault :
    let s := on shortRegion
    let q := bm.bundle ((⟨fun b => .vldL b .h, .vldl, 2, 0, 128, 32⟩ : VecAccess).ins 7 post)
    let r := (vAccess 0 (s.view 0) q.m (operand s 0 q.m) none).run (s.view 0) (circTrap (s.view 0) (operand s 0 q.m)) { s := s }
    issuesB s 0 q = true ∧ q.m.mn.long = true ∧ excs (s.slotEffs 0 (s.view 0) q) = [] ∧ (s.slotEffs 0 (s.view 0) q).flatMap (·.csr) = [] ∧
      bit s.cores[(0 : Fin 192)].fg.status 2 = false ∧ r.job.waits = none ∧ (∃ f, r.fault = some f ∧ f.2.2 ≠ 0) ∧ r.job.s.cores = s.cores := by
  refine ⟨by decide, by decide, by decide, by decide, by decide, by decide, ⟨_, rfl, by decide⟩, rfl⟩

theorem witness_VectorPairs : ∀ i ∈ vecOps, Completing (on running) 0 (bv.bundle { mn := i.mn, vd := 7, va := 0, vb := 7 }) := by
  have h : vecOps.all (fun i => completesB (on running) 0 (bv.bundle { mn := i.mn, vd := 7, va := 0, vb := 7 })) = true := by decide
  exact fun i hi => completing_of (List.all_eq_true.mp h i hi)

theorem witness_VectorPairs_bits : ∀ m ∈ [VMn.vand, .vor, .vxor], Completing (on running) 0 (bv.bundle { mn := m, vd := 7, va := 0, vb := 7 }) := by
  have h : [VMn.vand, .vor, .vxor].all (fun m => completesB (on running) 0 (bv.bundle { mn := m, vd := 7, va := 0, vb := 7 })) = true := by decide
  exact fun m hm => completing_of (List.all_eq_true.mp h m hm)

theorem witness_VectorShifts : ∀ i ∈ vecShifts, ∀ r : Bool, Completing (on running) 0 (bv.bundle { mn := i.mn, vd := 7, va := 0, vb := if r then 31 else 0, r := r, imm6 := if r then 0 else 15 }) := by
  have h : vecShifts.all (fun i => [true, false].all fun r =>
      completesB (on running) 0 (bv.bundle { mn := i.mn, vd := 7, va := 0, vb := if r then 31 else 0, r := r, imm6 := if r then 0 else 15 })) = true := by decide
  intro i hi r
  exact completing_of (List.all_eq_true.mp (List.all_eq_true.mp h i hi) r (by cases r <;> decide))

theorem witness_VectorAccumulates : ∀ m ∈ [VMn.vmulw, .vmac, .vmsu, .vcmac, .vcmsu, .vdot8],
    Completing (on running) 0 (bv.bundle { mn := m, vd := 3, va := 0, vb := 7, c := decide (m ∈ [VMn.vcmac, .vcmsu, .vdot8]) }) := by
  have h : [VMn.vmulw, .vmac, .vmsu, .vcmac, .vcmsu, .vdot8].all
      (fun m => completesB (on running) 0 (bv.bundle { mn := m, vd := 3, va := 0, vb := 7, c := decide (m ∈ [VMn.vcmac, .vcmsu, .vdot8]) })) = true := by decide
  exact fun m hm => completing_of (List.all_eq_true.mp h m hm)

theorem witness_VectorNarrowing : ∀ m ∈ [VMn.vnarrowh, .vnarroww, .vpack], ∀ r : Bool,
    Completing (on running) 0 (bv.bundle { mn := m, vd := 3, va := 1, vb := 2, s := true, r := r, imm6 := if r then 0 else 31 }) := by
  have h : [VMn.vnarrowh, .vnarroww, .vpack].all (fun m => [true, false].all fun r =>
      completesB (on running) 0 (bv.bundle { mn := m, vd := 3, va := 1, vb := 2, s := true, r := r, imm6 := if r then 0 else 31 })) = true := by decide
  intro m hm r
  exact completing_of (List.all_eq_true.mp (List.all_eq_true.mp h m hm) r (by cases r <;> decide))

theorem witness_VectorNarrowing_moves : Completing (on running) 0 (bv.bundle { mn := .vaccrd, vd := 7, va := 3, h := true }) ∧
    Completing (on running) 0 (bv.bundle { mn := .vaccwr, vd := 3, va := 7, vb := 0 }) ∧ Completing (on running) 0 (bv.bundle { mn := .vclr, vd := 3 }) :=
  ⟨completing_of (by decide), completing_of (by decide), completing_of (by decide)⟩

theorem witness_VectorMoves : ∀ m ∈ [VMn.vmovs, .vins, .vgetc, .vputc, .vbcsts, .vconj, .vswap, .vmov, .vbcsth, .vbcstw],
    Completing (on running) 0 (bv.bundle { mn := m, vd := 3, va := 7, imm6 := if m ∈ [VMn.vmovs, .vins, .vgetc, .vputc] then 7 else 0 }) := by
  have h : [VMn.vmovs, .vins, .vgetc, .vputc, .vbcsts, .vconj, .vswap, .vmov, .vbcsth, .vbcstw].all (fun m =>
      completesB (on running) 0 (bv.bundle { mn := m, vd := 3, va := 7, imm6 := if m ∈ [VMn.vmovs, .vins, .vgetc, .vputc] then 7 else 0 })) = true := by decide
  exact fun m hm => completing_of (List.all_eq_true.mp h m hm)

theorem witness_BlockExponents : Completing (on running) 0 (bv.bundle { mn := .vbexps, vd := 31, va := 15 }) ∧
    Completing (on running) 0 (bv.bundle { mn := .vbexph, vd := 31, va := 7, imm6 := 63 }) ∧
    Completing (on running) 0 (bv.bundle { mn := .vbexpw, vd := 31, va := 7, imm6 := 31 }) ∧
    Completing (on running) 0 (bv.bundle { mn := .vbexpa, vd := 31, va := 3, imm6 := 31 }) :=
  ⟨completing_of (by decide), completing_of (by decide), completing_of (by decide), completing_of (by decide)⟩

theorem witness_FetchAndLegality : (on { user with fg := { user.fg with pc := 0x2000 } }).cores[(0 : Fin 192)].fetchOk = false ∧
    (on { user with fg := { user.fg with pc := 0x2000 } }).mayIssue 0 {} = true ∧ (on running).mayIssue 0 {} = true ∧
    (b1.bundle { mn := .call, imm := 0 }).badSlot = some 1 ∧ (on running).cores[(0 : Fin 192)].fetchOk = true ∧
    (on running).lineGone (.core 0) 0x40 = false ∧ (b0.bundle { mn := .call, imm := 0 }).badSlot = none ∧
    (on (inSlot 1 true false none)).misplaced 0 ((on (inSlot 1 true false none)).view 0) (b0.bundle { mn := .call, imm := 0 }) = true := by decide

theorem witness_InstructionFrames : bundleOf (.add b0 1 2 3) = some (0, b0.bundle { mn := .add, rd := 1, rs1 := 2, rs2 := 3 }) ∧ (on running).held = none ∧
    Completing (on running) 0 (b0.bundle { mn := .add, rd := 1, rs1 := 2, rs2 := 3 }) ∧ ((on running).view 0).delay = none :=
  ⟨rfl, rfl, completing_of (by decide), rfl⟩

theorem witness_UnprivilegedWrites : Issues (on user) 0 (b0.bundle { mn := .csrw, rd := 1, imm := 0x001 }) ∧
    Issues (on user) 0 (b0.bundle { mn := .csrw, rd := 1, imm := 0x002 }) ∧ Issues (on user) 0 (b0.bundle { mn := .csrr, rd := 1, imm := 0x001 }) ∧
    Issues (on user) 0 (b0.bundle { mn := .csrwa, rd := 1, imm := 0x008 }) ∧ (b0.bundle {}).m.mn = .nop ∧
    excs ((on user).slotEffs 0 ((on user).view 0) (b0.bundle {})) = [] ∧ ((on user).view 0).priv = false ∧
    bit (on user).cores[(0 : Fin 192)].fg.status 2 = false :=
  ⟨issues_of (by decide), issues_of (by decide), issues_of (by decide), issues_of (by decide), rfl, by decide, by decide, by decide⟩

theorem witness_ChecksOfCore : running.fg.pc.toNat % 16 = 0 ∧ ∀ i : Fin 16, running.mpuF[i].base.toNat % 64 = 0 ∧ running.mpuF[i].lim.toNat % 64 = 63 := by
  decide

theorem witness_AccessExceptions_store : accessesB (on lost) 0 (bm.bundle (Scalar.ins ⟨.stW, .stw, 4⟩ 3 post)) = true ∧
    ((on lost).busWrite (.core 0) 0x3000000000 (wholeBytes (toBytes 4 0))).2 = .err := by decide

/-! cpx, requests, registers and engines -/

/-- The bundle of a cpx with tag 33, a1 and flag 9. -/
def cpxBundle (func : BitVec 8) : Bundle := bm.bundle (cpxIns 33 1 9 func)

/-- The state with the running core's a1 at a pointer and this value in the word of busy tags 32 to 63. -/
def cpxSt (p : Addr) (busy : Word) (own : Core := running) : State :=
  { on { own with fg := { own.fg with a := own.fg.a.set 1 p } } with regs := [(cqA 0 12, busy)] }

theorem witness_CpxSent : ([(0x61, 0x1000000000, 0), (0xC1, 0x1000000000, 0), (0xE0, 0x1000000000, 0), (0x05, 0x1000000000, 2), (0x05, 0x1001000000, 0),
      (0x05, 0x1000000020, 0), (0x05, 0x1000000000, 0), (0xA1, 0x100007FFC0, 0)] : List (BitVec 8 × Addr × Word)).all (fun i => decide (
    issuesB (cpxSt i.2.1 i.2.2) 0 (cpxBundle i.1) = true ∧ excs ((cpxSt i.2.1 i.2.2).slotEffs 0 ((cpxSt i.2.1 i.2.2).view 0) (cpxBundle i.1)) = [] ∧
      bit (cpxSt i.2.1 i.2.2).cores[(0 : Fin 192)].fg.status 2 = false)) = true := by decide

theorem witness_CpxSent_clauses : (0x61 : BitVec 8).toNat / 32 = 3 ∧ (0xC1 : BitVec 8).toNat / 32 = 6 ∧ (0xE0 : BitVec 8).toNat / 32 = 7 ∧
    tagBusy (cpxSt 0x1000000000 2) 0 33 = true ∧ tagBusy (cpxSt 0x1000000000 1) 0 33 = false ∧ nearPtr 0 0x1001000000 = false ∧
    nearPtr 0 0x1000000020 = true ∧ nearPtr 0 0x100007FFC0 = true ∧ ((cpxSt 0x1000000000 0).view 0).dataOk false 0x1000000000 64 = true ∧
    ((cpxSt 0x1000000000 0 barred).view 0).dataOk false 0x1000000000 64 = false := by decide

/-- Core 0 awaits the answer to a cpx with tag 63, beside an instruction in S0; the answer has arrived. -/
def awaiting (i : SIns) (refuse : Option Nat) : State :=
  { on { running with wait := some ⟨{ b0.bundle i with m := cpxIns 63 1 9 5 }, false, false, 63, 9, 5, 0x1000000000⟩ } with
    replies := [⟨1, some (.turbo 0), none⟩, ⟨0, some (.codec 0), refuse⟩] }

theorem witness_CpxAnswered : ∀ i ∈ ([({}, none), ({ mn := .brk }, none), ({}, some 0x12)] : List (SIns × Option Nat)),
    let s := awaiting i.1 i.2
    s.held = none ∧ s.cores[(0 : Fin 192)].wait.any (fun w => !w.squashed && !w.annulled) = true ∧
      s.replies.find? (fun r => decide (r.core = 0)) = some ⟨0, some (.codec 0), i.2⟩ ∧ bit s.cores[(0 : Fin 192)].fg.status 2 = false := by decide

theorem witness_CpxAnswered_clauses : excs ((awaiting {} none).slotEffs 0 ((awaiting {} none).view 0) { b0.bundle {} with m := cpxIns 63 1 9 5 }) = [] ∧
    worst (excs ((awaiting { mn := .brk } none).slotEffs 0 ((awaiting { mn := .brk } none).view 0) { b0.bundle { mn := .brk } with m := cpxIns 63 1 9 5 })) =
      some ⟨0x0B, 0, 0x1000, 0⟩ := by decide

theorem witness_RequestOrder : running.run = .running ∧ running.wait = none ∧ running.delay = none ∧ running.repOn = false ∧ running.rfeHold = false ∧
    bit handler.fg.status 2 = true ∧ bit running.fg.status 2 = false := by decide

theorem witness_NoIssue : (on { running with haltReq := true }).cores[(0 : Fin 192)].takes.isSome = true ∧ (awaiting {} none).cores[(0 : Fin 192)].wait.isSome = true ∧
    (st []).cores[(0 : Fin 192)].run ≠ .running := by decide

theorem witness_HaltAndResume : (on running).held = none ∧ (on running).cores[(0 : Fin 192)].accepts = true ∧
    ((on (inSlot 1 true false none)).cores[(0 : Fin 192)].accepts = false ∧ (on (inSlot 1 true false none)).cores[(0 : Fin 192)].run = .running) ∧
    (on { running with run := .halted }).cores[(0 : Fin 192)].run = .halted := by decide

/-- Core 0 runs a thread, with a thread in its shadow bank or without, in a range whose dispatch is enabled. -/
def threads (sh : Option (BitVec 10)) (set : BitVec 4) (kill switch attn : Bool) : State :=
  { on { running with fgT := some 5, shT := sh, shSet := set, killReq := kill, switchReq := switch, attnReq := attn } with regs := [(dptA 0 4, 1)] }

theorem witness_KillAndSwitch : (threads (some 1023) 15 true false false).cores[(0 : Fin 192)].takes = some .kill ∧
    (threads (some 6) 0 false true false).cores[(0 : Fin 192)].takes = some .switch ∧ (threads none 0 true false false).cores[(0 : Fin 192)].takes = some .kill ∧
    (threads none 0 false true false).cores[(0 : Fin 192)].takes = some .switch ∧ (threads (some 6) 0 false true false).regBit (dptA (coreRange 0) 4) 0 = true ∧
    (threads (some 6) 0 false true false).held = none ∧ (threads (some 6) 0 false true false).cores[(0 : Fin 192)].discard = false := by decide

theorem witness_AttnEntry : (threads none 0 false false true).held = none ∧ (threads none 0 false false true).cores[(0 : Fin 192)].takes = some .attn := by decide

/-! Registers -/

theorem witness_UnassignedAddresses : ∀ a ∈ [0x800000000, 0x1000C10000, 0x1018000000, 0x2000090000, 0x20004FFFFF + 1, 0x2FFFFFFFFF, 0x4000000000, 0xFFFFFFFFFF],
    a < 2 ^ 40 ∧ assigned a = false ∧ (0 : Nat) < 8 ∧ ([(0, 0xFF)] : List WByte) ≠ [] := by decide

theorem witness_AccessTypes : rowAt (rowsOf .tb) 0x3C = none ∧ (rowAt (rowsOf .tb) 0x40).isSome = true := by decide

/-- No link on the way of an access and back is DOWN, as a decision. -/
def wayClear (s : State) (req : Requester) (a : Nat) : Bool :=
  match s.reach req a with
  | .send e => !s.pathDown (s.viaOf req.endpoint e) req.endpoint e && !s.pathDown (s.viaOf e req.endpoint) e req.endpoint
  | _ => true

theorem clearWay_of {s : State} {req : Requester} {a : Nat} (h : wayClear s req a = true) : s.clearWay req a := by
  intro e he
  simpa [wayClear, he] using h

/-- The conditions of Granted as one decision. -/
def grantedB (s : State) (req : Requester) (b : Block) (o : Nat) : Bool :=
  decide (s.held = none) && decide (s.gate req (b.at o) 4 = none) && wayClear s req (b.at o) && decide (decodeAddr s.part (b.at o) = .block b o) &&
    s.blockOn b && !writeClosed req b o && s.mayWrite req b o && !s.regFails b o

theorem granted_of {s : State} {req : Requester} {b : Block} {o : Nat} (h : grantedB s req b o = true) : Granted s req b o := by
  simp only [grantedB, Bool.and_eq_true, Bool.not_eq_true', decide_eq_true_eq] at h
  obtain ⟨⟨⟨⟨⟨⟨⟨a, b⟩, w⟩, c⟩, d⟩, e⟩, f⟩, g⟩ := h
  exact ⟨a, b, clearWay_of w, c, d, e, f, g⟩

theorem witness_LockStays : lockOff .leat = some 0x10 ∧ decodeAddr (st []).part (Block.leat.at 0x10) = .block .leat 0x10 ∧
    Granted (st []) .summitCtl .leat 0x10 ∧ (st [(Block.leat.at 0x10, 1)]).locked .leat = true :=
  ⟨rfl, by decide, granted_of (by decide), by decide⟩

theorem witness_LockStays_bits : (rowsOf .leat).any (fun r => decide (r.rwl ≠ 0)) = true := by decide

theorem witness_PlaneViolations : let s := st []
    s.held = none ∧ s.gate (.core 0) (Block.leat.at 0x400) 4 = none ∧ s.clearWay (.core 0) (Block.leat.at 0x400) ∧
      decodeAddr s.part (Block.leat.at 0x400) = .block .leat 0x400 ∧ s.mayWrite (.core 0) .leat 0x400 = false ∧
      Block.leat.at 0x400 % 4 = 0 ∧ Block.leat.at 0x400 < 2 ^ 40 :=
  ⟨by decide, by decide, clearWay_of (by decide), by decide, by decide, by decide, by decide⟩

/-- The registers of the write commands, with who may write them. -/
def writtenBy : List (Requester × Nat × Block) := [
  (.summitMgmt, tbA 0x18, .tb), (.summitMgmt, (CmpId.gt 31).base + 0xC, .tb), (.cap, tbA 0x58, .tb), (.summitCtl, dptA 3 0x24, .dpt 3),
  (.core 191, dptA 3 0x30, .dpt 3), (.summitCtl, lockA 0 255, .dpt 0), (.summitCtl, bfaA 1 0x13FC, .bfa 1), (.summitCtl, bfaA 1 4, .bfa 1), (.summitCtl, seqA 1 3 0x20, .bfa 1),
  (.summitCtl, cellA 2 15 12, .bfa 2), (.summitCtl, memA 23 0xA4, .mem 23), (.summitCtl, Block.rsv.at 0x304, .rsv),
  (.summitMgmt, Block.rsv.at 0x400, .rsv), (.bootRom, leatA 0x294, .leat), (.summitCtl, leatA 0x41C, .leat),
  (.host 1, (FlumeId.ridge 23 15).base + 0x20, .flm 23), (.summitCtl, (FlumeId.hub 3 31).base, .hub 3 1), (.summitCtl, engA (.codec 23) 4, .fec 23),
  (.core 0, lnA 95 0, .hub 3 0), (.summitCtl, quadA 23 0, .hub 3 0), (.summitCtl, bindReg 0 5 511, .hub 0 3), (.summitCtl, trkA 1 23 0, .hub 1 3),
  (.summitMgmt, domCfg 61, .slc), (.summitCtl, rangeClk 3, .slc), (.summitCtl, slcA 0x51C, .slc), (.summitCtl, bootA 0x20, .boot),
  (.summitMgmt, mbxA 0x10, .mbx), (.summitMgmt, dacA 7 8, .hk), (.summitMgmt, hkA 0x1C, .hk), (.summitMgmt, adcA 1 0xC, .hk),
  (.core 5, Block.evf.at 0x10, .evf), (.summitCtl, routeAddr 2047, .evf), (.summitCtl, hifA 0x100, .hif)]

theorem witness_WriteCommands : writtenBy.all (fun w => decide (w.2.2.at (w.2.1 - w.2.2.base) = w.2.1) && grantedB (st []) w.1 w.2.2 (w.2.1 - w.2.2.base)) = true := by
  decide

theorem witness_SelfPortCommands : ∀ o ∈ [0x7010, 0x701C, 0x7020, 0x7028, 0x7038], Granted (st []) (.core 191) (.dpt (coreRange 191).val) o := by
  have h : [0x7010, 0x701C, 0x7020, 0x7028, 0x7038].all (fun o => grantedB (st []) (.core 191) (.dpt (coreRange 191).val) o) = true := by decide
  exact fun o ho => granted_of (List.all_eq_true.mp h o ho)

/-! Engines -/

/-- A command of core 5 with tag 9. -/
def engCmd (func : BitVec 8) (committed : Bool) : EngCmd := ⟨5, 9, 3, 1, 0x1000000040, 2, func, committed⟩

/-- Codec 0 with this engine, EN as given, and commands and messages on their way to it. -/
def codec0 (g : Engine) (en : Bool) (sent : List EngSent) (msgs : List EngMsg) (cap : Word := 0xFFFFFFFF) : State :=
  { st [(engA (.codec 0) 4, if en then 1 else 0), (capA (.codec 0) 5, cap)] with
    engines := State.reset.engines.set 0 g, engSent := sent, engMsgs := msgs }

/-- A queue with n commands of ridge 0. -/
def fullQueue (n : Nat) : Engine := { queue := List.replicate n (engCmd 1 false) }

theorem witness_CommandsToEngines : ∀ i ∈ ([({}, true, 0, 0x1F), ({}, true, 0xFFFFFFFF, 0x1F), ({}, false, 0xFFFFFFFF, 1), (fullQueue 64, true, 0xFFFFFFFF, 1),
      (fullQueue 63, true, 0xFFFFFFFF, 1)] : List (Engine × Bool × Word × BitVec 8)),
    let m : EngSent := ⟨.codec 0, engCmd i.2.2.2 false, false⟩
    let s := codec0 i.1 i.2.1 [⟨.turbo 0, engCmd 1 false, false⟩, m] [⟨.codec 0, 4, 9, true⟩, ⟨.codec 1, 5, 9, true⟩] i.2.2.1
    s.held = none ∧ s.engArrival (.codec 0) = some m ∧ s.rfabOn (EngId.codec 0).range = true ∧ s.regBit (engA (.codec 0) 4) 0 = i.2.1 := by decide

theorem witness_CommandsToEngines_clauses :
    (codec0 {} true [] [] 0).regBit (capA (.codec 0) 5) 1 = false ∧ (codec0 {} true [] []).regBit (capA (.codec 0) 5) 1 = true ∧
      (0x1F : Nat) ∉ engCodes (.codec 0) ∧ (1 : Nat) ∈ engCodes (.codec 0) ∧ (sharing (codec0 (fullQueue 64) true [] []) (.codec 0) 5).length = 64 ∧
      (sharing (codec0 (fullQueue 63) true [] []) (.codec 0) 5).length = 63 := by decide

/-- A transaction of core 5 to the endpoint of the range engines of range 0. -/
def engTxn (s : State) (d : Nat) (c : Carry) (ty : Nat) (st : TxnSt) : Txn :=
  { req := .core 5, init := (Requester.core 5).endpoint, dest := d, tid := 7, ty := ty, addr := EngId.base (.turbo 0), len := 32, data := [], maskFirst := 0xFF,
    maskLast := 0xFF, epoch := s.niEpoch 0, respEpoch := false, via := s.viaOf 0 d, carry := c, st := st, late := false, lost := false, resp := [], err := false }

/-- The turbo engine of range 0 with this queue, EN set, and commands, messages and transactions on their way to it. -/
def turbo0 (n : Nat) (sent : List EngSent) (msgs : List EngMsg) (l : List Txn) : State :=
  { st [(engA (.turbo 0) 4, 1), (capA (.turbo 0) 5, 0xFFFFFFFF)] with
    engines := State.reset.engines.set (EngId.turbo 0).index { queue := List.replicate n (engCmd 0x85 false) } (EngId.turbo 0).index_lt,
    engSent := sent, engMsgs := msgs, fabric := { txns := l } }

theorem witness_CommandsToEngines_range : ∀ n ∈ [63, 62], let m : EngSent := ⟨.turbo 0, engCmd 0x85 false, false⟩
    let s := turbo0 n [m] [] [engTxn (st []) 8 (.cmd (.turbo 0) (engCmd 0x81 false)) 2 .sent]
    s.held = none ∧ s.engArrival (.turbo 0) = some m ∧ s.rfabOn (EngId.turbo 0).range = true ∧ s.regBit (engA (.turbo 0) 4) 0 = true ∧
      s.regBit (capA (.turbo 0) 5) 5 = true ∧ (0x85 : Nat) ∈ engCodes (.turbo 0) ∧ (EngId.turbo 0).ofRange = true ∧
      (sharing s (.turbo 0) 5).length = n + 1 ∧ s.reach (.core 5) (EngId.turbo 0).base = .send 8 := by decide

theorem witness_CommandsToEngines_packet : let t := engTxn (st []) 8 (.cmd (.turbo 0) (engCmd 0x85 false)) 2 .sent
    let s := turbo0 0 [] [] [t]
    s.held = none ∧ malformed (s.reqHeader t) = false ∧ s.arrival (s.reqHeader t) 2 = some t ∧ t.carry = .cmd (.turbo 0) (engCmd 0x85 false) := by decide

theorem witness_EngineQueues_range : ∀ c : Bool, let m : EngMsg := ⟨.turbo 0, 5, 9, c⟩
    let t := engTxn (st []) 8 (.ctl m) 3 .sent
    let s := turbo0 1 [] [m] [t]
    s.engMsg (.turbo 0) = some m ∧ s.engCmd (.turbo 0) 5 9 = some (engCmd 0x85 false) ∧ malformed (s.reqHeader t) = false ∧
      s.arrival (s.reqHeader t) 3 = some t ∧ (EngId.turbo 0).ofRange = true ∧ s.reach (.core 5) (EngId.turbo 0).base = .send 8 ∧
      s.engRuns (.turbo 0) (engCmd 0x85 false) = false ∧ s.engEn (.turbo 0) = true := by decide

/-- The command of the queue runs, executed or not. -/
def runningCmd (committed : Bool) (result : Option EngResult) : Engine :=
  { queue := [engCmd 1 committed], running := some (5, 9), result := result }

theorem witness_EngineQueues_messages : ∀ c : Bool,
    let m : EngMsg := ⟨.codec 0, 5, 9, c⟩
    let s := codec0 (fullQueue 1) true [] [⟨.eq 0, 5, 9, c⟩, m]
    let t := codec0 (runningCmd false (some ⟨0, 0⟩)) true [] [m]
    s.engMsg (.codec 0) = some m ∧ (EngId.codec 0).ofRange = false ∧ s.engCmd (.codec 0) 5 9 = some (engCmd 1 false) ∧ s.engRuns (.codec 0) (engCmd 1 false) = false ∧
      s.engEn (.codec 0) = true ∧ t.engRuns (.codec 0) (engCmd 1 false) = true ∧ t.engCmd (.codec 0) 5 9 = some (engCmd 1 false) ∧ (t.eng (.codec 0)).staged = [] ∧
      (t.eng (.codec 0)).later = [] := by
  decide

theorem witness_EngineQueues_complete : let s := codec0 (runningCmd true (some ⟨0, 7⟩)) true [] []
    let q := s.memWrite (.engine (.codec 0)) 0x1000000044 (wholeBytes (s.engHeader (.codec 0) 0 7))
    (s.eng (.codec 0)).running = some (5, 9) ∧ (s.eng (.codec 0)).result = some ⟨0, 7⟩ ∧ s.engCmd (.codec 0) 5 9 = some (engCmd 1 true) ∧
      s.engineOn (.codec 0) = true ∧ (s.eng (.codec 0)).staged = [] ∧ (s.eng (.codec 0)).later = [] ∧ q.2 = .ok [] ∧ q.1.engines = s.engines := by decide

theorem witness_EngineQueues_idle : (st []).engineOn (.nbe 3) = true ∧ ((st []).eng (.nbe 3)).queue = [] := by decide

/-- The engine of a function has its command at the head of its queue. -/
def ready (e : EngId) (func : BitVec 8) (mem : List Host.Cell) : State :=
  { st [(engA e 4, 1)] with engines := State.reset.engines.set e.index { queue := [engCmd func false] } e.index_lt, mem := mem }

theorem witness_EngineFunctions : ∀ i ∈ engineFunctions 23 3, let e := i.2.1
    let c := engCmd (BitVec.ofNat 8 i.2.2.1) false
    let s := ready e (BitVec.ofNat 8 i.2.2.1) [(0x1001700040, 5)]
    let q := engWork s e c i.2.2.2.1 none
    s.held = none ∧ s.engHead e = some c ∧ c.func.toNat = i.2.2.1 ∧ s.engMayRun e = true ∧ s.engEn e = true ∧ s.coeffGone e = false ∧
      q.1.job.waits = none ∧ stagedBytes q.1.staged ≤ 4096 := by decide +kernel

theorem witness_EngineFunctions_read : let s := ready (.fft 23) 0x21 []
    s.memRead (.engine (.fft 23)) 0x1000000040 64 = (s, .ok (List.replicate 64 0)) := by rfl

theorem witness_EngineFunctions_bus : (engWork (ready (.codec 23) 0x11 []) (.codec 23) { engCmd 0x11 false with ptr := 0x3000000000 } crcFn none).1.job.bus = some 0xFFFF := by
  decide

theorem witness_EngineEnables : let s := st [(engA (.codec 23) 4, 1)]
    engineAt (.fec 23) (engA (.codec 23) 4 - (Block.fec 23).base) = some (.codec 23, 4) ∧ grantedB s .summitCtl (.fec 23) (engA (.codec 23) 4 - (Block.fec 23).base) = true ∧
      (Block.fec 23).base ≤ engA (.codec 23) 4 ∧ s.engEn (.codec 23) = true ∧ (s.eng (.codec 23)).queue = [] ∧ (st []).engEn (.codec 23) = false := by decide

theorem witness_EngineEnables_early : (codec0 (fullQueue 1) false [] []).engEn (.codec 0) = false ∧ ((codec0 (fullQueue 1) false [] []).eng (.codec 0)).queue ≠ [] := by
  decide

/-! Device time -/

/-- The state with this timebase and these registers. -/
def timed (tb : Timebase) (l : List (Nat × Word)) : State := { st l with tb := tb }

theorem witness_TimebaseInputs : (st []).regBit (tbA 4) 1 = false ∧ (st [(tbA 4, 2)]).regBit (tbA 4) 1 = true ∧ (st [(tbA 4, 1)]).regBit (tbA 4) 0 = true ∧
    ((st []).tb.started = false ∧ (st []).held = none) ∧
    ((timed { started := true } []).tb.started = true ∧ (timed { started := true } []).regBit (tbA 4) 0 = false ∧ (timed { started := true } []).regBit (tbA 4) 1 = false) ∧
    ((timed { cycles := 1474560000 } [(tbA 0x68, 1)]).regBit (tbA 0x68) 0 = true ∧
      (timed { cycles := 1474560000 } [(tbA 0x68, 1)]).tb.ppsRef + 1474560000 ≤ (timed { cycles := 1474560000 } [(tbA 0x68, 1)]).tb.cycles) ∧
    ((timed { now := 9830400, divNew := some 256 } []).tb.divFrame ≠
      (((timed { now := 9830400, divNew := some 256 } []).tb.now.toNat : Int) - (timed { now := 9830400, divNew := some 256 } []).frameOfs) / 9830400) := by decide +kernel

/-- The replica of hub 3 differs by d. -/
def offBy (d : Int) (ctl : Word) : State := { st [(tbA 8, ctl)] with replicas := [((ReplicaId.hub 3).index, d)] }

theorem witness_TreeChecks : (offBy 3 0).held = none ∧ 2 < (sget (fun _ => 0) (offBy 3 0).replicas (ReplicaId.hub 3).index).natAbs ∧
    2 < (sget (fun _ => 0) (offBy (-3) 0).replicas (ReplicaId.hub 3).index).natAbs ∧ (offBy 3 2).regBit (tbA 8) 1 = true ∧ (offBy 3 0).regBit (tbA 8) 1 = false := by
  decide

theorem witness_RateAndSlew : (sext 32 (109951 : Word).toNat).natAbs ≤ 109951 ∧ 109951 < (sext 32 (0xFFFE5280 : Word).toNat).natAbs ∧
    (∀ d ∈ [(1 : Int), -1, 2, 0], let s := timed { slew := d, started := true, frac := 1099511627775 } [(tbA 0x40, 1)]
      s.held = none ∧ s.tb.started = true ∧ s.carries = true ∧ s.tb.slew = d) := by decide

theorem witness_Steps : (bit (3 : Word) 0 = true ∧ bit (3 : Word) 1 = true) ∧ (bit (1 : Word) 0 = true ∧ bit (1 : Word) 1 = false) ∧
    (bit (2 : Word) 0 = false ∧ bit (2 : Word) 1 = true) ∧ (timed { started := true } []).tb.started = true ∧ (st [(bootA 0x20, 3)]).stepMode = true ∧
    (st [(bootA 0x20, 4)]).stepMode = false ∧ (-983 : Int).natAbs ≤ 983 ∧ 983 < (984 : Int).natAbs := by decide

/-- PPS_IN is enabled, for edges of a kind, with a deglitch of 1 tu, and the replica of the timebase reads 8. -/
def pps (cfg : Word) (w : Option Time) : State := timed { started := true, now := 8, waitLoad := w } [(tbA 0x68, cfg), (bootA 0x20, 2)]

theorem witness_PpsEdges : ∀ k ∈ [0, 1], ∀ c ∈ [5, 7], let w : Option Time := if k = 0 then none else some 7; let s := pps (BitVec.ofNat 32 c) w
    s.held = none ∧ s.regBit (tbA 0x68) 0 = true ∧ s.regBit (tbA 0x68) 1 = decide (c = 7) ∧ s.tb.started = true ∧ s.tb.waitLoad = w ∧ s.regBit (tbA 8) 0 = false ∧
      s.stepMode = true ∧ max 1 (s.regFld (tbA 0x68) 15 2) = 1 ∧ (s.replica .tb).toNat = 8 ∧ ((7 : Time).toNat : Int) ≤ (7 : Time).toNat ∧
      (7 : Time).toNat + 1 ≤ 8 + 1 ∧ 8 ≤ (8 : Time).toNat + 1 ∧ 8 ≤ (7 : Time).toNat + 1 := by decide

theorem witness_Ticks : let s := timed { started := true, now := 8192 } []
    s.held = none ∧ s.tb.started = true ∧ s.atTick = true ∧ s.rinfOn 3 = true ∧ s.dpts[(3 : Fin 4)].delay.all (fun e => !tickDue (s.tickOf s.tb.now.toNat) e.1) = true ∧
      fld (255 : Word) 16 0 < 256 ∧ 65536 < fld (65537 : Word) 16 0 ∧ 256 ≤ fld (256 : Word) 16 0 ∧ fld (65536 : Word) 16 0 ≤ 65536 := by decide

/-- In this state lane 95 is in RUN and locked. -/
def live (s : State) : State := (s.setReg (lnA 95 8) 2).setReg (lnA 95 4) 0

theorem witness_ClockOutputs : ∀ n : Fin 2, let s := timed { recLost := 3 } [(tbA (0xC0 + 4 * n.val), 0x65F)]
    (s.tb.recLost.getLsbD n.val = true ∧ bit (s.reg (tbA (0xC0 + 4 * n.val))) 9 = true) ∧ bit ((st []).reg (tbA (0xC0 + 4 * n.val))) 10 = false ∧
      (let u := st [(tbA (0xC0 + 4 * n.val), 0x65F)]
       bit (u.reg (tbA (0xC0 + 4 * n.val))) 10 = true ∧ fld (u.reg (tbA (0xC0 + 4 * n.val))) 6 0 = 95 ∧ u.hasRange (95 / 24) = true ∧ u.tb.recLost.getLsbD n.val = false) ∧
      s.held = none ∧ (live s).recclkLive n = true := by decide

/-- A comparator armed at a target, with its period and control word, and the time. -/
def armedAt (c : CmpId) (a now : Time) (p ctl : Word) : State :=
  { timed { now := now, started := true } [(c.base + 8, p), (c.base + 0xC, ctl), (c.base + 0x10, 1)] with targets := [(c.base, a)] }

theorem witness_ComparatorWrites_meets : let s := armedAt (.gt 3) 100 101 0 0
    s.armed (.gt 3) = true ∧ (s.target (CmpId.gt 3).base).toNat ≤ (s.replica (CmpId.gt 3).replica).toNat := by decide

theorem witness_ComparatorWrites : (bit (1 : Word) 0 = true ∧ ¬(bit (1 : Word) 2 = true)) ∧ (bit (5 : Word) 2 = true ∧ ((st []).reg ((CmpId.gt 0).base + 8)).toNat < 256) ∧
    (bit (2 : Word) 0 = false ∧ bit (2 : Word) 1 = true) ∧ (bit (8 : Word) 0 = false ∧ bit (8 : Word) 1 = false) := by decide

theorem witness_ComparatorFires : let s := armedAt (.gt 3) 100 101 256 4
    s.regBit ((CmpId.gt 3).base + 0xC) 2 = true ∧ 256 ≤ (s.reg ((CmpId.gt 3).base + 8)).toNat ∧ s.armed (.gt 3) = true ∧
      (s.target (CmpId.gt 3).base).toNat = 100 ∧ (s.replica (CmpId.gt 3).replica).toNat < 100 + 2 ∧
      100 + 2 ≤ ((armedAt (.gt 3) 100 102 256 0).replica (CmpId.gt 3).replica).toNat ∧ (armedAt (.gt 3) 100 102 256 0).regBit ((CmpId.gt 3).base + 0xC) 2 = false := by
  decide

theorem witness_ComparatorActions : ∀ c ∈ [CmpId.gt 31, .flume (.hub 3 31), .tp 3 15, .seq 3 3, .sch 3 15, .dac 7, .slc 31], let s := armedAt c 100 100 0 8
    s.held = none ∧ s.cmpOn c = true ∧ s.armed c = true ∧ s.cmpTurn c = true ∧ (s.target c.base).toNat ≤ (s.replica c.replica).toNat := by decide

/-! Dispatchers -/

/-- Words of TCB 5 of range 0, by offset, and the dispatcher and registers of the range: enabled, with core 3 eligible. -/
def disp (l : List (Nat × Word)) (d : Dispatcher := {}) (regs : List (Nat × Word) := []) : State :=
  { st ([(dptA 0 4, 3), (dptA 0 0x10, 8)] ++ regs) with ctx := l.map (fun p => (640 + p.1, p.2)), dpts := State.reset.dpts.set 0 d }

theorem witness_TcbWords : (0x7C : Nat) < 0x80 ∧ (1023 : Nat) < 1024 := by decide

theorem witness_Posts : ((st []).tState 0 5 = 0 ∧ (some 3 ≠ some (fld ((disp [(44, 0x4000000)]).tcb 0 5 44) 27 24))) ∧
    ((disp [(0, 3), (8, 0x80000000)]).tState 0 5 = 3 ∧
      waitMet ((disp [(0, 3), (8, 0x80000000)]).tcb 0 5 4 ||| (1 <<< 31)) ((disp [(0, 3), (8, 0x80000000)]).tcb 0 5 8) (bit ((disp [(0, 3), (8, 0x80000000)]).tcb 0 5 0) 6) = true) ∧
    ((disp [(0, 0x43), (8, 0x80000001)]).tState 0 5 = 3 ∧
      waitMet ((disp [(0, 0x43), (8, 0x80000001)]).tcb 0 5 4 ||| (1 <<< 31)) ((disp [(0, 0x43), (8, 0x80000001)]).tcb 0 5 8) (bit ((disp [(0, 0x43), (8, 0x80000001)]).tcb 0 5 0) 6) = false) ∧
    bit ((disp [(0, 3)]).tcb 0 5 0) 7 = false ∧ bit ((disp [(0, 0x83)]).tcb 0 5 0) 7 = true := by decide

theorem witness_ThreadCommands : ((disp [(16, 8), (20, 0x3FF0000)]).tState 0 5 = 0 ∧ (disp [(16, 8), (20, 0x3FF0000)]).tcb 0 5 16 ≠ 0 ∧ (disp [(16, 8), (20, 0x3FF0000)]).frameTaken 0 5 = false) ∧
    (disp [(0, 1)]).tState 0 5 ≠ 0 ∧ ((st []).tState 0 5 = 0 ∧ (st []).tcb 0 5 16 = 0 ∧ fld ((st []).tcb 0 5 20) 15 0 = 0) ∧
    ((disp [(16, 8), (20, 1), (128, 3), (148, 0)]).tState 0 5 = 0 ∧ (disp [(16, 8), (20, 1), (128, 3), (148, 0)]).frameTaken 0 5 = true) ∧
    (disp [(0, 5)]).tState 0 5 = 5 := by decide

theorem witness_ReadyOrder : ∀ t ∈ (disp [(0, 0x301), (128, 0x201)] { ready := [5, 6] }).dpts[(0 : Fin 4)].ready,
    bit ((disp [(0, 0x301), (128, 0x201)] { ready := [5, 6] }).tcb 0 t.toNat 0) 22 = false := by decide

/-- Thread 5 is READY, at a level, for core 3, in a ridge of this state. -/
def readyFor (cfg dom : Word) (d : Dispatcher := {}) : State := disp [(0, cfg), (16, 8), (20, 0x3FF0000)] { d with ready := [5] } [(domState 0, dom)]

theorem witness_CoreChoice : (readyFor 1 0).chooseCore 0 5 false = some 3 := by decide

theorem witness_Dispatching : (readyFor 1 0).held = none ∧ (readyFor 1 0).rinfOn 0 = true ∧ (readyFor 1 0).regBit (dptA 0 4) 0 = true ∧
    ((readyFor 1 0).nextDispatch 0 = some (5, 3) ∧ (readyFor 1 0).dom 0 = 0 ∧ bit ((readyFor 1 0).tcb 0 5 0) 23 = false) ∧
    ((readyFor 1 1).nextDispatch 0 = some (5, 3) ∧ (readyFor 1 1).dom 0 ≠ 0) := by decide

/-- The first codeword of the scalar frame of thread 5 of range 0 is poisoned in a state. -/
def poisonedFrame (s : State) : State := { s with prot := { s.prot with poison := [(ctxCw 0 (scalarOff 5), true)] } }

theorem witness_Dispatching_frames : ((readyFor 1 0).readFrames 0 5).2.isSome = true ∧ ((poisonedFrame (readyFor 1 0)).readFrames 0 5).2.isSome = false ∧
    (poisonedFrame (readyFor 1 0)).nextDispatch 0 = some (5, 3) ∧ (poisonedFrame (readyFor 1 0)).dom 0 = 0 ∧
    bit ((poisonedFrame (readyFor 1 0)).tcb 0 5 0) 23 = false := by decide +kernel

/-- Core 3 runs thread 6, at level 2, while thread 5, at level 1, is READY. -/
def behind (switch : Bool) : State :=
  let s := disp [(0, 0x101), (16, 8), (20, 0x3FF0000), (128, 0x202)] { ready := [5] }
  { s with cores := s.cores.set 3 { running with fgT := some 6, switchReq := switch } }

theorem witness_Dispatching_preempt : (behind false).regBit (dptA 0 4) 1 = true ∧ (behind false).nextPreempt 0 = some (5, 3) ∧
    ((behind false).coreEn 0 3 = true ∧ (behind false).cores[dev 0 3].fgT.isSome = true ∧ (behind false).cores[dev 0 3].switchReq = false ∧
      (behind false).shadowChoice 0 3 = some 5 ∧ (behind false).cores[dev 0 3].shT ≠ some 5) := by decide

theorem witness_Dispatching_preload : ((behind false).readFrames 0 5).2.isSome = true ∧
    (let s : State := { behind false with cores := (behind false).cores.set 3 { running with fgT := some 6, shT := some 5 } }
     s.cores[dev 0 3].shT = some 5 ∧ s.nextPreempt 0 = some (5, 3)) := by decide +kernel

/-- Thread 5 waits with a deadline that has passed, under a policy. -/
def missing (policy : Word) : State := disp [(0, 0x400003 + policy)] { delay := [(7, 5)], tick := 7 } [(0, 0)]

theorem witness_Timers : (disp [(0, 4)] { delay := [(7, 5), (9, 6)], tick := 7 }).dueEntries 0 = (7, 5) :: [] ∧
    ((missing 0).missed 0 5 = true ∧ fld ((missing 0).tcb 0 5 0) 21 20 = 0) ∧ ((missing 0x100000).missed 0 5 = true ∧ fld ((missing 0x100000).tcb 0 5 0) 21 20 = 1) ∧
    ((missing 0x200000).missed 0 5 = true ∧ 1 < fld ((missing 0x200000).tcb 0 5 0) 21 20) := by decide

/-- Core 47 has stopped by a double fault, and holds thread 5 of range 0, in a state. -/
def faultedOn (n : Word) : State :=
  let s := disp [(0, n)]
  { s with cores := s.cores.set 47 { fgT := some 5, run := .faulted } }

theorem witness_Timers_fault : [(1 : Word), 2].all (fun n => decide (coreRange 47 = 0 ∧ (faultedOn n).cores[(47 : Fin 192)].run = .faulted ∧
    (faultedOn n).cores[(47 : Fin 192)].fgT = some 5 ∧ (faultedOn n).cores[(47 : Fin 192)].shT ≠ some 5 ∧
    (faultedOn n).cores[(47 : Fin 192)].discard = false ∧ (faultedOn n).tState 0 5 = n.toNat ∧ bit ((faultedOn n).tcb 0 5 0) 23 = false)) = true := by decide

/-- Lock 255 of range 0: its configuration, numbers E and R, and the ordered entries of thread 5. -/
def locked (cfg seq e0 e1 : Word) (d : Dispatcher := {}) : State := disp [(36, e0), (40, e1)] d [(lockA 0 255, cfg), (lockA 0 255 + 4, seq)]

theorem witness_LockOps : ((locked 0x80000000 0xFFFF 0 0).lockOn 0 255 = true ∧ (locked 0x80000000 0x0000FFFF 0 0).lockN 0 255 = 65535 ∧ (locked 0x80000000 5 0 0).lockN 0 255 = 5 ∧
      (locked 0x80000000 5 0 0).lockWindow 0 255 = 32768) ∧ (locked 0 0 0 0).lockOn 0 255 = false ∧
    ((locked 0x80000001 1 0 0).lockN 0 255 = (locked 0x80000001 1 0 0).lockWindow 0 255) ∧
    (bit ((locked 0x80000002 1 0x1FF0000 0x1000000).tcb 0 5 36) 24 = true ∧ bit ((locked 0x80000002 1 0x1FF0000 0x1000000).tcb 0 5 40) 24 = true ∧
      (locked 0x80000002 1 0x1FF0000 0x1000000).lockN 0 255 ≠ (locked 0x80000002 1 0x1FF0000 0x1000000).lockWindow 0 255) ∧
    (locked 0x80000002 1 0 0).openEntry 0 5 255 0 = none ∧
    (let s := locked 0x80000002 1 0 0x1FF0000
     s.openEntry 0 5 255 0 = some 40 ∧ relArgOk s.cores[(0 : Fin 192)].relArg = true ∧ s.lockR 0 255 = 0 ∧ 0 < s.lockN 0 255 ∧ s.headHold 0 255 = none ∧
       fld s.cores[(0 : Fin 192)].relArg 1 0 = 0 ∧ s.dpts[(0 : Fin 4)].skips = []) := by decide

/-- Lock 255 with a hold entry for its next number, by the argument of its release. -/
def holding (arg : Word) : State := locked 0x80000000 2 0 0 { holds := [⟨255, 0, arg⟩] }

theorem witness_HeldReleases : [(0 : Word), 0x1F015, 0x23E, 0x3F].all (fun arg => decide ((holding arg).held = none ∧ (holding arg).rinfOn 0 = true ∧
    (holding arg).headHold 0 255 = some ⟨255, 0, arg⟩ ∧ (holding arg).dpts[(0 : Fin 4)].skips = [])) = true := by decide

theorem witness_HeldReleases_config : (holding 0).lockOn 0 255 = true ∧ (holding 0).lockN 0 255 ≠ 0 ∧ (holding 0).holdsOf 0 255 ≠ 0 ∧
    (locked 0 0 0 0).lockOn 0 255 = false := by decide

theorem witness_HeldReleases_actions : fld (0 : Word) 1 0 = 0 ∧ fld (0x1F015 : Word) 1 0 = 1 ∧ fld (0x23E : Word) 1 0 = 2 ∧
    relChannel 0 (fld (0x23E : Word) 11 2) = some (.host 15) ∧ fld (0x3F : Word) 1 0 = 3 := by decide

/-! Beamforming arrays -/

/-- An entry: OP, and bytes by offset. -/
def entry (op : Nat) (l : List (Nat × Byte) := []) : List Byte := (List.range 64).map fun i => if i = 4 then BitVec.ofNat 8 op else ((l.find? (·.1 = i)).map (·.2)).getD 0

/-- An operation with an entry. -/
def bfaOp (e : List Byte) (late : Bool := false) : BfaOp := ⟨e, 0, 0, false, late, 0, false⟩

/-- BFA 1 is enabled, in this state. -/
def array (b : Bfa) (regs : List (Nat × Word) := []) : State := { st ((bfaA 1 4, 1) :: regs) with bfas := State.reset.bfas.set 1 b }

theorem witness_ArrayTakes : ∀ n ∈ [1, 2, 3, 4, 5, 6, 7, 0], let s := array { queue := [bfaOp (entry n)] }
    s.held = none ∧ s.bfaReady 1 = true ∧ s.voted 57 6 = false ∧ s.bfas[(1 : Fin 4)].run = none ∧ s.bfas[(1 : Fin 4)].queue = bfaOp (entry n) :: [] ∧ eOp (bfaOp (entry n)).entry = n := by
  decide

theorem witness_DownlinkExponents : ((st [(cellA 1 15 4, 0x290000)]).cell 1 15).comp = true ∧ ((st []).cell 1 15).comp = false := by decide

theorem witness_HeaderChecks : (firstBad (headerChecks (entry 1 [(7, 1)]))).isSome = true ∧ firstBad (headerChecks (entry 0)) = none ∧ firstBad (headerChecks (entry 7)) = none := by decide

/-- The array runs an operation that ended with a status. -/
def ending (e : List Byte) (status : Nat) : BfaRun := ⟨bfaOp e, status, 0, 0, 0, 0, [], none⟩

theorem witness_ArrayCompletes : ∀ k ∈ [ending (entry 1 [(6, 2)]) 0, ending (entry 6) 2], let s := array { run := some k }
    s.held = none ∧ s.bfaOn 1 = true ∧ s.bfas[(1 : Fin 4)].run = some k ∧ s.regFld (bfaA 1 0x28) 15 0 = 0 ∧ eOp k.op.entry ≠ 5 ∧ eFld k.op.entry 6 1 % 2 = 0 ∧
      s.regBit (bfaA 1 4) 0 = true ∧ k.status ≠ 0x40 := by decide

theorem witness_ArrayCompletes_waited : let k : BfaRun := { ending (entry 1) 0 with set := some 63 }
    let s := array { run := some k, queue := [bfaOp (entry 5 [(20, 63)])] }
    s.bfas[(1 : Fin 4)].run = some k ∧ s.bfas[(1 : Fin 4)].queue = bfaOp (entry 5 [(20, 63)]) :: [] ∧ eOp (bfaOp (entry 5 [(20, 63)])).entry = 5 ∧
      k.set = some (eFld (bfaOp (entry 5 [(20, 63)])).entry 20 2) := by decide

theorem witness_StatusRing : (array {}).regFld (bfaA 1 0x28) 15 0 = 0 ∧ 0 < (array {} [(bfaA 1 0x28, 1)]).regFld (bfaA 1 0x28) 15 0 ∧
    (array {} [(bfaA 1 0x28, 1)]).bfas[(1 : Fin 4)].ringHeld < 1 ∧ 1 ≤ (array { ringHeld := 1 } [(bfaA 1 0x28, 1)]).bfas[(1 : Fin 4)].ringHeld := by decide

theorem witness_ActiveSets : ∀ dl ∈ [(0 : Byte), 1], ∀ q ∈ [0, 0x42], let k := ending (entry 5 [(5, 15), (17, dl), (20, 63), (24, 1)]) q
    eOp k.op.entry = 5 ∧ eFld k.op.entry 24 1 = 1 ∧ (k.status = 0 ∨ k.status = 0x42) ∧ eFld k.op.entry 5 1 = 15 ∧ eFld k.op.entry 20 2 < 64 ∧
      eFld k.op.entry 17 1 = dl.toNat := by decide

theorem witness_StreamWrites : RingsApart (st []) 1 := by
  intro i j hi hj _ hv
  have g : (List.range 256).all (fun i => !((st []).stream 1 i).valid) = true := by decide +kernel
  have := List.all_eq_true.mp g i (List.mem_range.mpr hi)
  simp [hv] at this

/-- A page write of stream 0. -/
def pageWrite (prb : Nat) : PageWrite := ⟨0, 14, prb, [], none, 0⟩

theorem witness_HeldPages : let s := array { held := [pageWrite 274] }
    s.held = none ∧ s.bfaOn 1 = true ∧ s.bfas[(1 : Fin 4)].held.find? (fun w => !s.pageHeld 1 w) = some (pageWrite 274) ∧ (pageWrite 274).prb < 275 ∧
      (pageWrite 274).close = none := by decide

theorem witness_SlotPrograms : (bfaOp (entry 0)).late = false ∧ (array { queue := List.replicate 31 (bfaOp (entry 0)) }).bfas[(1 : Fin 4)].queue.length < 32 ∧
    (32 ≤ (array { queue := List.replicate 32 (bfaOp (entry 0)) }).bfas[(1 : Fin 4)].queue.length ∧ (array {}).regFld (bfaA 1 0x28) 15 0 = 0) ∧
    ((array {}).seqRun 1 3 = false ∧ (array {}).regBit (bfaA 1 4) 0 = true) ∧
    (array {} [(seqA 1 3 0x28, 256)]).seqOk 1 3 = true ∧ (array {} [(seqA 1 3 0x28, 255)]).seqOk 1 3 = false ∧ (array {} [(seqA 1 3 0x30, 1)]).seqRun 1 3 = true := by decide

theorem witness_ClearsDone : let s : State := { st [] with slc := { (st []).slc with clearing := [52, 59] } }
    s.held = none ∧ 56 + 3 ∈ s.slc.clearing ∧ 52 + 0 ∈ s.slc.clearing := by decide

/-! Memories -/

theorem witness_CodewordCorrection : (35 : Nat) < 36 ∧ (0 : Nat) < 255 ∧ (255 : Nat) < 256 ∧ (34 : Nat) < 35 := by decide

theorem witness_CodewordReads : (CwMem.pool 23).real ∧ (CwMem.stack 1).real ∧ (CwMem.range 3 0).real ∧ (CwMem.range 3 2).real ∧ (memRegs (.pool 23)).isSome = true ∧ (memRegs (.stack 1)).isSome = true := by
  simp only [CwMem.real]
  decide

/-- A codeword of bank 0 of the pool of ridge 0. -/
def poolCw : Nat := 0x1000400000 / 32

/-- The bank of it is clean, or poisoned as a whole, and it holds an error. -/
def pooled (clean : Bool) (e : BitVec 288) : State := { st [] with prot := { clean := if clean then [0] else [], cwErr := [(poolCw, e)] } }

theorem witness_CodewordReads_clauses : (pooled false 0).poisoned poolCw = true ∧ ((pooled true 0).poisoned poolCw = false ∧ (pooled true 0).cwError poolCw = 0) ∧
    (decodeErr ((pooled true (byteError 35 255)).cwError poolCw) = .corrected [(35, 255)] ∧ fixErr ((pooled true (byteError 35 255)).cwError poolCw) [(35, 255)] = 0) ∧
    decodeErr ((pooled true (byteError 1 1 ^^^ byteError 2 2 ^^^ byteError 3 1)).cwError poolCw) = .uncorrectable := by decide

theorem witness_CodewordWrites : let s := pooled true 0
    (CwMem.stack 1).real ∧ (List.replicate 32 ((7 : Byte), (0xFF : Byte))).length = 32 ∧ s.prot.flips = [] ∧ (∀ b ∈ List.replicate 32 ((7 : Byte), (0xFF : Byte)), b.2 = 0xFF) ∧
      (let w := ((7 : Byte), (0x0F : Byte)) :: List.replicate 31 ((7 : Byte), (0xFF : Byte)); w.length = 32 ∧ (∃ b ∈ w, b.2 ≠ 0xFF) ∧ ∃ b ∈ w, b.2 ≠ 0) ∧
      s.poisoned poolCw = false ∧ s.cwError poolCw = 0 ∧ (pooled false 0).poisoned poolCw = true := by
  refine ⟨by simp only [CwMem.real]; decide, rfl, rfl, fun b hb => by rw [(List.mem_replicate.mp hb).2],
    ⟨rfl, ⟨_, List.mem_cons_self, by decide⟩, _, List.mem_cons_self, by decide⟩, by decide, by decide, by decide⟩

theorem witness_TileReads : let s : State := { st [] with prot := { tileSyn := [(0x1000000003, 2)] } }
    (∀ j < 3, s.tileSyn (0x1000000000 + j) = 0) ∧ s.tileSyn (0x1000000000 + 3) ≠ 0 := by decide

theorem witness_Scrubbing : let s := st [(memA 23 4, 1), ((scrubPos (.pool 23)).2, 0x1FFF)]
    s.held = none ∧ s.scrubOn (.pool 23) = true ∧ (s.reg (scrubPos (.pool 23)).2).toNat < (scrubPos (.pool 23)).1 ∧
      (∀ a ∈ scrubLines (.pool 23) 0x1FFF, ∀ n, ScrubId.pool 23 = .pool n → s.bankBusy n.val a = false) := by
  refine ⟨by decide, by decide, by decide, fun a ha n hn => ?_⟩
  cases hn
  revert a
  decide

theorem witness_Inits : (st [(memA 23 0xA8, 0x8000)]).ridgeOn 23 = true ∧ (st [(memA 23 0xA8, 0x8000)]).regBit (memA 23 0xA8) 15 = true ∧
    (st []).regBit (stackA 1 + 4) 2 = false := by decide

/-- Stack 1 in a state, free to sleep. -/
def stack (dom status : Word) : State := st [(domState 61, dom), (domCfg 61, 0x27), (slcA 0x604, 0x80000000), (stackA 1 + 4, status)]

theorem witness_Stacks : ((stack 2 2).dom 61 = 2 ∧ (stack 2 2).regBit (stackA 1 + 4) 1 = true ∧ (st [(domState 61, 2)]).stackSleeps 1 = false) ∧
    ((stack 0 5).dom 61 = 0 ∧ (stack 0 5).stackSleeps 1 = true ∧ (stack 0 5).stackIdle 1 = true) := by decide

theorem witness_CacheFills : ((st []).busRead (cacheReq (.core 191)) 0x1000000000 64).2 = .ok (List.replicate 64 0) ∧
    ((st []).busRead (cacheReq (.core 191)) 0x1000000000 64).1.prot.flips = [] ∧ ((st []).busRead (cacheReq (.eng (.codec 0))) 0x3000000000 64).2 = .err := by decide

/-! The fabric -/

/-- The state with transactions of the fabric, and registers. -/
def txns (l : List Txn) (regs : List (Nat × Word) := []) : State := { st ((leatA (0x200 + 4 * 5), 0x40001) :: regs) with fabric := { txns := l } }

/-- A transaction of core 0 for an address, in a state. -/
def txn (ty dest a : Nat) (st : TxnSt) (late lost err : Bool := false) : Txn :=
  { req := .core 0, init := 0, dest := dest, tid := 1023, ty := ty, addr := a, len := 8, data := if ty = 1 then List.replicate 8 7 else [], maskFirst := 0xFF, maskLast := 0xFF,
    epoch := false, respEpoch := false, st := st, late := late, lost := lost, resp := if st = .answered then List.replicate 8 9 else [], err := err }

theorem witness_RequestsSent : (txns []).held = none ∧ (txns []).txnOf (Requester.core 0).endpoint 1023 = none ∧ 0x1006000000 % 256 + 256 ≤ 256 ∧
    (txns []).reach (.core 0) 0x1006000000 = .send 3 ∧ (txns []).maySend 0 3 = true ∧ (txns []).niFree 0 = true ∧
    (txns [txn 0 3 0x1006000000 .waiting]).niFree 0 = false ∧
    (txns [] [(leatA (0x200 + 12), 0x40000)]).maySend 0 3 = false ∧ (txns [] [(epA 3, 1)]).reach (.core 0) 0x1006000000 = .held 3 ∧
    (txns [] [(epA 3, 2)]).reach (.core 0) 0x1006000000 = .held 3 ∧ (txns [] [(epA 3, 3)]).reach (.core 0) 0x1006000000 = .off 3 ∧
    (txns [] [(epA 3, 5)]).reach (.core 0) 0x1006000000 = .fenced 3 ∧ (txns []).reach (.core 0) 0xFF00000000 = .fail := by decide

theorem witness_RequestsSent_own : (txns []).reach (.core 0) 0x1000000000 = .own ∧ (txns []).targetBusy 0x1000000000 = false ∧
    ((txns []).targetRead (.core 0) 0x1000000000 8).2 = .ok (List.replicate 8 0) ∧
    ((txns []).targetWrite (.core 0) 0x1000000000 (List.replicate 8 (7, 0xFF))).2 = .ok [] ∧
    (txns []).reach (.core 0) 0x1000C08000 = .own ∧ ((txns []).targetRead (.core 0) 0x1000C18000 8).2 = .err := by decide

theorem witness_RequestsSent_woken : (3 : Nat) ∈ ({ txns [] [(epA 3, 2)] with fabric := { woken := [3] } } : State).fabric.woken ∧ (3 : Nat) ∉ (txns []).fabric.woken := by
  decide

theorem witness_RequestsSent_requester : ∀ f, Requester.core 0 ≠ .flume f := fun _ => Requester.noConfusion

theorem witness_RequestsResent : let t := txn 0 3 0x1006000000 .waiting
    let turn (s : State) := s.fabric.txns.find? (fun k => decide (k.init = t.init ∧ k.st = .waiting)) = some t
    (txns [t]).txnOf (Requester.core 0).endpoint 1023 = some t ∧ (txns [t]).reach t.req t.where_ = .send 3 ∧ turn (txns [t]) ∧
      (txns [t]).maySend t.init 3 = true ∧
      (let u := txns [{ t with tid := 5 }, t]
       u.txnOf (Requester.core 0).endpoint 1023 = some t ∧ ¬turn u) ∧ (txns [t] [(leatA (0x200 + 12), 0x40000)]).maySend 0 3 = false := by decide

theorem witness_RequestPackets : ∀ ty ∈ [0, 1], let t := txn ty 3 0x1006000000 .sent
    let h := (txns []).reqHeader t
    malformed h = false ∧ (txns [t]).arrival h ty = some t ∧ (txns []).arrival h ty = none ∧ (txns [t]).targetBusy t.addr = false ∧
      (let u := txn ty 36 0 .sent
       malformed ((txns []).reqHeader u) = false ∧ (txns [u]).arrival ((txns []).reqHeader u) ty = some u ∧ (txns [u]).targetBusy u.addr = true) := by decide

theorem witness_RequestPackets_target : let t := txn 0 3 0x1006000000 .sent
    ((txns [t]).targetRead t.req t.addr t.len).2 ≠ .held ∧ ((txns [t]).targetWrite t.req t.addr (List.replicate 8 (7, 0xFF))).2 ≠ .held := by decide

theorem witness_RequestPackets_malformed : malformed 0x80 = true := by decide

theorem witness_ResponsePackets : ∀ p ∈ [(0, [0]), (1, [1, 2, 3]), (2, [1, 2, 3]), (3, [1, 2, 3])], ∀ late ∈ [true, false], let t := txn p.1 3 0x1006000000 .answered late
    let s := txns [t]
    malformed (s.respHeader t) = false ∧ s.fabric.txns.find? (fun k => decide (k.st = .answered ∧ k.ty ∈ p.2) && !k.lost &&
      decide (s.respHeader k = s.respHeader t) && s.backInOrder k && s.pathClear k.respVia k.dest k.init) = some t := by
  decide

theorem witness_Timeouts : ∀ lost ∈ [true, false], let t := txn 0 37 0x3000000000 .sent false lost
    (txns [t]).held = none ∧ (txns [t]).txnOf 0 1023 = some t ∧ (t.st = .sent ∨ t.st = .answered) ∧ t.late = false ∧ t.ty = 0 ∧ t.lost = lost ∧
      decodeAddr (txns [t]).part t.addr = .hostWindow := by decide

theorem test_paths : routePath none 0 3 = [0, 1, 2, 3] ∧ routePath none 3 0 = [3, 4, 5, 0] ∧ routePath (some false) 0 7 = [0, 1, 7] ∧
    routePath (some true) 0 7 = [0, 6, 7] := by decide

theorem witness_DownLinksHold : ∀ st ∈ [TxnSt.sent, .answered], ∀ ty ∈ [0, 1], let t := txn ty 3 0x1006000000 st
    let s := txns [t] [(linkA 0, 2), (linkA 6, 2)]
    malformed (s.reqHeader t) = false ∧ malformed (s.respHeader t) = false ∧ t.there = false ∧
      (∃ l ∈ routeLinks t.via t.init t.dest, s.regFld (linkA l) 1 0 = 2) ∧ ∃ l ∈ routeLinks t.respVia t.dest t.init, s.regFld (linkA l) 1 0 = 2 := by decide

/-- The sluice controller has a committed transaction of the domain, or brings it up. -/
def sluice (s : State) (txns : List SlcTxn) (up : List (Nat × Nat)) : State := { s with slc := { s.slc with txns := txns, up := up } }

theorem witness_Endpoints : ((sluice (st []) [{ dom := 0, target := 4, auto := false, commit := true }] []).fencing 0 = some { dom := 0, target := 4, auto := false, commit := true } ∧
      (st []).epState 0 = 0) ∧
    ((st [(epA 0, 1)]).epState 0 = 1 ∧ (st [(epA 0, 1)]).outstanding 0 = 0 ∧ 0 ∉ (st [(epA 0, 1)]).fabric.reopen) ∧
    ((let s := st [(epA 0, 2)]
      s.epState 0 = 2 ∧ (s.exitReady ((ridgeOfNode 0).getD (epDomain 0)) = true ∨ s.dom ((ridgeOfNode 0).getD (epDomain 0)) = 0) ∧ s.txn ((ridgeOfNode 0).getD (epDomain 0)) = none) ∧
      (sluice (st [(epA 0, 3)]) [] [(0, 4)]).exitReady 0 = true) := by decide

theorem witness_Endpoints_reopen : (3 : Nat) ∈ ({ st [(epA 3, 1)] with fabric := { reopen := [3] } } : State).fabric.reopen ∧
    (sluice (st [(epA 0, 1)]) [] []).dom ((ridgeOfNode 0).getD (epDomain 0)) = 0 ∧ (sluice (st [(epA 0, 1)]) [] []).epState 0 = 1 := by decide

theorem no_override {s : State} (h : (List.range 64).all (fun k => !bit (s.reg (leatA (0x300 + 4 * k))) 31) = true) (i d : Nat) : s.override i d = none := by
  rw [State.override, List.findSome?_eq_none_iff]
  intro k hk
  have := List.all_eq_true.mp h k hk
  simp only [Bool.not_eq_true'] at this
  simp [this]

/-- The fabric without overrides. -/
def flat : State := st [(leatA 0x300, 0), (leatA 0x304, 0), (leatA 0x308, 0), (leatA 0x30C, 0)]

theorem witness_Grants : flat.grantsOk = true ∧ (flat.setReg (leatA 0x200) 0x00A00005).grantsOk = false := by
  refine ⟨?_, ?_⟩
  · have h := no_override (s := flat) (by decide)
    simp only [State.grantsOk, State.creditSum, State.credits, h, Option.getD_none]
    decide +kernel
  · have h := no_override (s := flat.setReg (leatA 0x200) 0x00A00005) (by decide)
    simp only [State.grantsOk, State.creditSum, State.credits, h, Option.getD_none]
    decide

theorem witness_Grants_allowed : (flat.setReg (leatA 0x200) (flat.reg (leatA 0x200))).grantsOk = true := by
  have h : flat.setReg (leatA 0x200) (flat.reg (leatA 0x200)) = flat := rfl
  rw [h]
  exact witness_Grants.1

/-- A byte of a plan of range 0 alone. -/
def route0 (o : Nat) : Nat :=
  if o < 1296 then (if inRanges 1 (o / 36) && inRanges 1 (o % 36) then 1 else 0) else if 0x600 ≤ o ∧ inRanges 1 (o - 0x600) then 8 else 0

/-- The four bytes of a word of it. -/
def route0Word (i : Nat) : Word := BitVec.ofNat 32 (route0 (4 * i) + 2 ^ 8 * route0 (4 * i + 1) + 2 ^ 16 * route0 (4 * i + 2) + 2 ^ 24 * route0 (4 * i + 3))

/-- Plan 0 is being checked, with these routes. -/
def checking (cfg : Word) (l : List Nat) : State := st ((leatA 0x400, cfg) :: l.map fun i => (leatA 0x8000 + 4 * i, route0Word i))

theorem sget_map {dflt : Nat → Word} {b : Nat} {f : Nat → Word} {i : Nat} : ∀ {l : List Nat}, i ∈ l → sget dflt (l.map fun i => (b + 4 * i, f i)) (b + 4 * i) = f i
  | j :: l, h => by
    simp only [List.map_cons, sget]
    split
    · rw [show j = i by omega]
    · exact sget_map ((List.mem_cons.mp h).resolve_left (by omega))

/-- Plan 0 of range 0 alone, its check about to end. -/
def checked : State := (checking 0x201 (List.range 393)).setRegBit (leatA 0x400) 9 false

theorem checked_byte (o : Nat) (h : o / 4 < 393) : checked.planByte 0 o = fld (route0Word (o / 4)) (8 * (o % 4) + 7) (8 * (o % 4)) := by
  have e : leatA (0x8000 + 0x800 * 0 + o / 4 * 4) = leatA 0x8000 + 4 * (o / 4) := by unfold leatA; omega
  have n : leatA 0x400 ≠ leatA 0x8000 + 4 * (o / 4) := by unfold leatA; omega
  simp only [State.planByte, State.regFld, checked, State.setRegBit]
  rw [e, State.reg_setReg_ne _ _ n.symm]
  simp only [State.reg, checking, st]
  rw [sget, if_neg n, sget_map (List.mem_range.mpr h), if_neg (by decide)]

theorem witness_PlansAndFlips : (checking 0x201 []).regBit (leatA 0x400) 9 = true ∧ (((checking 0x200 []).setRegBit (leatA 0x400) 9 false).planOk 0 = false) := by decide

theorem route0_ok : (∀ a < 36, ∀ b < 36, routeOk 1 a b (fld (route0Word ((36 * a + b) / 4)) (8 * ((36 * a + b) % 4) + 7) (8 * ((36 * a + b) % 4))) = true) ∧
    ∀ a < 36, let h := fld (route0Word ((0x600 + a) / 4)) (8 * ((0x600 + a) % 4) + 7) (8 * ((0x600 + a) % 4))
      (!inRanges 1 a || (decide (h < 16) && hbmOk 1 h 0 && hbmOk 1 h 1)) = true := by decide +kernel

theorem witness_PlansAndFlips_ok : checked.planOk 0 = true := by
  have r : checked.planRanges 0 = 1 := by
    simp only [State.planRanges, State.regFld, checked, State.setRegBit]
    rw [State.reg_setReg_same]
    decide
  simp only [State.planOk, r, Bool.and_eq_true, List.all_eq_true, List.mem_range]
  refine ⟨⟨by decide, fun a ha b hb => ?_⟩, fun a ha => ?_⟩
  · rw [State.routeEntry, checked_byte _ (by omega)]
    exact route0_ok.1 a ha b hb
  · rw [State.hbmByte, checked_byte _ (by omega)]
    exact route0_ok.2 a ha

/-- Three ranges are on under plan 7, and the fabric of range 3 comes up, perhaps with a flip in progress. -/
def flipping (f : Option Flip) : State :=
  { sluice (st [(leatA 8, 0x701), (leatA 0x41C, 0x107), (domState 51, 4)]) [] [(51, 4)] with fabric := { flip := f } }

theorem witness_FlipRequest : let s := flipping none
    s.held = none ∧ s.fabric.flip = none ∧ s.txn 51 = none ∧ s.slc.up.any (fun k => decide (k.1 = 51)) = true ∧ s.coveredRanges.testBit 3 = false ∧
      (rangeNodes 3).all (fun n => !s.routerClosed n) = true ∧ s.flipPlan (s.rangesOn + 2 ^ 3) = some none ∧
      ((flipping none).setReg (leatA 4) 8).flipPlan (((flipping none).setReg (leatA 4) 8).rangesOn + 2 ^ 3) = none := by decide

theorem witness_Flips : ((flipping (some ⟨15, none, false, []⟩)).fabric.flip = some ⟨15, none, false, []⟩) ∧
    (37 ∈ (flipping (some ⟨15, none, true, []⟩)).liveEndpoints) ∧
    (let s := flipping (some ⟨15, none, true, List.range 38⟩)
     (∀ k ∈ s.liveEndpoints, k ∈ List.range 38) ∧ s.oldEpoch = false) := by decide

/-- The fabric under plan 7 with the node of range 3 off, or training. -/
def covered (closed training : List Nat) (fails : List (Nat × Nat)) : State :=
  { st [(leatA 8, 0x701), (leatA 0x41C, 0x107), (leatA 0x18, 0), (epA 35, 3)] with fabric := { closed := closed, training := training, fails := fails } }

theorem witness_RoutersAndLinks : (let s := covered [] [] []
     s.held = none ∧ s.routerClosed 35 = false ∧ s.fabric.flip = none ∧ (∀ t ∈ s.fabric.txns, epNode t.init ≠ 35 ∧ epNode t.dest ≠ 35) ∧
       inRanges s.coveredRanges 35 = false ∧ s.epState 35 = 3) ∧ 35 ∈ (covered [35] [35] []).fabric.training ∧
    ((covered [] [] []).linkState 71 = 0 ∧ (covered [] [] []).regFld (leatA 0x18) 15 0 = 0) ∧
    sget (fun _ => 0) (covered [] [] [(71, 7)]).fabric.fails 71 + 1 = 8 := by decide

/-! Flumes -/

/-- Channel 15 of ridge 23, enabled, in a state, with its ring of 4 descriptors in tile memory. -/
def flume (state : Word) (c : Chan) (regs : List (Nat × Word) := []) : State :=
  let f : FlumeId := .ridge 23 15
  { st ([(f.base, 1), (f.base + 4, state), (f.base + 0x10, 0x17000000), (f.base + 0x14, 0x10), (f.base + 0x18, 4)] ++ regs) with chans := [(f.index, c)] }

theorem witness_DescriptorFetches : let s := flume 3 {}
    s.held = none ∧ s.flumeMayWork (.ridge 23 15) = true ∧ s.chState (.ridge 23 15) = 3 ∧ (s.chan (.ridge 23 15)).fetch = none ∧
      (s.busRead (.flume (.ridge 23 15)) (s.descAddr (.ridge 23 15)) s.descSize).2 = .ok (List.replicate 32 0) := by decide

theorem witness_DescriptorFetches_error : let s := (flume 3 {}).setReg ((FlumeId.ridge 23 15).base + 0x14) 0xFF
    s.flumeMayWork (.ridge 23 15) = true ∧ s.chState (.ridge 23 15) = 3 ∧ (s.chan (.ridge 23 15)).fetch = none ∧
      (s.busRead (.flume (.ridge 23 15)) (s.descAddr (.ridge 23 15)) s.descSize).2 = .err := by decide

/-- The bytes of a descriptor with a CTL word, of 8 bytes within tile memory unless said otherwise. -/
def descriptor (ctl : Word) (count : Nat := 8) (src : Nat := 0x1000000000) (dst : Nat := 0x1000000100) : List Byte :=
  toBytes 5 src ++ toBytes 3 count ++ toBytes 5 dst ++ [0, 0, 0] ++ toBytes 4 ctl.toNat ++ toBytes 12 0

/-- A descriptor in hand. -/
def inHand (ctl : Word) (count : Nat := 8) (src : Nat := 0x1000000000) (dst : Nat := 0x1000000100) : Desc := descOf (descriptor ctl count src dst)

/-- A fetch that returned a descriptor: what DESCRIPTOR_RETURN asks. -/
def returned (d : List Byte) : State := flume 3 { fetch := some (some d) }

theorem witness_DescriptorReturns : let s := returned (descriptor 1)
    s.held = none ∧ s.flumeOn (.ridge 23 15) = true ∧ s.regBit (FlumeId.ridge 23 15).base 2 = false ∧ (s.chan (.ridge 23 15)).fetch = some (some (descriptor 1)) ∧
      (s.chan (.ridge 23 15)).stopping = false := by decide

theorem witness_DescriptorReturns_clauses : (bit (inHand 1).ctl 0 = true ∧ descOk (descriptor 1) = true ∧ (inHand 1).trig = 0) ∧
    (descOk (descriptor 5) = true ∧ (inHand 5).trig = 1) ∧ (descOk (descriptor 9) = true ∧ (inHand 9).trig = 2) ∧
    (bit (inHand 0x41).ctl 0 = true ∧ descOk (descriptor 0x41) = false) ∧ bit (inHand 0).ctl 0 = false := by decide

theorem witness_DescriptorReturns_failed : (flume 3 { fetch := some none }).chan (.ridge 23 15) = { fetch := some none } ∧
    ((flume 3 { fetch := some none, stopping := true }).chan (.ridge 23 15)).stopping = true := by decide

theorem witness_BurstLengths : (255 : Nat) < (descOf (toBytes 5 0 ++ toBytes 3 256 ++ toBytes 24 0)).count := by decide

/-- The channel moves a descriptor of which so many bytes have been read ahead. -/
def moving (x : Desc) (ahead : Nat := 0) : State := flume 6 { desc := some x, funnel := List.replicate ahead 0 }

theorem witness_BurstReads : let f : FlumeId := .ridge 23 15
    (moving (inHand 1) 8).burstFrom f (inHand 1) = none ∧ (moving (inHand 1)).burstFrom f (inHand 1) = some (0x1000000000, 8) ∧
      (inHand 1).srcFixed = false ∧ (inHand 1).trig ≠ 2 ∧ (inHand 0x11).srcFixed = true ∧
      (moving (inHand 0x11)).burstFrom f (inHand 0x11) = some (0x1000000000, 8) ∧ ((moving (inHand 1)).chan f).started < (inHand 1).count := by decide

/-- Channels 14 and 15 of ridge 23 move descriptors, with CTL words of the channels. -/
def twoMoving (a b : Word) (turn : List (Nat × Nat) := []) : State :=
  { st [((FlumeId.ridge 23 14).base, a), ((FlumeId.ridge 23 15).base, b), ((FlumeId.ridge 23 14).base + 4, 6), ((FlumeId.ridge 23 15).base + 4, 6)] with
    chans := [((FlumeId.ridge 23 14).index, { desc := some (inHand 1) }), ((FlumeId.ridge 23 15).index, { desc := some (inHand 1) })], flumeTurn := turn }

theorem witness_BurstTurns : ∀ i ∈ [(twoMoving 1 0x11, 15), (twoMoving 0x11 1, 14), (twoMoving 1 1, 14), (twoMoving 1 1 [(46, (FlumeId.ridge 23 14).index + 1)], 15)],
    let f : FlumeId := .ridge 23 i.2
    let g : FlumeId := .ridge 23 (29 - i.2)
    i.1.flumeServes f = true ∧ i.1.burstHeld f = false ∧ g ∈ flumePeers f ∧ i.1.burstReady g = true ∧ i.1.burstHeld g = false := by decide

/-- The conditions under which a channel is served by its engine. -/
def servedB (s : State) : Bool :=
  let f : FlumeId := .ridge 23 15
  decide (s.held = none) && s.burstReady f && s.flumeServes f && !s.burstHeld f

theorem witness_Bursts : ∀ i ∈ ([(0, .ok [], 0x1000000100), (8, .ok [], 0x1000000100), (0, .err, 0xFF00000000)] : List (Nat × Res × Nat)),
    let x := inHand 1 8 0x1000000000 i.2.2
    let s := moving x i.1
    let f : FlumeId := .ridge 23 15
    let z := ({ s with flumeTurn := sset (fun _ => 0) s.flumeTurn (s.flumeGroup f) (f.index + 1) } : State).setChState f 6
    let v := z.modChan f fun c => { c with started := 8, funnel := [], bursts := [{ bytes := 8, err := 0, wait := some (i.2.2, List.replicate 8 0) }] }
    (s.chan f).desc = some x ∧ servedB s = true ∧ s.unsent f = none ∧ 0 < x.count ∧
      z.burstFrom f x = (if i.1 = 8 then none else some (0x1000000000, 8)) ∧
      (z.busRead (.flume f) 0x1000000000 8).2 = .ok (List.replicate 8 0) ∧ (z.busRead (.flume f) 0x1000000000 8).1 = z ∧
      z.burstLen f x 0 = 8 ∧ burstTo x 0 = i.2.2 ∧ v.unsent f = some (i.2.2, List.replicate 8 0) ∧
      (v.busWrite (.flume f) i.2.2 (wholeBytes (List.replicate 8 0))).2 = i.2.1 := by decide

theorem witness_Bursts_source : let x := inHand 1 8 0xFF00000000
    let f : FlumeId := .ridge 23 15
    servedB (moving x) = true ∧ ((moving x).setChState f 6).burstFrom f x = some (0xFF00000000, 8) ∧
      (((moving x).setChState f 6).busRead (.flume f) 0xFF00000000 8).2 = .err ∧ ((moving x).chan f).status = 0 ∧ (moving x).unsent f = none := by decide

theorem witness_Bursts_empty : let x := inHand 9 0
    let s := flume 5 { desc := some x } [((FlumeId.ridge 23 15).common + 0x10, 1)]
    (s.chan (.ridge 23 15)).desc = some x ∧ servedB s = true ∧ s.unsent (.ridge 23 15) = none ∧ x.count = 0 := by decide

theorem witness_Bursts_waiting : let s := flume 6 { desc := some (inHand 1), started := 8, bursts := [⟨8, 0, none, some (0x1000000100, List.replicate 8 7)⟩] }
    let f : FlumeId := .ridge 23 15
    servedB s = true ∧ s.unsent f = some (0x1000000100, List.replicate 8 7) ∧
      (s.busWrite (.flume f) 0x1000000100 (wholeBytes (List.replicate 8 7))).2 = .ok [] := by decide

theorem witness_Bursts_acks : ∀ err ∈ [0, 2], let s := flume 6 { desc := some (inHand 1), started := 8, bursts := [⟨8, err, none, none⟩] }
    (s.chan (.ridge 23 15)).bursts = ⟨8, err, none, none⟩ :: [] ∧ s.flumeOn (.ridge 23 15) = true ∧ (s.chan (.ridge 23 15)).status = 0 := by decide

theorem witness_Writebacks : let s := flume 7 { desc := some (inHand 3), started := 8, moved := 8 }
    let f : FlumeId := .ridge 23 15
    let w := s.wbBytes f (inHand 3)
    s.held = none ∧ s.flumeOn f = true ∧ (s.chan f).desc = some (inHand 3) ∧ s.chState f = 7 ∧ (s.chan f).bursts = [] ∧ (s.chan f).wb = none ∧ s.compat = false ∧
      (s.busWrite (.flume f) w.1 (wholeBytes w.2)).2 = .ok [] := by decide

theorem witness_Writebacks_failure : let s := (flume 7 { desc := some (inHand 3), started := 8, moved := 8 }).setReg ((FlumeId.ridge 23 15).base + 0x14) 0xFF
    let f : FlumeId := .ridge 23 15
    let w := s.wbBytes f (inHand 3)
    s.flumeOn f = true ∧ s.chState f = 7 ∧ (s.chan f).bursts = [] ∧ (s.chan f).wb = none ∧ (s.busWrite (.flume f) w.1 (wholeBytes w.2)).2 = .err := by decide

theorem witness_Writebacks_acks : ∀ failed : Bool, let s := flume 8 { desc := some (inHand 3), wb := some failed }
    (s.chan (.ridge 23 15)).wb = some failed ∧ (s.chan (.ridge 23 15)).stopping = false ∧ (s.chan (.ridge 23 15)).status = 0 ∧
      0 < s.regFld ((FlumeId.ridge 23 15).base + 0x18) 15 0 := by decide

/-! Lanes -/

/-- Lane 95 in ACTIVE at a rate, with this status, these registers and this receiver. -/
def lane (rate status : Word) (regs : List (Nat × Word) := []) (x : Lane := {}) : State :=
  { st ([(lnA 95 0, rate), (lnA 95 4, 0), (lnA 95 8, status)] ++ regs) with lanes := State.reset.lanes.set 95 x }

theorem witness_LaneStatusBits : (lane 1 0).held = none ∧ (lane 1 0).hasLane 95 = true ∧ ((lane 1 0).lnState 95 < 2 ∧ (lane 1 0).lnStatus 95 0 = false) ∧
    ((lane 1 1).lnState 95 = 0 ∧ (lane 1 1).lnStatus 95 0 = true ∧ (lane 1 1).lnStatus 95 1 = false ∧ (lane 1 1).lnStatus 95 4 = false) ∧
    (lane 1 0 [(lnA 95 0x30, 0x20)]).regBit (lnA 95 0x30) 5 = true ∧ (lane 1 0 [(lnA 95 0x34, 1)]).regBit (lnA 95 0x34) 0 = true := by decide

theorem witness_Adaptation : (lane 1 1).lnState 95 = 0 ∧ (lane 1 1).lnStatus 95 0 = true ∧ (lane 1 1).lnStatus 95 4 = false := by decide

theorem witness_LaneLosses : ((lane 2 7 [(cpriA 3 11 0, 0x2F)]).lnState 95 < 2 ∧ (lane 2 7 [(cpriA 3 11 0, 0x2F)]).lnStatus 95 0 = true ∧
      (lane 2 7 [(cpriA 3 11 0, 0x2F)]).lnStatus 95 1 = true ∧ (lane 2 7 [(cpriA 3 11 0, 0x2F)]).lnStatus 95 2 = true) ∧
    ((lane 2 7 [(cpriA 3 11 0, 0x2F)]).regBit (cpriA (laneHub 95) 11 0) 0 = true ∧ (lane 2 7 [(cpriA 3 11 0, 0x2F)]).cpriLane (laneHub 95) 11 = 23) := by decide

theorem witness_QuadPlls : ((lane 2 0x20 [(quadA 23 4, 0xC)]).hasRange 3 = true ∧ (lane 2 0x20 [(quadA 23 4, 0xC)]).regBit (quadA 23 4) 3 = true) ∧
    (quadOf 95 = 23 ∧ (lane 2 0x20).usesPll 95 true = true ∧ (lane 2 0x20).lnState 95 < 2) ∧
    ((lane 1 0 [(quadA 23 4, 1)]).regBit (quadA 23 4) 0 = true ∧ (lane 1 0 [(quadA 23 4, 1)]).regBit (quadA 23 4) 1 = false ∧ (lane 1 0).usesPll 95 false = true) := by decide

/-- The candidate positions of a window. -/
def commasIn (win x : BitVec 10) : List Nat := (List.range 10).filter fun p => isComma (bitsAt (win.toNat + 1024 * x.toNat) p 7)

theorem witness_SymbolAlignment : (lane 2 7).held = none ∧ (lane 2 7).hasLane 95 = true ∧ rate8b10b ((lane 2 7).lnRate 95) = true ∧ (lane 2 7).lnState 95 = 0 ∧
    (lane 2 7).lnStatus 95 1 = true ∧ ((lane 2 7).lanes[(95 : Fin 96)].al = .unaligned ∧ commasIn 0x17C 0x155 = [0]) ∧
    ((receive10 (bitsAt (0x17C + 1024 * 0x155) 0 10) false).bad = false ∧ (lane 2 7 [] { al := .candidate, n := 2 }).lanes[(95 : Fin 96)].n + 1 = (lane 2 7).alignCnt 95) ∧
    ((lane 2 7).lnStatus 95 2 = true ∧ commasIn 0 0 = [] ∧ (receive10 (bitsAt 0 0 10) false).bad = true ∧
      (lane 2 7).lossCnt 95 ≤ (lane 2 7 [] { al := .aligned, e := 3 }).lanes[(95 : Fin 96)].e + 1) ∧
    ((lane 0x22 7).regBit (lnA 95 0) 5 = true ∧ rate8b10b ((lane 0x22 7).lnRate 95) = true ∧ ~~~(0x2AA : BitVec 10) = 0x155) := by decide

theorem witness_LaneSending : (lane 2 0x20 [(lnA 95 0x30, 0x13)]).laneSends 95 = true ∧ (lane 2 0x20 [(lnA 95 0x30, 0x13)]).regBit (lnA 95 0x30) 4 = true ∧
    (prbsTaps 3).1 < 10 * (List.replicate 4 (0 : BitVec 9)).length ∧ (lane 2 0x20).framingSends 95 = true ∧
    ((lane 2 0).lnStatus 95 5 = false) ∧ (lane 2 0x20 [(lnA 95 4, 0x10000)]).regFld (lnA 95 0) 7 6 ≠ 1 ∧ (lane 0x42 0x20).regFld (lnA 95 0) 7 6 = 1 := by decide

theorem witness_CodeGroups : kCodes.any (fun p => decide (p.1 = (0xBC : BitVec 8).toNat)) = true ∧ kCodes.any (fun p => decide (p.1 = (0 : BitVec 8).toNat)) = false := by
  decide

theorem witness_BlockLock : ((lane 1 3).lnRate 95 = 1 ∧ (lane 1 3).lnState 95 = 0 ∧ (lane 1 3).lnStatus 95 1 = true ∧ (lane 1 3).lnStatus 95 3 = false) ∧
    ((lane 1 3 [] { hdrs := 63 }).lanes[(95 : Fin 96)].hdrs = 63 ∧ (lane 1 3 [] { hdrs := 63 }).lanes[(95 : Fin 96)].hdrBad = 0) ∧
    ((lane 1 11 [] { hdrs := 20, hdrBad := 15 }).lanes[(95 : Fin 96)].hdrBad = 15 ∧ (lane 1 11).lnStatus 95 3 = true) := by decide

theorem witness_LanePower : ∀ g ∈ [0, 1, 2, 3], let s := lane 1 0 [] { trans := some g }
    s.held = none ∧ s.hasLane 95 = true ∧ s.lanes[(95 : Fin 96)].trans = some g ∧ g < 4 := by decide

/-! Framing -/

/-- A frame of n bytes to a station, of a type, with its FCS or another. -/
def frameOf (mac : List Byte) (ty : List Byte) (rest : List Byte) (good : Bool) : List Byte :=
  let d := mac ++ List.replicate 6 0 ++ ty ++ rest
  d ++ (if good then toBytes 4 (fcs d) else [0, 0, 0, 0])

/-- Port 23 of hub 3 is UP, in a state of these registers. -/
def port (regs : List (Nat × Word) := []) (x : Hub := {}) : State := { st ((ethA 3 23 4, 1) :: regs) with hubs := State.reset.hubs.set 3 x }

/-- A frame of 64 bytes with a type and a payload. -/
def frame64 (mac ty : List Byte) (m : List Byte := []) : List Byte := frameOf mac ty (m ++ List.replicate (46 - m.length) 0) true

theorem witness_FramesReceived_times : let s : State := { port with tb := { now := 100 } }
    s.frameTimes 3 23 64 80 100 = true ∧ s.portUp 3 23 = true := by decide

theorem witness_FramesReceived : (port).held = none ∧ (port).rfabOn 3 = true ∧ (port).portUp 3 23 = true ∧
    (¬64 ≤ (frameOf [] [] (List.replicate 53 0) true).length) ∧
    (let f := frame64 (List.replicate 6 0xFF) [0x88, 0x08]
     64 ≤ f.length ∧ f.length ≤ 9600 ∧ eFld f (f.length - 4) 4 = fcs (f.take (f.length - 4)) ∧ beFld (f.take 60) (typeAt (f.take 60)) 2 = 0x8808) := by decide

theorem witness_FramesReceived_mine : (let d := (frame64 [2, 0, 0, 0, 0, 1] [0x88, 0xB5]).take 60
     d.take 6 ≠ (port).portMac 3 23 ∧ d.take 6 ≠ List.replicate 6 0xFF ∧ d.take 6 ∉ ptpMacs ∧ (port).regBit (ethA 3 23 0) 3 = false ∧ beFld d (typeAt d) 2 ≠ 0x8808) ∧
    (let d := (frame64 (List.replicate 6 0xFF) [0x88, 0xB5]).take 60
     d.take 6 = List.replicate 6 0xFF ∧ beFld d (typeAt d) 2 = 0x88B5 ∧ (port).ecpriOf 3 23 d = none ∧ (port).regBit (hubA 3 1 4) 0 = false) ∧
    (let s := port [(hubA 3 1 4, 1), (rxqA 3 0 0, 1)]
     s.regBit (hubA 3 1 4) 0 = true ∧ s.regFld (hubA 3 1 4) 11 8 = 0 ∧ s.regBit (rxqA 3 0 0) 0 = true ∧ (recordsOf s.hubs[(3 : Fin 4)].rxq 0).length < 65536 / recSize (s.reg (rxqA 3 0 0))) := by
  decide

theorem witness_FramesReceived_uplane : let d := (frame64 (List.replicate 6 0xFF) [0xAE, 0xFE] [0x10, 0, 0, 8, 0x12, 0x34]).take 60
    ∃ m, (port).ecpriOf 3 23 d = some m ∧ 4 ≤ m.length ∧ eFld m 0 1 % 2 = 0 ∧ eFld m 1 1 = 0 ∧
      (port).eaxcFor 3 false 23 (beFld ((m.drop 4).take (beFld m 2 2)) 0 2) = none := ⟨[0x10, 0, 0, 8, 0x12, 0x34] ++ List.replicate 40 0, by decide +kernel⟩

/-- Port 23 of hub 3 has lane 95, which is ACTIVE with its PLL locked. -/
def driven : List (Nat × Word) := [(ethA 3 23 0, 1), (lnA 95 0, 1), (lnA 95 4, 0), (lnA 95 8, 0x20)]

/-- A symbol of stream 0 of hub 3 is due at time 0, for port 23. -/
def dueState (now : Time) : State :=
  { port ([(hubA 3 2 0x9000, 0xD70000), (schA 3 0 0, 1)] ++ driven) { dl := [⟨0, 0, false, 16, [(0, List.replicate 24 5)]⟩], fired := [(0, 0)] } with
    tb := { started := true, now := now } }

theorem witness_SymbolsSent : (port).dueSym 3 0 = none ∧
    ((dueState 0).dueSym 3 0).map (·.2.2) = some 0 ∧ (dueState 0).regFld (schA 3 (fld ((dueState 0).ecpW 3 0 1) 3 0) 16) 23 0 = 0 ∧
    fld ((dueState 0).ecpW 3 0 0) 20 16 = 23 ∧ bit ((dueState 0).ecpW 3 0 0) 21 = false ∧ (dueState 0).portUp 3 23 = true ∧
    ((dueState 0).replica (.hub 3)).toNat ≤ 0 ∧ (0 : Int) < ((dueState 1).replica (.hub 3)).toNat ∧ ((dueState 1).dueSym 3 0).map (·.2.2) = some 0 := by decide

theorem witness_SymbolsSent_lanes : (dueState 0).userLanes 3 (.eth 23) = [23] ∧ PortSends (dueState 0) 3 23 := by
  have h : (dueState 0).userLanes 3 (.eth 23) = [23] := by decide
  refine ⟨h, fun l hl hm => ?_⟩
  rw [h, List.mem_singleton] at hm
  obtain rfl : l = 95 := by omega
  decide

/-- The record queues of hub 3. -/
def queues (x : Hub) (cfg : Word := 1) (regs : List (Nat × Word) := []) : State := port ([(txqA 3 15 0, cfg)] ++ regs) x

theorem witness_RecordWindows : recordsOf (queues {}).hubs[(3 : Fin 4)].rxq 15 = [] ∧ recordsOf (queues { rxq := [(2, [1]), (15, [7, 8])] }).hubs[(3 : Fin 4)].rxq 15 = [7, 8] :: [] ∧
    (queues {}).txRoom 3 15 = true ∧ (queues {} 0).txRoom 3 15 = false ∧ recSize ((queues {}).reg (txqA 3 15 0)) = 256 := by decide

/-- A record for a destination. -/
def record (kind dst : Byte) (len : Nat := 4) : List Byte := toBytes 2 len ++ [kind, dst] ++ List.replicate 12 0 ++ List.replicate 4 9

theorem witness_RecordsSent : (queues {}).txHead 3 15 = none ∧
    ((queues { txq := [(15, record 0 0)] }).txHead 3 15 = some (record 0 0) ∧ (queues { txq := [(15, record 0 0)] }).recordOk 3 15 (record 0 0) = false) ∧
    ((queues { txq := [(15, record 4 23)] }).txHead 3 15 = some (record 4 23) ∧ (queues { txq := [(15, record 4 23)] }).recordOk 3 15 (record 4 23) = true ∧ eFld (record 4 23) 2 1 = 4) := by
  decide

theorem witness_RecordsSent_lanes : PortSends (port driven) 3 (eFld (record 4 23) 3 1 % 32) ∧
    ((∃ j, j ∈ (port [(ethA 3 23 0, 1)]).userLanes 3 (.eth 23)) ∧ ∀ l : Fin 96, l.val / 24 = 3 → (port [(ethA 3 23 0, 1)]).laneSends l = false) := by
  have h : (port driven).userLanes 3 (.eth 23) = [23] := by decide
  refine ⟨fun l hl hm => ?_, ⟨23, by decide⟩, by decide⟩
  rw [show eFld (record 4 23) 3 1 % 32 = 23 by decide, h, List.mem_singleton] at hm
  obtain rfl : l = 95 := by omega
  decide

/-- CPRI link 11 of hub 3 on lane 95, with these counts of hyperframes. -/
def link (status : Word) (l : CpriLink) (q : Hub := {}) : State :=
  { lane 2 7 [(cpriA 3 11 0, 0x2F), (cpriA 3 11 4, status), (txqA 3 15 0, 1)] with hubs := State.reset.hubs.set 3 { q with cpri := [(11, l)] } }

theorem witness_RecordsSent_waiting : let s := link 1 {} { txq := [(15, record 1 11)] }
    s.txHead 3 15 = some (record 1 11) ∧ s.recordOk 3 15 (record 1 11) = true ∧ eFld (record 1 11) 2 1 = 1 := by decide

theorem witness_HyperframesReceived : (link 0 {}).held = none ∧ (link 0 {}).rfabOn 3 = true ∧ (link 0 {}).cpriOn 3 11 = true ∧ (link 0 {}).cpriT 3 11 = 8 ∧
    (List.replicate (512 * 8) (0 : Byte)).length = 512 * (link 0 {}).cpriT 3 11 ∧ (link 0 {}).hubStatus 3 ((link 0 {}).cpriLane 3 11) 2 = true ∧
    ((link 0 {}).cpriSync 3 11 = false ∧ ((link 0 {}).cpriLink 3 11).good = 0 ∧ 1 ≤ ((link 0 { good := 1 }).cpriLink 3 11).good) ∧ (link 1 {}).cpriSync 3 11 = true ∧
    (((link 1 { miss := 2 }).cpriLink 3 11).miss < 3 ∧ 3 ≤ ((link 1 { miss := 3 }).cpriLink 3 11).miss) := by decide

theorem witness_HyperframesSent : (link 0 {}).held = none ∧ (link 0 {}).rfabOn 3 = true ∧ (link 0 {}).cpriOn 3 11 = true ∧
    (95 : Fin 96).val = 24 * (3 : Fin 4).val + (link 0 {}).cpriLane 3 11 ∧ (link 0 {}).laneSends 95 = false ∧
    ((link 0 {}).setReg (lnA 95 8) 0x27).framingSends 95 = true ∧ ((link 0 {}).setReg (lnA 95 8) 0x27).cpriOn 3 11 = true := by decide

/-- Lane 95, lane 23 of trunk group 0 of hub 3, in a frame state, the group in another. -/
def trunk (lane_ group : Word) : State :=
  { lane 9 7 [(trkA 3 0 0, 1), (trkA 3 0 4, 0x800000), (trkA 3 0 8, group), (trkLnA 3 23 0, lane_)] with
    hubs := State.reset.hubs.set 3 { lanes := [(23, { idOk := true })] } }

theorem witness_LaneFrames : (trunk 0 0).held = none ∧ (trunk 0 0).rfabOn 3 = true ∧ (trunk 0 0).hubRate 3 23 = 9 ∧ (trunk 0 0).hubStatus 3 23 2 = true ∧
    (trunk 0 0).fState 3 23 = 0 ∧ (trunk 1 0).fState 3 23 = 1 ∧ (trunk 2 0).fState 3 23 = 2 ∧ (trunk 0x202 0).regFld (trkLnA 3 23 0) 10 8 < 3 ∧
    3 ≤ (trunk 0x302 0).regFld (trkLnA 3 23 0) 10 8 ∧ (trunk 0x302 0).fState 3 23 = 2 := by decide

theorem witness_GroupFrames : (trunk 0 0).members 3 0 = [23] ∧ (trunk 0 0).gState 3 0 < 2 ∧
    (let s := (trunk 0 0).setReg (lnA 95 8) 0x27
     s.members 3 0 = [23] ∧ s.framingSends 95 = true) := by decide

/-- A cell of a tributary, first of its block, with a CRC. -/
def cell : List Byte :=
  let d : List Byte := [7, 1] ++ List.replicate 60 3
  d ++ toBytes 2 (crc16 d)

theorem witness_CellsReceived : (trunk 2 2).laneGroup 3 23 = some 0 ∧ 2 ≤ (trunk 2 2).gState 3 0 ∧ (trunk 2 2).usable 3 0 23 = true ∧ cell.length = 64 ∧
    crc16 (cell.take 62) = eFld cell 62 2 ∧ eFld cell 0 1 ≠ 255 ∧ bit (cell.getD 1 0) 0 = true ∧ bit (cell.getD 1 0) 1 = false ∧
    crc16 ((List.replicate 64 (1 : Byte)).take 62) ≠ eFld (List.replicate 64 (1 : Byte)) 62 2 := by decide

theorem witness_CellsReceived_tributary : let w := (st [(tribA 3 7, 1)]).reg (tribA 3 7)
    bit w 0 = true ∧ bit w 1 = false ∧ fld w 6 2 = 0 := by decide

/-! Sluices -/

/-- Ridge 23 with its configuration, its state, and the controller's settings. -/
def ridge (cfg dom ctl : Word) (c : Slc := {}) (regs : List (Nat × Word) := []) : State :=
  { st ([(domCfg 23, cfg), (domState 23, dom), (slcA 4, ctl)] ++ regs) with slc := c }

/-- A delayed thread of range 3 that can run on ridge 23 is due at a tick. -/
def workAt (tick cfg ctl : Word) : State :=
  { ridge cfg 0 ctl with
    dpts := State.reset.dpts.set 3 { delay := [(tick, 5)] }, ctx := [(3 * 2 ^ 21 + 640, 0x5000004), (3 * 2 ^ 21 + 660, 0x3FF8000)] }

theorem witness_AutomaticChoice : (ridge 0x27 0 2).held = none ∧ (ridge 0x27 0 2).domPresent 23 = true ∧ (ridge 0x27 0 2).force 23 = none ∧ (ridge 0x27 0 2).txn 23 = none ∧
    (ridge 0x27 0 2).dom 23 = 0 ∧ (ridge 0x27 0 2).slc.up.any (fun p => decide (p.1 = 23)) = false ∧
    ((ridge 0x27 0 2).nextWork (ridgeRange 23) 5).1 = 0 ∧ ((ridge 0x27 0 2).regBit (slcA 4) 1 = true ∧ (ridge 0x27 0 2).maxDepth 23 = 2) ∧
    ((ridge 0x17 0 1).regBit (slcA 4) 1 = false ∧ (ridge 0x17 0 1).regBit (slcA 4) 0 = true ∧ (ridge 0x17 0 1).maxDepth 23 = 1) ∧ (ridge 0x07 0 3).maxDepth 23 = 0 := by decide

theorem witness_AutomaticChoice_work : (workAt 4 0x27 3).nextWork (ridgeRange 23) 5 = (2, 4) ∧ (workAt 1 0x27 3).nextWork (ridgeRange 23) 5 = (2, 1) ∧
    (workAt 0 0x27 3).nextWork (ridgeRange 23) 5 = (2, 0) ∧ (workAt 4 0x27 3).tickOf ((workAt 4 0x27 3).replica .slc).toNat = 0 ∧ (workAt 4 0x27 3).tb.div.toNat = 4096 ∧
    (workAt 4 0x27 3).frameOfs = 0 ∧ 11797 + (workAt 4 0x27 3).margin ≤ 4 * 4096 ∧ 689 + (workAt 1 0x27 3).margin ≤ 4096 ∧ 4096 < 11797 ∧
    2 ^ 31 ≤ ((0x80000000 : Word) - (workAt 4 0x27 3).tickOf ((workAt 4 0x27 3).replica .slc).toNat).toNat := by decide

theorem witness_AutomaticChoice_now : let s : State := { ridge 0x27 0 2 with cores := State.reset.cores.set 191 { fgT := some 5, run := .running } }
    (s.nextWork (ridgeRange 23) 5).1 = 1 := by decide

/-- A transaction of ridge 23 to SLEEP, with its votes. -/
def entering (votes : List (Nat × Nat)) (commit : Bool := false) (target : Nat := 2) : SlcTxn := { dom := 23, target := target, auto := true, commit := commit, votes := votes }

theorem witness_DomainEntries : ((ridge 2 0 0).mayPrepare 23 = true ∧ (ridge 2 0 0).orderBad 23 ((ridge 2 0 0).want 23) = false) ∧
    ((st [(domCfg 51, 4)]).mayPrepare 51 = true ∧ (st [(domCfg 51, 4)]).orderBad 51 ((st [(domCfg 51, 4)]).want 51) = true) ∧
    (let s := ridge 2 8 0 { txns := [entering [(1, 0), (2, 0)]] }
     s.txn 23 = some (entering [(1, 0), (2, 0)]) ∧ 5 ∈ votersOf 23 2 ∧ (∀ p ∈ (entering [(1, 0), (2, 0)]).votes, p.1 ≠ 5) ∧ s.voteOf 23 2 5 = 0) ∧
    (∀ k ∈ votersOf 23 2, ∃ p ∈ [(1, 0), (2, 0), (3, 0), (4, 0), (5, 0)], p.1 = k) ∧ (23 ∈ (ridge 2 0 0 { retry := [23] }).slc.retry) := by decide

theorem witness_DomainEntries_complete : let s := ridge 2 8 0 { txns := [entering [] true] } [(epA (ridgeNode 23), 2)]
    s.txn 23 = some (entering [] true) ∧ s.entryReady (entering [] true) = true ∧ (entering [] true).target ≤ 4 := by decide

theorem witness_DozeEntries : ∀ i ∈ [(23 : Fin 32), 27], let s := st [(domCfg (cmpDomain i), 1)]
    s.held = none ∧ i.val < 28 ∧ s.domPresent (cmpDomain i) = true ∧ s.want (cmpDomain i) = 1 ∧ s.dom (cmpDomain i) = 0 ∧ s.txn (cmpDomain i) = none ∧
      cmpDomain i ∉ s.wakes ∧ s.quiescent i = true := by decide

theorem witness_DomainExits : (let s : State := { ridge 0x27 2 0 with wakes := [23] }
     23 ∈ s.wakes ∧ s.txn 23 = none ∧ s.dom 23 ≠ 0 ∧ s.force 23 ≠ some 4 ∧ s.domPresent 23 = true ∧
       s.slc.up.any (fun p => decide (p.1 = 23)) = false ∧ ({ s with slc := { s.slc with up := [(23, 2)] } } : State).slc.up.any (fun p => decide (p.1 = 23)) = true) ∧
    (let s : State := { ridge 0x27 8 0 { txns := [entering []] } with wakes := [23] }
     s.txn 23 = some (entering []) ∧ (entering []).commit = false) ∧
    (let s : State := { ridge 0x27 8 0 { txns := [entering [] true] } with wakes := [23] }
     s.txn 23 = some (entering [] true) ∧ (entering [] true).commit = true ∧ (entering [] true).target ≠ 4) ∧
    ((ridge 0x27 2 0 { wakeAct := [23] }).wakeDue 23 = true ∧ (ridge 0x27 1 0 { wakeAct := [23] }).wakeDue 23 = true) ∧
    ((ridge 0 2 0 { up := [(23, 2)] } [(epA (ridgeNode 23), 2)]).exitReady 23 = true ∧ (ridge 0 2 0).force 23 = some 0 ∧
      (ridge 0 2 0 {} [(epA (ridgeNode 23), 2)]).epState (ridgeNode 23) = 2) := by decide

theorem witness_ClocksAndRetention : ((st [(rangeClk 3, 3)]).regBit (rangeClk 3) 2 = false ∧ (st []).hasRange 3 = true ∧ (st []).dom 55 = 0 ∧
      (st [(rangeClk 3, 3)]).regBit (rangeClk 3) 1 = true ∧ (st [(rangeClk 3, 1)]).regBit (rangeClk 3) 1 = false) ∧ 3 ∈ (ridge 0 0 0 { switching := [3] }).slc.switching ∧
    (let s := ridge 0 2 0 { retained := [(23, 0x8001)], retLost := [(22, 1)] }
     s.dom 23 = 2 ∧ (0xFF00 : BitVec 16).toNat &&& sget (fun _ => 0) s.slc.retained 23 ≠ 0 ∧ sget (fun _ => 0) s.slc.retLost 23 = 0) ∧
    ((st [(slcA 8, 0), (hkA 0x8014, 1)]).regBit (Block.hk.base + 0x8014) 0 = true ∧ (st [(slcA 8, 0), (hkA 0x8014, 1)]).regBit (slcA 8) 1 = false) ∧
    ((st [(slcA 8, 2)]).regBit (Block.hk.base + 0x8014) 0 = false ∧ (st [(slcA 8, 2)]).regBit (slcA 8) 1 = true) := by decide

/-! Housekeeping converters -/

/-- DAC channel 7 with its CTL and STATUS, and its part outside the registers. -/
def dac (ctl status : Word) (d : Dac := {}) (regs : List (Nat × Word) := []) : State :=
  { st ([(dacA 7 0, ctl), (dacA 7 4, status)] ++ regs) with hk := { (st []).hk with dacs := (st []).hk.dacs.set 7 d } }

theorem witness_Strobes : (let s := dac 0x1C 1 {} [(hkA 0x14, 8)]
     s.held = none ∧ (s.regFld (hkA 0x14) 3 0).testBit (s.regFld (dacA 7 0) 4 3) = true ∧ s.dacSrc 7 = 0 ∧ s.regBit (dacA 7 0) 2 = true ∧ s.dacState 7 = 1) ∧
    ((dac 2 1).dacSrc 7 = 2 ∧ (dac 2 1).dacState 7 = 1) := by decide

theorem witness_Strobes_direct : Direct (dac 0x1C 1) 7 := ⟨by decide, by decide, by decide, by decide⟩

theorem witness_QueueSteps : (dac 1 9).held = none ∧ (dac 1 9).regBit (dacA 7 4) 3 = true ∧ (dac 1 9).dacSrc 7 = 1 ∧ (dac 1 9).dacState 7 = 1 ∧
    bit ((dac 1 9 {} [(hkA 0x1700, 0x10005)]).reg (hkA (0x1000 + 0x100 * (7 : Fin 8).val + 4 * fld ((dac 1 9).reg (dacA 7 0x18)) 21 16))) 16 = true := by decide

theorem witness_HoldEnds : (((dac 0 5 { core := some 65535 }).dac 7).core = some 65535 ∧ ((dac 0 5 { core := some 65535 }).dac 7).next = none ∧
      ((dac 0 5 { core := some 65535 }).dac 7).range = none) ∧ ((dac 0 5 { core := some 1, range := some true }).dac 7).range = some true ∧
    (((dac 0 5 { range := some true, rangeHold := true }).dac 7).range = some true ∧ ((dac 0 5 { range := some true, rangeHold := true }).dac 7).rangeHold = true) := by
  decide

theorem witness_Brownouts : (dac 0 1).regBit (hkA 8) 0 = false ∧ (dac 0 1 {} [(hkA 4, 2)]).regBit (hkA 4) 1 = true ∧ (dac 0 1 {} [(hkA 4, 0)]).regBit (hkA 4) 1 = false ∧
    ((dac 0 1).dacState 7 = 1 ∧ (dac 0 1).regBit (dacA 7 0) 6 = (dac 0 1).regBit (dacA 7 0x14) 16) ∧ (dac 0 0).dacState 7 ≠ 1 ∧
    (st [(hkA 8, 1)]).regBit (hkA 8) 0 = true := by decide

/-- ADC a converts an input. -/
def adcOf (a : Fin 2) (x : Adc) (regs : List (Nat × Word) := []) : State :=
  let s := dac 0x180 1 {} ([(adcA a 4, 2)] ++ regs)
  { s.modAdc a (fun _ => x) with tb := { started := true, cycles := 2458 } }

theorem witness_Conversions : ((adcOf 1 { cur := some (31, true) }).held = none ∧ ((adcOf 1 { cur := some (31, true) }).adc 1).cur = some (31, true)) ∧
    (let s := adcOf 0 { cur := some (19, false) } [(hkA 0xA04C, 0x80FF0001)]
     (s.adc 0).cur = some (19, false) ∧ s.deadInput 0 19 = false ∧ bit (s.reg (hkA (0xA000 + 0x100 * (0 : Fin 2).val + 4 * 19))) 31 = true ∧
       (0 < fld (s.reg (hkA (0xA000 + 0x100 * (0 : Fin 2).val + 4 * 19))) 11 0) ∧ 19 ∉ (s.adc 0).outside ∧ s.regBit (adcA 0 4) 1 = true ∧ s.refSel 0 = 0 ∧
       s.regBit (hkA 0x8014) 0 = false ∧ s.regFld (hkA 0x8010) 11 0 ≤ 4095) := by decide

theorem witness_Conversions_readback : let s := adcOf 0 { cur := some (7, false) } [(dacA 7 0x24, 0x10)]
    (s.adc 0).cur = some (7, false) ∧ s.regBit (adcA 0 4) 1 = true ∧ s.regBit (dacA 7 0) 8 = true ∧ s.regBit (dacA 7 4) 2 = false ∧ s.dacSrc 7 ≠ 2 ∧
      (s.dac 7).changed + 2458 ≤ s.tb.cycles ∧ s.dacState 7 = 1 ∧ s.regFld (dacA 7 0x24) 11 0 < 4095 - s.dacOut 7 ∧
      max 1 (s.regFld (dacA 7 0x24) 15 12) ≤ (s.dac 7).fails + 1 := by decide

theorem witness_References : (st [(adcA 1 0, 1)]).regBit (adcA 1 0) 0 = true := by decide

/-! Start-up -/

/-- 32 bytes, most significant first. -/
def be32 (v : Nat) : List Byte := (toBytes 32 v).reverse

/-- The base point of P-256 as a public key. -/
def basePoint : List Byte :=
  be32 0x6B17D1F2E12C4247F8BCE6E563A440F277037D812DEB33A0F4A13945D898C296 ++ be32 0x4FE342E2FE1A7F9B8EE7EB4A7C0F9E162BCE33576B315ECECBB6406837BF51F5

/-- A short image with one empty record of each type 1 to 5, signed with the private key 1 over P-256 with nonce 1: r is the base point's x, s the sum of it
and the digest (R374, R379). -/
def image : List Byte :=
  toBytes 4 0x464D5449 ++ toBytes 4 0x10000 ++ toBytes 4 352 ++ toBytes 4 9 ++ toBytes 2 5 ++ toBytes 46 0 ++
    ([1, 2, 3, 4, 5].flatMap fun t => toBytes 32 t) ++ basePoint ++ be32 0x6B17D1F2E12C4247F8BCE6E563A440F277037D812DEB33A0F4A13945D898C296 ++
    be32 0xE1A615D63BB2E58B47CE2A20BBE23300552FFDCC04AEF5FEB3A6EF6070BCEE33

/-- SHA-256 of the public key, in the key fuses of index 0. -/
def keyFuses : List (Nat × Word) :=
  [(bootA 0x8100, 0x7DDB75D8), (bootA 0x8104, 0x362223EF), (bootA 0x8108, 0xC638C7AE), (bootA 0x810C, 0x803EBBB0), (bootA 0x8110, 0x0F5D2F14), (bootA 0x8114, 0x24DFF4D8),
    (bootA 0x8118, 0xF5EED6FE), (bootA 0x811C, 0x9F0DB5CB)]

/-- All of its check but the signature's equation, which the kernel takes long to evaluate. -/
theorem witness_SignatureChecks_accepted : recordsOk image = true ∧ (st keyFuses).keyHash 0 = sha256 basePoint ∧ (image.drop (352 - 128)).take 64 = basePoint ∧ imgLen image = 352 ∧
    imgLe image 18 1 = 0 ∧ (st keyFuses).regBit (bootA 0x8000) 4 = false ∧
    ((imgRecs image).filter fun r => decide (r.ty < 32768)).all (fun r => decide (fcs (r.data image) = r.crc)) = true := by decide +kernel

theorem witness_SignatureChecks_rejected : (st []).imageReject image = some 5 ∧ (st []).imageReject [] = some 3 := by decide

/-- The flash with an image in a slot; the boot of a slot in a phase. -/
def flashed (k : Nat) (l : List Byte) (s : State) : State := s.setBytes (spaceFlash + 0x2000000 * k) l

theorem take_drop_append (l r : List Byte) (o n : Nat) (h : o + n ≤ l.length) : ((l ++ r).drop o).take n = (l.drop o).take n := by
  rw [List.drop_append_of_le_length (by omega), List.take_append_of_le_length (by rw [List.length_drop]; omega)]

theorem flashed_slot (k : Nat) (l : List Byte) (s : State) (h : l.length ≤ 0x2000000) :
    (flashed k l s).slotBytes k = l ++ ((flashed k l s).slotBytes k).drop l.length := by
  refine List.ext_getElem? fun i => ?_
  rcases Nat.lt_or_ge i l.length with hi | hi
  · rw [List.getElem?_append_left hi, List.getElem?_eq_getElem hi]
    simp only [State.slotBytes, State.bytes, List.getElem?_map, List.getElem?_range (show i < 0x2000000 by omega), Option.map_some]
    rw [flashed, State.byte_setBytes_in l s _ i hi]
  · rw [List.getElem?_append_right hi, List.getElem?_drop, Nat.add_sub_cancel' hi]

/-- What the ROM checks is the image in the flash. -/
theorem flashed_image (k : Nat) (l : List Byte) (s : State) (h : l.length ≤ 0x2000000) (g : 12 ≤ l.length) (n : imgLen l = l.length) :
    ((flashed k l s).slotBytes k).take (imgLen ((flashed k l s).slotBytes k)) = l := by
  rw [flashed_slot k l s h, imgLen, imgLe, take_drop_append _ _ _ _ (by omega), ← imgLe, ← imgLen, n]
  exact List.take_left ..

/-- A valid header, of an image of 4,096 bytes. -/
def header : List Byte := toBytes 4 0x464D5449 ++ toBytes 4 0x10000 ++ toBytes 4 4096 ++ toBytes 4 9 ++ toBytes 2 1 ++ toBytes 46 0 ++ toBytes 32 1

theorem witness_SignatureChecks_other (s : State) : (flashed 0 header s).slotOk 0 = true := by
  rw [State.slotOk, flashed_slot 0 header s (by decide)]
  simp only [headerOk, imgLen, imgRec, ImgRec.data, imgLe]
  have g : header.length = 96 := by decide
  simp (disch := omega) only [take_drop_append, Nat.mul_zero, Nat.add_zero]
  have z : ofBytes ((header.drop (64 + 8)).take 4) = 0 := by decide
  rw [z, List.take_zero]
  decide

/-- The ROM checks the image in slot 1, after slot 0 or not. -/
def checkingSlot (tried : List Nat) (regs : List (Nat × Word)) : State :=
  { st ((bootA 0x10, 4) :: regs) with boot := { (st []).boot with slot := some 1, tried := tried } }

theorem witness_SignatureChecks : (checkingSlot [] []).held = none ∧ (checkingSlot [] []).boot.slot = some 1 ∧ (checkingSlot [] []).regFld (bootA 0x10) 2 0 = 4 ∧
    (checkingSlot [] []).boot.wait = false ∧ (checkingSlot [] []).bootSel = 0 ∧ 0 ∉ (checkingSlot [] []).boot.tried ∧ 0 ∈ (checkingSlot [0] []).boot.tried := by decide

/-- The boot has accepted an image. -/
def accepted (regs : List (Nat × Word)) : State :=
  { st ([(bootA 0x10, 5), (bootA 0x20, 1)] ++ regs) with boot := { (st []).boot with slot := some 0 } }

theorem witness_BootSteps : ((accepted []).held = none ∧ (accepted []).boot.slot = some 0 ∧ (accepted []).mode = 1 ∧ (accepted []).regFld (bootA 0x10) 2 0 = 5 ∧
      (accepted []).reg (bootA 0x24) = 0) ∧ ((accepted [(bootA 0x24, 7)]).reg (bootA 0x24) ≠ 0 ∧ (accepted []).regBit (bootA 0x20) 8 = false) ∧
    (accepted [(bootA 0x8000, 0)]).regBit (bootA 0x8000) 0 = false ∧ (imagePair image false).1 = some 8 ∧ (imagePair image true).1 = some 9 := by decide

/-- An image whose record of type 6 lists its own level, with no stepping of its own. -/
def listing : List Byte := toBytes 8 0 ++ toBytes 4 192 ++ toBytes 4 0 ++ toBytes 2 2 ++ toBytes 46 0 ++ toBytes 32 2 ++ (toBytes 4 6 ++ toBytes 4 128 ++ toBytes 24 5) ++ toBytes 64 (2 * 2 ^ 32)

theorem witness_BootSteps_listing : imagePair listing false = (none, true) ∧ imgLen listing = listing.length ∧ 12 ≤ listing.length := by decide

/-- The device in a mode. -/
def inMode (m : Word) (regs : List (Nat × Word) := []) : State := st ((bootA 0x20, m) :: regs)

theorem witness_ModeChanges : ((inMode 2).held = none ∧ (inMode 2).mode = 2 ∧ (inMode 2).regBit (bootA 0x20) 8 = false ∧ (inMode 2).boot.final < 16) ∧
    ((inMode 7).mode = 7 ∧ (inMode 7).regBit (bootA 0x20) 8 = false) ∧ ((inMode 0x142).regBit (bootA 0x20) 8 = true ∧ (∀ d < 62, (inMode 0x142).forceDone d = true) ∧
      (inMode 0x142).boot.summitErr = false ∧ (inMode 0x142).mode ≠ 1) ∧ ((inMode 4).mode ∈ [2, 4, 5, 6, 8] ∧ (inMode 3).mode ∉ [2, 4, 5, 6, 8]) ∧
    ((inMode 3 [(hkA 4, 1)]).regBit (hkA 4) 0 = true ∧ (inMode 3 [(hkA 4, 0)]).regBit (hkA 4) 0 = false) := by decide

theorem witness_Holdover : (st []).held = none ∧ (st []).holdBest = none := by decide

/-! The mailbox -/

/-- Summit serves a mailbox at 0x3F0000000 with rings of 4, in a mode; the request of the host's ring. -/
def mailbox (m : Word) (req : List Byte) : State :=
  ((st [(bootA 0x20, m), (mbxA 4, 1), (mbxA 8, 0xF0000000), (mbxA 12, 3), (mbxA 0x18, 1)]).setBytes 0x3F0000000 (toBytes 4 0 ++ toBytes 2 4 ++ toBytes 2 4 ++ toBytes 4 0)).setBytes
    0x3F0000040 req

/-- A request: opcode and arguments. -/
def request (op : Nat) (args : List Nat) : List Byte := toBytes 2 op ++ toBytes 2 0 ++ toBytes 4 7 ++ args.flatMap (toBytes 4)

theorem witness_MailboxSends : (mailbox 4 []).mbxReady = true ∧ (mailbox 4 []).mbxRoom = true ∧ (List.replicate 56 (0 : Byte)).length ≤ 56 := by decide

/-- The device in mode m has this request at the head of its mailbox. -/
def asks (m : Word) (op : Nat) (args : List Nat) : Bool :=
  let s := mailbox m (request op args)
  decide (s.held = none) && s.mbxHead.any (fun r => decide (imgLe r 0 2 = op) && decide (args = (List.range args.length).map (mbxArg r))) && s.mbxRoom &&
    decide ((taken s).mode = m.toNat % 16)

theorem witness_MailboxRequests : asks 4 8 [] = true ∧ mbxKnown 8 = false ∧ asks 4 1 [] = true ∧ asks 4 2 [12] = true ∧ asks 4 2 [4] = true ∧ asks 4 2 [9] = true ∧ asks 4 2 [7] = true ∧
    (modeAllowed 4 9 = false ∧ modeAllowed 4 7 = true) := by decide

theorem witness_MailboxRequests_images : asks 4 3 [0, 0, 64] = true ∧ asks 8 3 [0, 0, 64] = true ∧ asks 4 4 [2] = true ∧ asks 4 4 [0] = true ∧ asks 4 5 [0, 0, 0, 16] = true ∧
    (taken (mailbox 4 (request 4 [1]))).boot.slot ≠ some 1 := by decide

theorem witness_MailboxRequests_sensors : asks 4 6 [1, 31] = true ∧ asks 4 6 [2, 0] = true ∧ asks 4 7 [95] = true ∧ asks 9 7 [95, 0x21] = true ∧ asks 9 7 [96, 0] = true ∧
    (taken (mailbox 9 (request 7 [95]))).hasLane 95 = true := by decide

/-! Events and PCIe -/

/-- One raise waits, under a route; a function's status, its vectors, and MSI-X table words. -/
def raised (route : Word) (regs : List (Nat × Word) := []) (table : List (Nat × Word) := []) : State :=
  { st regs with events := [(2000, route)], hif := { (st []).hif with table := table } }

theorem witness_Deliveries : (raised 0).events = (2000, 0) :: [] ∧ fld (0 : Word) 1 0 = 0 ∧ fld (0xD : Word) 1 0 = 1 ∧ fld (0xD : Word) 3 2 = 3 ∧
    ((raised 0xD).rinfOn 3 = true ∧ (raised 0xD [(domState 55, 4)]).rinfOn 3 = false) ∧ fld (2 : Word) 1 0 = 2 ∧ fld (3 : Word) 1 0 = 3 := by decide

theorem witness_Deliveries_vectors : let s := raised 3 [(hifA 0x100, 1), (fnA 0, 2)] [(3, 0)]
    let t := raised 3 [(hifA 0x100, 1), (fnA 0, 2)]
    (¬s.vectors 0 ≤ 0 ∧ s.regBit (fnA 0) 1 = true ∧ s.flrBusy 0 = false ∧ s.vectorMasked 0 0 = false) ∧ t.vectorMasked 0 0 = true ∧ (raised 3 [(hifA 0x100, 0)]).vectors 0 ≤ 0 := by
  decide

theorem witness_Unmasks : let s : State := { st [(fnA 16, 2)] with hif := { (st []).hif with table := [((16 * 2048 + 2047) * 4 + 3, 0)], pba := [(16 * 2048 + 2047, true)] } }
    s.pba (16 : Fn).val (2047 : BitVec 11).toNat = true ∧ s.vectorMasked (16 : Fn).val (2047 : BitVec 11).toNat = false ∧ s.regBit (fnA 16) 1 = true ∧ s.flrBusy 16 = false := by
  decide

theorem witness_FunctionResets : ((st []).flrBusy 1 = false ∧ (st []).fnThere 1 = true) ∧ ((st [(fnA 1, 8)]).flrBusy 1 = true ∧ (∀ q ∈ (st [(fnA 1, 8)]).fnFlumes 1, (st [(fnA 1, 8)]).chState (.host q) = 0)) ∧
    (2 : Nat) < (st [(hifA 0x10, 3)]).regFld (hifA 0x10) 3 0 := by decide

theorem witness_PcieSettings : (st []).fnThere 0 = true ∧ (st []).flrBusy 0 = false ∧ (st [(hifA 4, 0x200)]).regBit (hifA 4) 9 = true := by decide

theorem witness_HostRequests : let s := st [(hifA 4, 1), (hifA 0x100, 2)]
    s.held = none ∧ s.regBit (hifA 4) 0 = true ∧ s.hostClaims 0 5 0 4 = false ∧ s.hostClaims 0 0 0x20000 4 = true ∧ s.barTarget 0 0 0x20000 = .map 0x2000020000 ∧
      (s.busRead (.host 0) 0x2000020000 4).2 ≠ .err ∧ (s.busRead (.host 0) 0x2000090000 4).2 = .err ∧ s.barTarget 0 0 0x90000 = .map 0x2000090000 ∧ s.hostClaims 0 0 0x90000 4 = true ∧
      (s.busWrite (.host 0) 0x2000090000 (wholeBytes [1, 2, 3, 4])).2 = .err := by decide

theorem witness_HostRequests_table : let s := st [(hifA 4, 1), (hifA 0x100, 2)]
    s.hostClaims 0 4 0x18 4 = true ∧ s.barTarget 0 4 0x18 = .table 0x18 ∧ 0x18 % 16 = 8 ∧ 0x18 / 16 < s.vectors 0 ∧ (s.busWrite (.host 0) 0x2000020010 (wholeBytes [1, 0, 0, 0])).2 = .ok [] := by
  decide

end Sys2Proof.Tests
end

section
/-! O24 (R15): an address that no row of R12 to R14 assigns decodes to no target, so the reservation of the access's first block fails and the
gate ends the access as a bus error before it reaches a target. -/

namespace Sys2Proof.Machine

/-! The decoder on unassigned slots and addresses -/

/-- The register slots of a ridge window that R13 does not list belong to no block. -/
theorem ridgeSlot_eq_none (n : Nat) {k : Nat} (h : k ∉ [0, 2, 4, 5, 6, 7, 8, 9, 10, 11, 12, 13, 14, 15]) : ridgeSlot n k = none := by
  simp only [List.mem_cons, List.not_mem_nil, or_false, not_or] at h
  unfold ridgeSlot
  repeat rw [if_neg (by omega)]

/-- The device slots that R14 does not list belong to no block. -/
theorem deviceSlot_eq_none {k : Nat} (hlow : ¬k ≤ 8) (hdpt : ¬(0x10 ≤ k ∧ k ≤ 0x13)) (hbfa : ¬(0x20 ≤ k ∧ k ≤ 0x23))
    (hreng : ¬(0x30 ≤ k ∧ k ≤ 0x33)) (hhub : ¬(0x40 ≤ k ∧ k ≤ 0x4F)) : deviceSlot k = none := by
  unfold deviceSlot
  repeat rw [if_neg (by omega)]

theorem targetOf_eq_unassigned {a : Nat} (h : assigned a = false) : targetOf a = .unassigned := by
  simp only [assigned, Bool.or_eq_false_iff, Bool.and_eq_false_imp, decide_eq_true_eq, decide_eq_false_iff_not] at h
  obtain ⟨⟨⟨hres, hridge⟩, hdev⟩, hhost⟩ := h
  rw [targetOf, if_neg hres]
  by_cases hgap : a < 0x1000000000
  · rw [if_pos hgap]
  rw [if_neg hgap]
  by_cases hwin : a < 0x1018000000
  · obtain ⟨ho, hslot⟩ := hridge ⟨by omega, hwin⟩
    simp only [if_pos hwin, if_neg ho, if_neg (show ¬a % 0x1000000 < 0x400000 by omega), ridgeSlot_eq_none _ hslot]
  rw [if_neg hwin]
  by_cases hlow : a < 0x2000000000
  · rw [if_pos hlow]
  rw [if_neg hlow]
  by_cases hblk : a < 0x2000500000
  · obtain ⟨⟨⟨⟨hk, hdpt⟩, hbfa⟩, hreng⟩, hhub⟩ := hdev ⟨by omega, hblk⟩
    simp only [if_pos hblk, deviceSlot_eq_none hk hdpt hbfa hreng hhub]
  rw [if_neg hblk, if_neg hhost]

theorem decodeAddr_eq_unassigned (p : Part) {a : Nat} (h : assigned a = false) : decodeAddr p a = .unassigned := by
  simp [decodeAddr, targetOf_eq_unassigned h, Target.range]

/-- A reservation for an unassigned address fails in the initiator's NI (R258). -/
theorem State.reach_eq_fail (s : State) (req : Requester) {a : Nat} (h : assigned a = false) : s.reach req a = .fail := by
  simp [State.reach, State.reachFrom, State.destOf, decodeAddr_eq_unassigned s.part h]

/-! The gate of an access -/

/-- The first block of an access that is not empty starts at the access's address. -/
theorem exists_mem_blocksOf (a : Nat) {n : Nat} (hn : 0 < n) : ∃ k, (a, k) ∈ blocksOf a n := by
  refine ⟨min (a + n) (256 * (a / 256 + 1)) - a, List.mem_map.mpr ⟨0, List.mem_range.mpr (by omega), ?_⟩⟩
  simp [Nat.mul_div_le]

/-- A failing reservation of one block ends the access as a bus error before anything is sent. -/
theorem State.gate_eq_err {s : State} {req : Requester} {a n : Nat} {p : Nat × Nat} (hp : p ∈ blocksOf a n)
    (hfail : s.reach req p.1 = .fail) : s.gate req a n = some (s, .err) := by
  obtain ⟨q, hq⟩ : ∃ q, (((blocksOf a n).map fun p => (p.1, s.reach req p.1)).find? fun p => decide (p.2 = .fail)) = some q :=
    Option.isSome_iff_exists.mp (List.find?_isSome.mpr ⟨_, List.mem_map_of_mem hp, decide_eq_true hfail⟩)
  simp only [State.gate, hq]

theorem State.gate_unassigned (s : State) (req : Requester) {a n : Nat} (h : assigned a = false) (hn : 0 < n) :
    s.gate req a n = some (s, .err) := by
  obtain ⟨k, hk⟩ := exists_mem_blocksOf a hn
  exact State.gate_eq_err hk (s.reach_eq_fail req h)

/-- A read that its gate stops ends as the gate says. -/
theorem State.busRead_of_gate {s : State} {req : Requester} {a n : Nat} {q : State × Res} (h : s.gate req a n = some q) :
    s.busRead req a n = q := by
  simp only [State.busRead, h]

/-- A write that its gate stops ends as the gate says. -/
theorem State.busWrite_of_gate {s : State} {req : Requester} {a : Nat} {data : List WByte} {q : State × Res}
    (h : s.gate req a data.length = some q) : s.busWrite req a data = q := by
  simp only [State.busWrite, h]

/-- Settles O24: the gate ends an access to an unassigned address with the state as it was, reading and writing. -/
theorem unassignedAddresses : Obligations.UnassignedAddresses := by
  intro s req a n data _ hassigned hn hdata
  exact ⟨State.busRead_of_gate (s.gate_unassigned req hassigned hn),
    State.busWrite_of_gate (s.gate_unassigned req hassigned (List.length_pos_iff.mpr hdata))⟩

end Sys2Proof.Machine
end

section
/-! SUPPORT. A core's bundle without an access: bits of its status, writes in flight, its issue, and the entry of its exception (03_tarn_scalar.md
R57, R62, R82, R83). -/

namespace Sys2Proof.Machine

/-! Bits and fields (R4) -/

theorem bit_setFld {w : Nat} (v : BitVec w) {hi lo x i : Nat} (hw : i < w) :
    bit (setFld v hi lo x) i = if lo ≤ i ∧ i ≤ hi then x.testBit (i - lo) else bit v i := by
  change (setFld v hi lo x).getLsbD i = if lo ≤ i ∧ i ≤ hi then x.testBit (i - lo) else v.getLsbD i
  simp only [setFld, BitVec.getLsbD_or, BitVec.getLsbD_and, BitVec.getLsbD_not, BitVec.getLsbD_ofNat, Nat.testBit_shiftLeft,
    Nat.testBit_two_pow_sub_one, Nat.testBit_mod_two_pow, hw, decide_true, Bool.true_and]
  by_cases hlo : lo ≤ i
  · by_cases hhi : i ≤ hi
    · simp [hlo, hhi, show i - lo < hi + 1 - lo by omega]
    · simp [hhi, show ¬(i - lo < hi + 1 - lo) by omega]
  · simp [hlo]

theorem bit_setBit {w : Nat} (v : BitVec w) {k i : Nat} (b : Bool) (hw : i < w) :
    bit (setBit v k b) i = if i = k then b else bit v i := by
  rw [setBit, bit_setFld v hw]
  by_cases h : i = k
  · subst h; cases b <;> simp
  · rw [if_neg (by omega), if_neg h]

theorem testBit_fld {w : Nat} (v : BitVec w) (hi lo i : Nat) : (fld v hi lo).testBit i = (decide (i < hi + 1 - lo) && bit v (lo + i)) := by
  simp only [fld, bit, Nat.testBit_mod_two_pow, Nat.testBit_shiftRight]

/-- Fields of the same bits are the same. -/
theorem fld_congr {w : Nat} {v u : BitVec w} {hi lo : Nat} (h : ∀ i, lo ≤ i → i ≤ hi → bit v i = bit u i) : fld v hi lo = fld u hi lo := by
  refine Nat.eq_of_testBit_eq fun i => ?_
  rw [testBit_fld, testBit_fld]
  by_cases hi' : i < hi + 1 - lo
  · rw [h _ (by omega) (by omega)]
  · simp [hi']

/-- A field whose bits are 0 is 0. -/
theorem fld_eq_zero {w : Nat} {v : BitVec w} {hi lo : Nat} (h : ∀ i, lo ≤ i → i ≤ hi → bit v i = false) : fld v hi lo = 0 := by
  refine Nat.eq_of_testBit_eq fun i => ?_
  rw [testBit_fld, Nat.zero_testBit]
  by_cases hi' : i < hi + 1 - lo
  · rw [h _ (by omega) (by omega), Bool.and_false]
  · simp [hi']

/-- tc.status reads EXL as it is held. -/
theorem bit_statusView_exl (compat : Bool) (st : Word) : bit (statusView compat st) 2 = bit st 2 := by
  rw [statusView, bit_setBit _ _ (by decide), if_neg (by decide)]
  change (st &&& 0x7FF).getLsbD 2 = st.getLsbD 2
  simp

/-! Writes in flight land in registers alone (R62, R63) -/

@[simp] theorem Bank.put_pc (b : Bank) (p : Pend) : (b.put p).pc = b.pc := by cases h : p.reg <;> simp only [Bank.put, h]
@[simp] theorem Bank.put_status (b : Bank) (p : Pend) : (b.put p).status = b.status := by cases h : p.reg <;> simp only [Bank.put, h]

/-- What no step of a fold changes, the fold leaves as it was. -/
theorem foldl_keeps {α β γ : Type} (f : α → γ) {op : α → β → α} {l : List β} (h : ∀ a, ∀ b ∈ l, f (op a b) = f a) (a : α) :
    f (l.foldl op a) = f a :=
  l.foldlRecOn op (motive := fun d => f d = f a) rfl fun d hd b hb => (h d b hb).trans hd

@[simp] theorem Core.tick_pc (c : Core) : c.tick.fg.pc = c.fg.pc := foldl_keeps Bank.pc (fun b p _ => b.put_pc p) _
@[simp] theorem Core.tick_status (c : Core) : c.tick.fg.status = c.fg.status := foldl_keeps Bank.status (fun b p _ => b.put_status p) _
@[simp] theorem Core.drain_pc (c : Core) : c.drain.fg.pc = c.fg.pc := foldl_keeps Bank.pc (fun b p _ => b.put_pc p) _
@[simp] theorem Core.drain_status (c : Core) : c.drain.fg.status = c.fg.status := foldl_keeps Bank.status (fun b p _ => b.put_status p) _

/-! A change of one core -/

@[simp] theorem State.modCore_core_same (s : State) (x : Fin 192) (f : Core → Core) : (s.modCore x f).cores[x] = f s.cores[x] :=
  Vector.getElem_set_self _

theorem State.modCore_core_ne (s : State) {x y : Fin 192} (f : Core → Core) (h : y ≠ x) : (s.modCore x f).cores[y] = s.cores[y] :=
  Vector.getElem_set_ne x.isLt y.isLt (by simpa [Fin.ext_iff, eq_comm] using h)

theorem OnlyCore.modCore {s t : State} {x : Fin 192} (h : OnlyCore s t x) (f : Core → Core) : OnlyCore s (t.modCore x f) x :=
  ⟨h.1, fun y hy => (t.modCore_core_ne f hy).trans (h.2 y hy)⟩

theorem OnlyCore.refl (s : State) (x : Fin 192) : OnlyCore s s x := ⟨rfl, fun _ _ => rfl⟩

/-! The issue of a bundle without an access -/

/-- A bundle whose M slot makes no access is issued by what its S and V slots do (R57, R64). -/
theorem Issues.issue_eq_issuePlain {s : State} {x : Fin 192} {q : Bundle} (h : Issues s x q) (hm : q.m.mn = .nop ∨ q.m.mn = .fence) :
    s.issue x q = s.issuePlain x q (s.slotEffs x (s.view x) q) := by
  have hplaced : s.misplaced x s.cores[x].tick q = false := h.placed
  simp only [State.issue, h.may, h.slot, h.fetch, h.line, h.fresh, h.legal, hplaced, Bool.false_eq_true, Bool.true_eq_false, if_false]
  rcases hm with hm | hm <;> simp [hm, MMn.vector, MMn.long, MMn.access, State.view]

theorem State.issuePlain_of_worst {s : State} {x : Fin 192} {q : Bundle} {es : List Eff} {e : Exc} (h : worst (excs es) = some e) :
    s.issuePlain x q es = s.bundleExc x e := by
  simp only [State.issuePlain, h]

theorem State.issuePlain_of_quiet {s : State} {x : Fin 192} {q : Bundle} {es : List Eff} (h : excs es = []) :
    s.issuePlain x q es = s.bundleDone x es (bundleCycles q false) := by
  simp only [State.issuePlain, h, worst, List.foldl_nil]

/-! Exception entry (R82, R83) -/

/-- tc.status on entry: PRIV and EXL set, IE and bits 7:4 cleared, the others kept (R83). -/
def enteredStatus (st : Word) : Word := setFld (setFld (setFld (setBit st 0 true) 2 1 2) 4 4 0) 7 5 0

theorem bit_enteredStatus (st : Word) {i : Nat} (h : i < 32) :
    bit (enteredStatus st) i = if i = 0 ∨ i = 2 then true else if i = 1 ∨ (4 ≤ i ∧ i ≤ 7) then false else bit st i := by
  simp only [enteredStatus, bit_setFld _ h, bit_setBit _ _ h, Nat.zero_testBit]
  by_cases h8 : 8 ≤ i
  · repeat rw [if_neg (by omega)]
  · match i, h8 with
    | 0, _ | 1, _ | 2, _ | 3, _ | 4, _ | 5, _ | 6, _ | 7, _ => rfl
    | n + 8, h8 => exact absurd (Nat.le_add_left 8 n) h8

/-- A core that enters an exception from bundle view k (R83). -/
def Core.entered (k : Core) (compat : Bool) (e : Exc) : Core :=
  { k.drain with
    estatus := statusView compat k.fg.status &&& 0xFF, epc := k.fg.pc
    cause := BitVec.ofNat 32 (e.code + 256 * e.slot + 65536 * e.sub), eaddr := e.eaddr
    etarget := match k.delay with
      | some d => d.target
      | none => k.etarget
    fg := { k.drain.fg with status := enteredStatus k.fg.status, pc := bundleAddr (k.vbase + BitVec.ofNat 40 (e.code * 0x40)) }
    delay := none, repOn := false, rfeHold := false, wait := none }

/-- A bundle's exception is entered while EXL is 0 (R82, R83, R86). -/
theorem State.bundleExc_eq_entered {s : State} {x : Fin 192} {e : Exc} (hcirc : e.code ≠ 0x09) (hexl : bit s.cores[x].fg.status 2 = false) :
    s.bundleExc x e = (s.modCore x Core.tick).modCore x fun _ => (s.view x).entered s.compat e := by
  have hcompat : (s.modCore x Core.tick).compat = s.compat := rfl
  simp only [State.bundleExc, if_neg hcirc, State.enterExc, State.modCore_core_same, Core.drain_status, Core.tick_status, Core.drain_pc,
    hcompat, bit_statusView_exl, hexl, Core.entered, State.view, enteredStatus, Core.tick_status, Core.tick_pc, Bool.and_false,
    Bool.false_eq_true, if_false, Bool.toNat_false, Nat.mul_zero, Nat.add_zero]
  rfl

theorem Core.entered_spec {s t : State} {x : Fin 192} {e : Exc} (h : t.cores[x] = (s.view x).entered s.compat e) :
    Entered s.compat (s.view x) t x e := by
  have hbit : ∀ i < 32, bit t.cores[x].fg.status i =
      if i = 0 ∨ i = 2 then true else if i = 1 ∨ (4 ≤ i ∧ i ≤ 7) then false else bit (s.view x).fg.status i := fun i hi => by
    rw [h]; exact bit_enteredStatus _ hi
  refine ⟨?_, ?_, ?_, ?_, hbit 0 (by decide), hbit 2 (by decide), hbit 1 (by decide), fld_eq_zero fun i hlo hhi => ?_,
    fun _ => fld_congr fun i hlo hhi => ?_, ?_⟩
  · rw [h]; rfl
  · rw [h]; rfl
  · rw [h]; rfl
  · rw [h]; rfl
  · rw [hbit i (by omega), if_neg (by omega), if_pos (by omega)]
  · rw [hbit i (by omega), if_neg (by omega), if_neg (by omega)]
  · rw [h]
    refine ⟨rfl, rfl, rfl, ?_, rfl, rfl, rfl⟩
    rw [← Core.drain_pc, ← Core.drain_status]
    rfl

/-- An exception of a bundle enters while EXL is 0, and only its core changes (R82, R83). -/
theorem State.bundleExc_entered {s : State} {x : Fin 192} {e : Exc} (hcirc : e.code ≠ 0x09) (hexl : bit s.cores[x].fg.status 2 = false) :
    Entered s.compat (s.view x) (s.bundleExc x e) x e ∧ OnlyCore s (s.bundleExc x e) x := by
  rw [State.bundleExc_eq_entered hcirc hexl]
  exact ⟨Core.entered_spec (State.modCore_core_same _ _ _), ((OnlyCore.refl s x).modCore _).modCore _⟩

end Sys2Proof.Machine
end

section
/-! SUPPORT. CSR writes of a bundle, and what a completed bundle leaves of tc.status, tc.amode and tc.vxi (03_tarn_scalar.md R53 to R55, R66). -/

namespace Sys2Proof.Machine

/-! Writes of the control registers (R53, R54) -/

/-- CSR writes carried out in order. -/
def Core.csrPuts (c : Core) (l : List (Nat × Nat)) : Core := l.foldl (fun c p => c.csrPut p.1 p.2) c

/-- The write of a list that no later one overwrites decides. -/
theorem Core.csrPuts_last {α : Type} (f : Core → α) {l₁ l₂ : List (Nat × Nat)} {n v : Nat} {y : α} (c : Core)
    (hput : ∀ c : Core, f (c.csrPut n v) = y) (hother : ∀ (c : Core) (m u : Nat), m ≠ n → f (c.csrPut m u) = f c)
    (hlast : ∀ p ∈ l₂, p.1 ≠ n) : f (c.csrPuts (l₁ ++ (n, v) :: l₂)) = y := by
  have hsplit : c.csrPuts (l₁ ++ (n, v) :: l₂) = ((c.csrPuts l₁).csrPut n v).csrPuts l₂ := by
    simp only [Core.csrPuts, List.foldl_append, List.foldl_cons]
  rw [hsplit, Core.csrPuts, foldl_keeps f fun c p hp => hother c _ _ (hlast p hp), hput]

theorem Core.csrPut_amode (c : Core) (v : Nat) : (c.csrPut 2 v).fg.amode = (BitVec.ofNat 32 v).setWidth 8 := rfl

theorem Core.csrPut_vxi (c : Core) (v : Nat) : (c.csrPut 9 v).fg.vxi = (BitVec.ofNat 32 v).setWidth 7 := rfl

/-- Of two cores: the second has the delay slots of the first, and its tc.status, tc.amode and tc.vxi but for CSR n (R53). -/
structure CsrFrame (n : Nat) (c d : Core) : Prop where
  delay : d.delay = c.delay
  status : n ≠ 0 → d.fg.status = c.fg.status
  amode : n ≠ 2 → d.fg.amode = c.fg.amode
  vxi : n ≠ 9 → d.fg.vxi = c.fg.vxi

theorem Core.csrPut_frame (c : Core) (n v : Nat) : CsrFrame n c (c.csrPut n v) := by
  unfold Core.csrPut setRegion
  repeat' split
  any_goals exact ⟨rfl, fun _ => rfl, fun _ => rfl, fun _ => rfl⟩
  · exact ⟨rfl, fun h => absurd rfl h, fun _ => rfl, fun _ => rfl⟩
  · exact ⟨rfl, fun h => absurd rfl h, fun _ => rfl, fun _ => rfl⟩
  · exact ⟨rfl, fun _ => rfl, fun h => absurd rfl h, fun _ => rfl⟩
  · exact ⟨rfl, fun _ => rfl, fun _ => rfl, fun h => absurd rfl h⟩

/-- Unprivileged code changes no bit of tc.status below the sticky ones (R54). -/
theorem Core.csrPut_low_status {c : Core} (hpriv : c.priv = false) (n v : Nat) {i : Nat} (hi : i < 5) :
    bit (c.csrPut n v).fg.status i = bit c.fg.status i := by
  by_cases hn : n = 0
  · subst hn
    have hstatus : (c.csrPut 0 v).fg.status = c.fg.status &&& ~~~(BitVec.ofNat 32 v &&& 0x700) := by
      simp [Core.csrPut, hpriv]
    have hmask : (0x700 : Word).getLsbD i = false := (show ∀ j < 5, (0x700 : Word).getLsbD j = false by decide) i hi
    rw [hstatus]
    change (c.fg.status &&& ~~~(BitVec.ofNat 32 v &&& 0x700)).getLsbD i = c.fg.status.getLsbD i
    rw [BitVec.getLsbD_and, BitVec.getLsbD_not, BitVec.getLsbD_and, hmask, Bool.and_false, Bool.not_false, Bool.and_true,
      decide_eq_true (show i < 32 by omega), Bool.and_true]
  · rw [(c.csrPut_frame n v).status hn]

theorem Core.csrPuts_low_status {c : Core} (hpriv : c.priv = false) (l : List (Nat × Nat)) {i : Nat} (hi : i < 5) :
    bit (c.csrPuts l).fg.status i = bit c.fg.status i := by
  have hall : ∀ j < 5, bit (c.csrPuts l).fg.status j = bit c.fg.status j :=
    l.foldlRecOn _ (motive := fun d : Core => ∀ j < 5, bit d.fg.status j = bit c.fg.status j) (fun _ _ => rfl) fun d hd p _ j hj =>
      (Core.csrPut_low_status ((hd 0 (by decide)).trans hpriv) p.1 p.2 hj).trans (hd j hj)
  exact hall i hi

/-! What the instructions of a bundle ask of the control registers -/

/-- Only csrw and csrwa write a CSR at once. -/
theorem scalar_csr_eq_nil {c : Core} {e : Env} {i : SIns} {lit : Bool} (hw : i.mn ≠ .csrw) (hwa : i.mn ≠ .csrwa) :
    (scalar c e i lit).csr = [] := by
  unfold scalar
  split
  any_goals rfl
  any_goals contradiction
  all_goals
    dsimp only
    split <;> rfl

/-- An S-slot instruction writes only CSRs that R57 counts among its registers. -/
theorem keyCsr_mem_writes {c : Core} {e : Env} {i : SIns} {lit : Bool} {p : Nat × Nat} (hp : p ∈ (scalar c e i lit).csr) :
    keyCsr p.1 ∈ i.writes := by
  by_cases hw : i.mn = .csrw
  · simp only [scalar, hw] at hp
    split at hp
    · simp [SIns.writes, hw, List.mem_singleton.mp hp]
    · cases hp
  by_cases hwa : i.mn = .csrwa
  · simp only [scalar, hwa] at hp
    split at hp
    · simp [SIns.writes, hwa, List.mem_singleton.mp hp]
    · cases hp
  rw [scalar_csr_eq_nil hw hwa] at hp
  cases hp

/-- No V-slot instruction writes a CSR. -/
theorem vector_csr (c : Core) (i : VIns) : (vector c i).csr = [] := by
  unfold vector
  split <;> rfl

/-! What a completed bundle leaves of tc.status, tc.amode and tc.vxi -/

/-- Two banks agree in tc.status, tc.amode and tc.vxi. -/
structure Bank.SameModes (a b : Bank) : Prop where
  status : b.status = a.status
  amode : b.amode = a.amode
  vxi : b.vxi = a.vxi

theorem Bank.SameModes.rfl {a : Bank} : a.SameModes a := ⟨Eq.refl _, Eq.refl _, Eq.refl _⟩

theorem Bank.SameModes.trans {a b c : Bank} (h : a.SameModes b) (h' : b.SameModes c) : a.SameModes c :=
  ⟨h'.status.trans h.status, h'.amode.trans h.amode, h'.vxi.trans h.vxi⟩

theorem Bank.SameModes.goto {b : Bank} {c : Core} (h : b.SameModes c.fg) (a : Addr) : b.SameModes (c.goto a).fg :=
  h.trans ⟨Eq.refl _, Eq.refl _, Eq.refl _⟩

theorem Bank.SameModes.leaveLoops {b : Bank} {c : Core} (h : b.SameModes c.fg) (a : Addr) : b.SameModes (c.leaveLoops a).fg := by
  refine h.trans ?_
  unfold Core.leaveLoops
  dsimp only
  split <;> exact ⟨Eq.refl _, Eq.refl _, Eq.refl _⟩

theorem Bank.SameModes.repStart {b : Bank} {c : Core} (h : b.SameModes c.fg) (next : Addr) (n : Nat) : b.SameModes (c.repStart next n).fg := by
  refine h.trans ?_
  unfold Core.repStart
  split <;> exact ⟨Eq.refl _, Eq.refl _, Eq.refl _⟩

theorem Bank.loopEnd_sameModes (b : Bank) (next : Addr) (n : Nat) : b.SameModes (b.loopEnd next n).1 := by
  induction n generalizing b with
  | zero => exact .rfl
  | succ n ih =>
    unfold Bank.loopEnd
    split
    · split
      · exact Bank.SameModes.trans (b := { b with lc := set3 b.lc n 0 }) ⟨rfl, rfl, rfl⟩ (ih _)
      · exact ⟨rfl, rfl, rfl⟩
    · exact ih b

/-- Block repeats and repeats change only the loop registers, tc.rc and the next bundle (R69 to R72). -/
theorem Core.follow_sameModes (c : Core) (f : Flow) : c.fg.SameModes (c.follow f).fg := by
  have hend := c.fg.loopEnd_sameModes (bundlesOn c.fg.pc 1) 3
  unfold Core.follow
  split
  · split <;> exact ⟨rfl, rfl, rfl⟩
  · cases f with
    | go => exact .goto hend _
    | branch => exact .goto hend _
    | rfe => exact .goto hend _
    | loop => exact ⟨rfl, rfl, rfl⟩
    | rep => exact .repStart hend _ _
    | after a =>
      cases a with
      | delay => exact .goto hend _
      | skip => exact ⟨rfl, rfl, rfl⟩
      | rep => exact .repStart hend _ _

/-- Where no rfe is under way, going on to the next bundle changes DS and BT of tc.status alone (R66, R85). -/
theorem Core.advance_eq_showDelay {c : Core} (hrfe : ∀ d, c.delay = some d → d.rfe = none) (f : Flow) (mpu : Vector Region 16) (est : Word)
    (epc etgt : Addr) : ∃ c' : Core, c.fg.SameModes c'.fg ∧ c.advance f mpu est epc etgt = c'.showDelay := by
  refine ⟨_, ?_, rfl⟩
  have hsame : c.fg.SameModes c.fg := .rfl
  dsimp only
  split
  case _ d hd =>
    split
    · exact ⟨rfl, rfl, rfl⟩
    · rw [hrfe d hd]
      dsimp only
      split
      · exact .goto (.leaveLoops (by exact hsame) _) _
      · exact .goto hsame _
  case _ =>
    split
    · exact ⟨rfl, rfl, rfl⟩
    · exact Core.follow_sameModes { c with rfeHold := false } f

theorem Core.showDelay_low_status (c : Core) {i : Nat} (hi : i < 5) : bit c.showDelay.fg.status i = bit c.fg.status i := by
  have hset (n : Nat) (b : Bool) : bit (setBit (setFld c.fg.status 6 5 n) 7 b) i = bit c.fg.status i := by
    rw [bit_setBit _ _ (by omega), if_neg (by omega), bit_setFld _ (by omega), if_neg (by omega)]
  unfold Core.showDelay
  split <;> exact hset _ _

/-- The sticky flags are bits 8 to 10 of tc.status. -/
theorem Sticky.on_low_status (f : Sticky) (st : Word) {i : Nat} (hi : i < 5) : bit (f.on st) i = bit st i := by
  have hzero : (256 * f.circ.toNat + 512 * f.sat.toNat + 1024 * f.ovf.toNat).testBit i = false := by
    rw [show 256 * f.circ.toNat + 512 * f.sat.toNat + 1024 * f.ovf.toNat = 2 ^ 8 * (f.circ.toNat + 2 * f.sat.toNat + 4 * f.ovf.toNat) by omega,
      Nat.testBit_two_pow_mul, decide_eq_false (by omega), Bool.false_and]
  change (st ||| BitVec.ofNat 32 _).getLsbD i = st.getLsbD i
  rw [BitVec.getLsbD_or, BitVec.getLsbD_ofNat, hzero, Bool.and_false, Bool.or_false]

theorem Core.latch_fg_delay (c : Core) (now : Time) (extra n : Nat) :
    (c.latch now extra n).fg = c.fg ∧ (c.latch now extra n).delay = c.delay := by
  unfold Core.latch
  split
  · exact ⟨rfl, rfl⟩
  · split <;> exact ⟨rfl, rfl⟩

/-- What the CSR reads of a bundle latch (R55). -/
def Core.latchAll (c : Core) (now : Time) (extra : Nat) (es : List Eff) : Core :=
  es.foldl (fun c e => e.looks.foldl (fun c n => c.latch now extra n) c) c

theorem Core.latchAll_keeps {α : Type} (f : Core → α) {now : Time} {extra : Nat} (h : ∀ (c : Core) (n : Nat), f (c.latch now extra n) = f c)
    (c : Core) (es : List Eff) : f (c.latchAll now extra es) = f c :=
  foldl_keeps f (fun d _ _ => foldl_keeps f (fun d n _ => h d n) d) c

/-- The effects of a bundle are its CSR writes on a core that reads have changed in no bank, then cb, cl and the sticky flags (R74, R76). -/
theorem Core.apply_eq (c : Core) (now : Time) (extra : Nat) (es : List Eff) :
    ∃ (c' : Core) (cb : Vector Addr 8) (cl : Vector (BitVec 24) 8) (f : Sticky), c'.fg = c.fg ∧ c'.delay = c.delay ∧
      let d := c'.csrPuts (es.flatMap (·.csr))
      c.apply now extra es = { d with fg := { d.fg with cb := cb, cl := cl, status := f.on d.fg.status } } := by
  refine ⟨_, _, _, _, ?_, ?_, by simp only [Core.csrPuts, List.foldl_flatMap]; rfl⟩
  · refine Eq.trans ?_ (Core.latchAll_keeps Core.fg (fun c n => (c.latch_fg_delay now extra n).1) c es)
    dsimp only
    split <;> rfl
  · refine Eq.trans ?_ (Core.latchAll_keeps Core.delay (fun c n => (c.latch_fg_delay now extra n).2) c es)
    dsimp only
    split <;> rfl

/-- The bank of a core whose bundle has completed: the effects applied, then program flow (R66, R82). -/
theorem State.bundleDone_bank (s : State) (x : Fin 192) (es : List Eff) (n : Nat) :
    let k := s.view x
    (s.bundleDone x es n).cores[x].fg =
      ((k.apply (s.replica (.ridge (coreRidge x))) (s.free 0) es).advance ((es.head?.map (·.flow)).getD .go) k.mpu k.estatus k.epc
        k.etarget).fg := by
  unfold State.bundleDone
  dsimp only
  split <;> simp only [State.draw_cores, State.modCore_core_same] <;> rfl

/-- After a completed bundle, with no rfe under way, tc.amode, tc.vxi and bits 4:0 of tc.status are what the CSR writes of its slots have
made of them (R53, R66). -/
theorem State.bundleDone_modes {s : State} {x : Fin 192} (hrfe : ∀ d, (s.view x).delay = some d → d.rfe = none) (es : List Eff) (n : Nat) :
    ∃ c : Core, c.fg = (s.view x).fg ∧
      let d := c.csrPuts (es.flatMap (·.csr))
      let t := s.bundleDone x es n
      t.cores[x].fg.amode = d.fg.amode ∧ t.cores[x].fg.vxi = d.fg.vxi ∧ ∀ i < 5, bit t.cores[x].fg.status i = bit d.fg.status i := by
  obtain ⟨c, cb, cl, f, hfg, hdelay, happly⟩ := (s.view x).apply_eq (s.replica (.ridge (coreRidge x))) (s.free 0) es
  have hputs : (c.csrPuts (es.flatMap (·.csr))).delay = (s.view x).delay :=
    (foldl_keeps Core.delay (fun d p _ => (d.csrPut_frame p.1 p.2).delay) c).trans hdelay
  dsimp only at happly
  have happlied : ∀ d, ((s.view x).apply (s.replica (.ridge (coreRidge x))) (s.free 0) es).delay = some d → d.rfe = none := by
    rw [happly]
    exact hputs ▸ hrfe
  obtain ⟨c', hsame, hadvance⟩ := Core.advance_eq_showDelay happlied ((es.head?.map (·.flow)).getD .go) (s.view x).mpu (s.view x).estatus
    (s.view x).epc (s.view x).etarget
  rw [happly] at hsame
  refine ⟨c, hfg, ?_⟩
  dsimp only
  rw [s.bundleDone_bank x es n, hadvance]
  refine ⟨hsame.amode, hsame.vxi, fun i hi => ?_⟩
  rw [Core.showDelay_low_status c' hi, hsame.status, Sticky.on_low_status f _ hi]

/-! The bundle of an S-slot instruction -/

theorem Bundle.s1_free_of_legal {q : Bundle} (h : q.badSlot = none) : clash q.s1.writes q.s0.writes = false := by
  cases hclash : clash q.s1.writes q.s0.writes with
  | false => rfl
  | true =>
    simp only [Bundle.badSlot, hclash, Bool.or_true, if_true] at h
    split at h <;> cases h

/-- The effects of the bundle of an instruction in S0. -/
theorem State.slotEffs_bundle_s0 (s : State) (x : Fin 192) (k : Core) {b : IssueS} (hslot : b.slot = .s0) (i : SIns) :
    s.slotEffs x k (b.bundle i) =
      [scalar k (s.env x 0 ((b.bundle i).imm true)) i (decide ((b.bundle i).s1.mn = .lit)),
        scalar k (s.env x 1 (sext 16 (decodeS b.other).imm.toNat)) (decodeS b.other) false, vector k (decodeV b.v)] := by
  simp only [State.slotEffs, IssueS.bundle, hslot, Bundle.imm, Bool.false_and, Bool.false_eq_true, if_false]

/-- The effects of the bundle of an instruction in S1 that does not extend the immediate of S0 (R58). -/
theorem State.slotEffs_bundle_s1 (s : State) (x : Fin 192) (k : Core) {b : IssueS} (hslot : b.slot = .s1) {i : SIns} (hlit : i.mn ≠ .lit) :
    s.slotEffs x k (b.bundle i) =
      [scalar k (s.env x 0 (sext 16 (decodeS b.other).imm.toNat)) (decodeS b.other) false,
        scalar k (s.env x 1 (sext 16 i.imm.toNat)) i false, vector k (decodeV b.v)] := by
  simp only [State.slotEffs, IssueS.bundle, hslot, Bundle.imm, decide_eq_false hlit, Bool.and_false, Bool.false_eq_true, if_false, if_true]

/-- The exceptions of a bundle whose other slots raise none are those of its S-slot instruction. -/
theorem State.excs_slotEffs_bundle {s : State} {x : Fin 192} {k : Core} {b : IssueS} {i : SIns} (hlit : i.mn ≠ .lit)
    (hquiet : excs (s.slotEffs x k (b.bundle {})) = []) :
    ∃ (imm : Int) (lit : Bool), excs (s.slotEffs x k (b.bundle i)) =
      (scalar k (s.env x (if b.slot = .s0 then 0 else 1) imm) i lit).exc := by
  cases hslot : b.slot with
  | s0 =>
    rw [s.slotEffs_bundle_s0 x k hslot] at hquiet
    simp only [excs, List.flatMap_cons, List.flatMap_nil, List.append_eq_nil_iff] at hquiet
    obtain ⟨-, hother, hv, -⟩ := hquiet
    refine ⟨(b.bundle i).imm true, decide ((b.bundle i).s1.mn = .lit), ?_⟩
    rw [s.slotEffs_bundle_s0 x k hslot]
    simp only [excs, List.flatMap_cons, List.flatMap_nil, hother, hv, List.append_nil, if_true]
  | s1 =>
    rw [s.slotEffs_bundle_s1 x k hslot (by decide)] at hquiet
    simp only [excs, List.flatMap_cons, List.flatMap_nil, List.append_eq_nil_iff] at hquiet
    obtain ⟨hother, -, hv, -⟩ := hquiet
    refine ⟨sext 16 i.imm.toNat, false, ?_⟩
    rw [s.slotEffs_bundle_s1 x k hslot hlit]
    simp only [excs, List.flatMap_cons, List.flatMap_nil, hother, hv, List.append_nil, List.nil_append, reduceCtorEq, if_false]

/-- The CSR writes of a legal bundle hold those of its S-slot instruction, and no later slot writes the same CSR (R57). -/
theorem State.csrs_slotEffs_bundle {s : State} {x : Fin 192} {k : Core} {b : IssueS} {i : SIns} {n v : Nat}
    (hlegal : (b.bundle i).badSlot = none) (hlit : i.mn ≠ .lit) (hown : ∀ (e : Env) (lit : Bool), (scalar k e i lit).csr = [(n, v)]) :
    ∃ l₁ l₂ : List (Nat × Nat), (s.slotEffs x k (b.bundle i)).flatMap (·.csr) = l₁ ++ (n, v) :: l₂ ∧ ∀ p ∈ l₂, p.1 ≠ n := by
  have hkey : keyCsr n ∈ i.writes := keyCsr_mem_writes (c := k) (e := s.env x 0 0) (lit := false) (by rw [hown]; exact List.mem_singleton_self _)
  have hfree := Bundle.s1_free_of_legal hlegal
  cases hslot : b.slot with
  | s0 =>
    simp only [IssueS.bundle, hslot] at hfree
    refine ⟨[], (scalar k (s.env x 1 (sext 16 (decodeS b.other).imm.toNat)) (decodeS b.other) false).csr, ?_, ?_⟩
    · simp [s.slotEffs_bundle_s0 x k hslot, hown, vector_csr]
    · rintro p hp rfl
      have hclash : clash (decodeS b.other).writes i.writes = true :=
        List.any_eq_true.mpr ⟨_, keyCsr_mem_writes hp, List.contains_iff_mem.mpr hkey⟩
      rw [hfree] at hclash
      cases hclash
  | s1 =>
    refine ⟨(scalar k (s.env x 0 (sext 16 (decodeS b.other).imm.toNat)) (decodeS b.other) false).csr, [], ?_, by simp⟩
    simp [s.slotEffs_bundle_s1 x k hslot hlit, hown, vector_csr]

end Sys2Proof.Machine
end

section
/-! O35 (R54, R79, R80): the deciding region is the highest-numbered one that contains an address, found as a number so that two sets of
regions, or two addresses, compare; and an unprivileged CSR write completes or raises PRIV by its own slot alone. -/

namespace Sys2Proof.Machine

/-! The region that decides -/

/-- An enabled region contains an address (R79, R80). -/
def Region.covers (r : Region) (a : Nat) : Bool := bit r.attr 0 && decide (r.base.toNat ≤ a ∧ a ≤ r.lim.toNat)

/-- The number of the region that decides an access to an address (R79). -/
def decider (rs : Vector Region 16) (a : Nat) : Option (Fin 16) := (List.finRange 16).reverse.find? fun i => rs[i].covers a

/-- The bit of a region that holds the permission of a kind of access in a mode (R79). -/
def Prot.attrBit (k : Prot) (priv : Bool) : Nat := (match k with | .read => 1 | .write => 2 | .fetch => 3) + if priv then 3 else 0

theorem Region.covers_iff {r : Region} {a : Nat} : r.covers a = true ↔ bit r.attr 0 = true ∧ r.base.toNat ≤ a ∧ a ≤ r.lim.toNat := by
  simp [Region.covers]

theorem Region.covers_eq_false_iff {r : Region} {a : Nat} :
    r.covers a = false ↔ (bit r.attr 0 = true → ¬(r.base.toNat ≤ a ∧ a ≤ r.lim.toNat)) := by
  rw [← Bool.not_eq_true, Region.covers_iff, not_and]

/-- The check is by the deciding region, or by PRIV and PRIV_DEFAULT where there is none. -/
theorem permits_eq_decider (rs : Vector Region 16) (priv dflt : Bool) (k : Prot) (a : Nat) :
    permits rs priv dflt k a = match decider rs a with
      | some i => bit rs[i].attr (k.attrBit priv)
      | none => priv && dflt := by
  have hlist : rs.toList.reverse = (List.finRange 16).reverse.map fun i => rs[i] := by
    rw [List.map_reverse]
    refine congrArg List.reverse (List.ext_getElem ?_ fun i _ _ => ?_)
    · rw [Vector.length_toList, List.length_map, List.length_finRange]
    · rw [Vector.getElem_toList, List.getElem_map, List.getElem_finRange]
      rfl
  have hfind : rs.toList.reverse.find? (fun r => bit r.attr 0 && decide (r.base.toNat ≤ a ∧ a ≤ r.lim.toNat)) =
      (decider rs a).map fun i => rs[i] := by
    rw [hlist, List.find?_map]
    rfl
  rw [permits.eq_def, hfind]
  cases decider rs a with
  | none => rfl
  | some i => cases k <;> cases priv <;> rfl

theorem decider_eq_none {rs : Vector Region 16} {a : Nat} (h : ∀ i : Fin 16, rs[i].covers a = false) : decider rs a = none := by
  simpa [decider, List.find?_eq_none] using h

theorem decider_eq_some {rs : Vector Region 16} {a : Nat} {i : Fin 16} (hi : rs[i].covers a = true)
    (hhigher : ∀ j : Fin 16, i < j → rs[j].covers a = false) : decider rs a = some i := by
  rw [decider, List.find?_eq_some_iff_getElem]
  refine ⟨hi, 15 - i.val, by rw [List.length_reverse, List.length_finRange]; omega, ?_, fun j hj => ?_⟩
  · simp only [List.getElem_reverse, List.length_finRange, List.getElem_finRange, Fin.ext_iff, Fin.val_cast]
    omega
  · rw [hhigher _ ?_]
    · rfl
    · simp only [List.getElem_reverse, List.length_finRange, List.getElem_finRange, Fin.lt_def, Fin.val_cast]
      omega

/-- Two accesses that the same regions contain have the same deciding region. -/
theorem decider_congr {rs rs' : Vector Region 16} {a a' : Nat} (h : ∀ i : Fin 16, rs[i].covers a = rs'[i].covers a') :
    decider rs a = decider rs' a' := by
  simp only [decider, h]

theorem covers_of_decider {rs : Vector Region 16} {a : Nat} {i : Fin 16} (h : decider rs a = some i) : rs[i].covers a = true :=
  List.find?_some (p := fun i : Fin 16 => rs[i].covers a) h

theorem uncoveredAccess : UncoveredAccess := by
  intro rs priv dflt k a
  refine ⟨fun hout => ?_, fun i hempty => ?_⟩
  · rw [permits_eq_decider, decider_eq_none fun i => Region.covers_eq_false_iff.mpr (hout i)]
  · have hi : rs[i].covers a = false := Region.covers_eq_false_iff.mpr fun _ => by omega
    have hset : ∀ j : Fin 16, j ≠ i → (rs.set i { rs[i] with attr := 0 })[j] = rs[j] := fun j hj =>
      Vector.getElem_set_ne _ _ (by simpa [Fin.ext_iff, eq_comm] using hj)
    have hcovers : ∀ j : Fin 16, rs[j].covers a = (rs.set i { rs[i] with attr := 0 })[j].covers a := by
      intro j
      by_cases hj : j = i
      · subst hj; rw [hi]; simp [Region.covers, bit]
      · rw [hset j hj]
    rw [permits_eq_decider, permits_eq_decider, ← decider_congr hcovers]
    cases hd : decider rs a with
    | none => rfl
    | some j =>
      have hj : j ≠ i := by
        rintro rfl
        rw [covers_of_decider hd] at hi
        cases hi
      simp only [hset j hj]

theorem coveredAccess : CoveredAccess := by
  intro rs priv dflt k a i hon hbase hlim hhigher
  rw [permits_eq_decider, decider_eq_some (Region.covers_iff.mpr ⟨hon, hbase, hlim⟩)
    fun j hj => Region.covers_eq_false_iff.mpr (hhigher j hj)]
  rfl

/-! The checks of a core -/

/-- Regions made of whole 64-byte blocks contain all bytes of an aligned bundle or none (R53, R79). -/
theorem Region.covers_bundle {r : Region} {pc i : Nat} (hpc : pc % 16 = 0) (hi : i < 16) (hbase : r.base.toNat % 64 = 0)
    (hlim : r.lim.toNat % 64 = 63) : r.covers (pc + i) = r.covers pc := by
  have hin : (r.base.toNat ≤ pc + i ∧ pc + i ≤ r.lim.toNat) ↔ (r.base.toNat ≤ pc ∧ pc ≤ r.lim.toNat) := by omega
  simp only [Region.covers, hin]

theorem checksOfCore : ChecksOfCore := by
  intro c store a n
  refine ⟨by simp [Core.dataOk, Core.priv], fun hpc hblocks => ?_⟩
  have hall : ∀ i < 16, permits c.mpuF (bit c.fg.status 0) (bit c.ctl 1) .fetch (c.fg.pc.toNat + i) = c.fetchOk := by
    intro i hi
    rw [Core.fetchOk, Core.priv, permits_eq_decider, permits_eq_decider,
      decider_congr fun j => Region.covers_bundle hpc hi (hblocks j).1 (hblocks j).2]
  exact ⟨fun hok i hi => (hall i hi).trans hok, fun hbytes => (hall 0 (by decide)).symm.trans (hbytes 0 (by decide))⟩

/-! Reads and writes of the control registers by unprivileged code (R54) -/

theorem csrUser_iff_mem {csr : BitVec 12} : csrUser (csr.setWidth 26).toNat = true ↔ csr ∈ [0x000, 0x002, 0x009] := by
  have hwidth : (csr.setWidth 26).toNat = csr.toNat := BitVec.toNat_setWidth_of_le (by decide)
  simp [csrUser, hwidth, ← BitVec.toNat_inj]

section
variable {c : Core} {e : Env} {i : SIns} {lit : Bool}

theorem scalar_exc_of_read (h : i.mn ∈ [SMn.csrr, .csrra]) : (scalar c e i lit).exc = [] := by
  simp only [List.mem_cons, List.not_mem_nil, or_false] at h
  rcases h with h | h <;> simp only [scalar, h]

theorem scalar_exc_of_user (h : i.mn ∈ [SMn.csrw, .csrwa]) (huser : csrUser i.imm.toNat = true) : (scalar c e i lit).exc = [] := by
  simp only [List.mem_cons, List.not_mem_nil, or_false] at h
  rcases h with h | h <;> simp only [scalar, h, huser, Bool.or_true, if_true]

/-- R54: unprivileged code that writes any other CSR raises PRIV. -/
theorem scalar_exc_of_not_user (h : i.mn ∈ [SMn.csrw, .csrwa]) (huser : csrUser i.imm.toNat = false) (hpriv : c.priv = false) :
    (scalar c e i lit).exc = [⟨0x04, e.slot, e.pc, 0⟩] := by
  simp only [List.mem_cons, List.not_mem_nil, or_false] at h
  rcases h with h | h <;> simp only [scalar, h, huser, hpriv, Bool.or_false, Bool.false_eq_true, if_false, Env.raise]

theorem scalar_csr_of_user (h : i.mn = .csrw) (huser : csrUser i.imm.toNat = true) :
    (scalar c e i lit).csr = [(i.imm.toNat, (c.d i.rd).toNat)] := by
  have hearly : csrEarly i.imm.toNat = false := by
    simp only [csrUser, csrEarly, decide_eq_true_eq, decide_eq_false_iff_not] at huser ⊢
    omega
  simp only [scalar, h, huser, hearly, Bool.or_true, if_true, Bool.false_eq_true, if_false]

end

theorem exec_csrw_of_live {b : IssueS} {r : BitVec 5} {csr : BitVec 12} {s : State} (h : s.held = none) :
    exec (.csrw b r csr) s = .next (s.issue b.core (b.bundle { mn := .csrw, rd := r, imm := csr.setWidth 26 })) := by
  change execCsrw b r csr s = _
  rw [execCsrw, run, if_pos h]

theorem exec_csrwa_of_live {b : IssueS} {r : BitVec 5} {csr : BitVec 12} {s : State} (h : s.held = none) :
    exec (.csrwa b r csr) s = .next (s.issue b.core (b.bundle { mn := .csrwa, rd := r, imm := csr.setWidth 26 })) := by
  change execCsrwa b r csr s = _
  rw [execCsrwa, run, if_pos h]

/-- An S-slot instruction in a bundle whose other slots raise nothing, and whose M slot makes no access: what `UnprivilegedWrites` calls
alone. -/
structure AloneIn (s : State) (b : IssueS) (i : SIns) : Prop where
  issues : Issues s b.core (b.bundle i)
  plain : (b.bundle i).m.mn = .nop ∨ (b.bundle i).m.mn = .fence
  quiet : excs (s.slotEffs b.core (s.view b.core) (b.bundle {})) = []

section
variable {s : State} {b : IssueS} {i : SIns}

theorem AloneIn.completing (h : AloneIn s b i) (hlit : i.mn ≠ .lit)
    (hown : ∀ (e : Env) (lit : Bool), (scalar (s.view b.core) e i lit).exc = []) : Completing s b.core (b.bundle i) := by
  obtain ⟨imm, lit, hexcs⟩ := State.excs_slotEffs_bundle hlit h.quiet
  exact { h.issues with plain := h.plain, quiet := hexcs.trans (hown _ _) }

/-- R54: it raises PRIV where unprivileged code writes a CSR that it may not. -/
theorem AloneIn.entered (h : AloneIn s b i) (hmn : i.mn ∈ [SMn.csrw, .csrwa]) (huser : csrUser i.imm.toNat = false)
    (hpriv : (s.view b.core).priv = false) (hexl : bit s.cores[b.core].fg.status 2 = false) :
    Entered s.compat (s.view b.core) (s.issue b.core (b.bundle i)) b.core
        ⟨0x04, if b.slot = .s0 then 0 else 1, (s.view b.core).fg.pc, 0⟩ ∧
      OnlyCore s (s.issue b.core (b.bundle i)) b.core := by
  have hlit : i.mn ≠ .lit := by rintro hlit; simp [hlit] at hmn
  obtain ⟨imm, lit, hexcs⟩ := State.excs_slotEffs_bundle hlit h.quiet
  rw [scalar_exc_of_not_user hmn huser hpriv] at hexcs
  have hpc : (s.view b.core).fg.pc = s.cores[b.core].fg.pc := Core.tick_pc _
  rw [h.issues.issue_eq_issuePlain h.plain, State.issuePlain_of_worst (by rw [hexcs]; rfl), hpc]
  exact State.bundleExc_entered (show 0x04 ≠ 0x09 by decide) hexl

/-- R54: what unprivileged code changes of tc.status, tc.amode and tc.vxi by a csrw that it may make. -/
theorem AloneIn.csrw_modes (h : AloneIn s b i) (hmn : i.mn = .csrw) (huser : csrUser i.imm.toNat = true)
    (hpriv : (s.view b.core).priv = false) (hrfe : ∀ d, (s.view b.core).delay = some d → d.rfe = none) :
    let k := s.view b.core
    let t := s.issue b.core (b.bundle i)
    (∀ j < 5, bit t.cores[b.core].fg.status j = bit k.fg.status j) ∧
      (i.imm.toNat = 2 → t.cores[b.core].fg.amode = (k.d i.rd).setWidth 8) ∧
      (i.imm.toNat = 9 → t.cores[b.core].fg.vxi = (k.d i.rd).setWidth 7) := by
  intro k t
  have hdone := h.completing (by simp [hmn]) fun e lit => scalar_exc_of_user (by simp [hmn]) huser
  obtain ⟨l₁, l₂, hcsrs, hlast⟩ := State.csrs_slotEffs_bundle (s := s) (x := b.core) (k := k) h.issues.legal (by simp [hmn])
    fun e lit => scalar_csr_of_user hmn huser
  obtain ⟨c, hfg, hamode, hvxi, hstatus⟩ := State.bundleDone_modes hrfe (s.slotEffs b.core k (b.bundle i)) (bundleCycles (b.bundle i) false)
  have ht : t = s.bundleDone b.core (s.slotEffs b.core k (b.bundle i)) (bundleCycles (b.bundle i) false) :=
    (h.issues.issue_eq_issuePlain h.plain).trans (State.issuePlain_of_quiet hdone.quiet)
  rw [← ht] at hamode hvxi hstatus
  rw [hcsrs] at hamode hvxi
  have hword : BitVec.ofNat 32 (k.d i.rd).toNat = k.d i.rd := by rw [BitVec.ofNat_toNat, BitVec.setWidth_eq]
  refine ⟨fun j hj => ?_, fun hn => ?_, fun hn => ?_⟩
  · rw [hstatus j hj, Core.csrPuts_low_status (by rw [Core.priv, hfg]; exact hpriv) _ hj, hfg]
  · rw [hn] at hamode hlast
    rw [hamode]
    exact Core.csrPuts_last (fun c => c.fg.amode) c (fun c => by rw [Core.csrPut_amode, hword]) (fun c m u hm => (c.csrPut_frame m u).amode hm) hlast
  · rw [hn] at hvxi hlast
    rw [hvxi]
    exact Core.csrPuts_last (fun c => c.fg.vxi) c (fun c => by rw [Core.csrPut_vxi, hword]) (fun c m u hm => (c.csrPut_frame m u).vxi hm) hlast

end

theorem unprivilegedWrites : UnprivilegedWrites := by
  intro b r csr s x k q alone
  have hin {m : SMn} (h : alone m) : AloneIn s b { mn := m, rd := r, imm := csr.setWidth 26 } ∧ k.priv = false := by
    obtain ⟨hissues, hplain, hquiet, hpriv⟩ := h
    exact ⟨⟨hissues, hplain, hquiet⟩, hpriv⟩
  refine ⟨fun m hm h => ?_, fun m hm h hcsr => ?_, fun h hcsr hrfe => ?_, fun hexl hcsr => ?_⟩
  · exact (hin h).1.completing (by rintro rfl; simp at hm) fun e lit => scalar_exc_of_read hm
  · exact (hin h).1.completing (by rintro rfl; simp at hm) fun e lit => scalar_exc_of_user hm (csrUser_iff_mem.mpr hcsr)
  · obtain ⟨hw, hpriv⟩ := hin h
    obtain ⟨hstatus, hamode, hvxi⟩ := hw.csrw_modes rfl (csrUser_iff_mem.mpr hcsr) hpriv hrfe
    exact ⟨_, exec_csrw_of_live hw.issues.live, fun _ => hstatus, fun hn => hamode (by rw [hn]; rfl), fun hn => hvxi (by rw [hn]; rfl)⟩
  · have huser : csrUser (csr.setWidth 26).toNat = false := Bool.eq_false_iff.mpr fun hu => hcsr (csrUser_iff_mem.mp hu)
    intro i hi h
    obtain ⟨hw, hpriv⟩ := hin h
    simp only [List.mem_cons, List.not_mem_nil, or_false] at hi
    rcases hi with rfl | rfl
    · exact ⟨_, exec_csrw_of_live hw.issues.live, hw.entered (by simp) huser hpriv hexl⟩
    · exact ⟨_, exec_csrwa_of_live hw.issues.live, hw.entered (by simp) huser hpriv hexl⟩

/-- Settles O35, by the deciding region of an access and by what the CSR writes of a completed bundle leave. -/
theorem regionChecks : Obligations.RegionChecks :=
  ⟨uncoveredAccess, coveredAccess, checksOfCore, unprivilegedWrites⟩

end Sys2Proof.Machine
end
